-- ==== Sys2Proof/Word.lean ====
section
/-! DEFINITION. The word types of the MB872: bytes, 16-, 32- and 64-bit words (R6, R8), and the sparse tables in
which State holds everything that comes in numbered places. -/

namespace Sys2Proof

abbrev Byte := BitVec 8
abbrev W16 := BitVec 16
abbrev W32 := BitVec 32
abbrev W64 := BitVec 64

/-- A sparse table: what has been written, by number, numbers strictly rising; an
unlisted number stands at its reset value. -/
abbrev Tbl (α : Type) := List (Nat × α)

end Sys2Proof
end

