-- ==== Sys2Proof/Syntax.lean ====
section
/-! DEFINITION. The commands of the MB872: one constructor of `Instr` for each row of spec/opcode_table.json, with the
operands a sender chooses and, for an event of the surroundings, what the surroundings show at that instant. -/

namespace Sys2Proof

/-- A protection domain, 0-15 (chapter 05). -/
abbrev Dom := BitVec 4

/-- The three Ubnak segments (chapter 03). -/
inductive Seg
  | a | b | c
deriving DecidableEq, Repr

/-- One host packet as the MB872 receives it: header link fields of R109 and the timing of R97. -/
structure Rx where
  seg  : Seg
  /-- the slot in which its leading edge is due (A and B; R97) -/
  slot : BitVec 6
  /-- `e` of R97: leading edge minus slot start minus half the strait, in units of 2.5 ns -/
  edge : Int
  /-- leading edge to trailing edge, in units of 2.5 ns -/
  air  : Nat
  node : BitVec 6
  ackv : Bool
  retx : Bool
  lseq : Byte
  lack : Byte
deriving DecidableEq, Repr

/-- A segment's signal for `ns` ns: SIG of A or B at `mv` mV; CKI of C toggling, `mv` above 0 (R67, R107). -/
structure SegSignal where
  seg : Seg
  mv  : Nat
  ns  : Nat
deriving DecidableEq, Repr

/-- A request on a connection (R109: CONN and RSEQ). -/
structure Req where
  rx   : Rx
  conn : BitVec 10
  rseq : W16
deriving DecidableEq, Repr

/-- What the line showed in a damaged packet (R70, R71): a code violation, a running-disparity error, a loss of lock before
EOP, a K30.7. -/
structure RxErrors where
  code      : Bool := false
  disparity : Bool := false
  lock      : Bool := false
  abort     : Bool := false
deriving DecidableEq, Repr

/-- A work entry in flight: its submission ring and its count (R195). -/
structure EntryRef where
  sq    : BitVec 6
  count : W16
deriving DecidableEq, Repr

/-- How a decode ended (R305, R319, R323). `data` and `md` are the codeword's 4096 and 64 bytes as decoded, still
randomised; `zeros` counts the zero bits of the raw codeword; `unsat` the unsatisfied checks of a failed hard decode. -/
structure DecodeResult where
  ok        : Bool
  data      : List Byte
  md        : List Byte
  corrected : Nat
  unsat     : Nat
  zeros     : Nat
deriving DecidableEq, Repr

/-- What the flash bus shows during one microword (R348, R350). -/
structure BusSample where
  dq       : Byte
  rbHigh   : Bool
  pumpDone : Bool
deriving DecidableEq, Repr

/-- What discovery reads of one target (R277, R278): signature, IDs and parameter page. -/
structure TargetReport where
  present  : Bool
  jesd     : Bool
  ids      : W32
  luns     : Nat
  planes   : Nat
  blocks   : Nat
  pages    : Nat
  sectors  : Nat
  /-- bit m: mode code m of R361 is supported at the pair's voltage class -/
  modes    : Byte
  /-- highest rate, units of 4 MT/s -/
  maxRate  : Byte
  diff     : Bool
  zq       : Bool
  indep    : Bool
  /-- tWHR, tADL, tCCS and tRHW in ns -/
  timing   : List Nat
  /-- the capture positions 0-31 whose copy passes the CRC (R275) -/
  capture  : W32
deriving DecidableEq, Repr

/-- A sector of a boot-area copy that did not read: its page, its sector and the failed check of R304, 0 when it stayed
uncorrectable (R529). -/
structure CopyFault where
  page   : BitVec 12
  sector : BitVec 4
  check  : BitVec 2
deriving DecidableEq, Repr

/-- How a field request names the tag (ISO/IEC 15693-3 flags, R460). -/
inductive TagAddr
  | addressed (uid : W64)
  | selected
  | all
deriving DecidableEq, Repr

/-- The commands. -/
inductive Instr
  -- chapter 02
  | tick (rx : Rx) (sequence : Byte) (interval : W32) (count : W32)
  | forwardedClockLost
  | acquisitionWindowEnd
  | faultyExpiry (node : BitVec 6)
  | sourceQualified (node : BitVec 6)
  /-- `cki`: CKI's frequency against the core clock over the frame that ends, in 0.01 ppm, when it toggled throughout -/
  | frameBoundary (cki : Option Int)
  | timekeeperSwitch
  | timekeeperRevert
  | force (w : Dom) (v : W64)
  | forceSwitch
  | sourceListWrite (w : Dom) (n : BitVec 2) (v : W64)
  | sourceDemotion
  | holdoverExpired
  | drainTimeout
  | wallSet (w : Dom) (v : W64)
  -- chapter 03
  | join (rx : Rx) (index : BitVec 4) (nonce : W32)
  | range (rx : Rx) (index : BitVec 4) (nonce : W32)
  | ack (rx : Rx)
  | erroredReception (rx : Rx) (errs : RxErrors) (crcBad : Bool)
  /-- `bytes`: header and payload as received -/
  | packetRejected (rx : Rx) (bytes : List Byte)
  | upSlotEnd (seg : Seg) (slot : BitVec 6)
  | downSlot (seg : Seg) (slot : BitVec 6)
  | retransmitTimerC
  | muteEnd (seg : Seg) (index : BitVec 4)
  | linkLost (node : BitVec 6)
  | mapAnnounce (w : Dom) (seg : Seg) (v : W64)
  | mapActive (seg : Seg)
  | evict (w : Dom) (seg : Seg) (v : W64)
  | nodeRemoved (seg : Seg)
  | laneAlignLost (lanes : BitVec 4)
  | laneAlign (skew : W16)
  | segWake (sig : SegSignal)
  -- chapter 04
  | openConn (rx : Rx) (nonce : W32) (openkey : W32) (d : Dom) (events pin : Bool) (credits : Byte) (rseq0 : W16)
  | close (rq : Req)
  | conKill (w : Dom) (v : W64)
  | regionWrite (rq : Req) (key : W32) (offset : BitVec 23) (data : List Byte)
  | regionRead (rq : Req) (key : W32) (offset : BitVec 23) (len : W32)
  | regWrite (rq : Req) (addr : BitVec 20) (v : W64)
  | regRead (rq : Req) (addr : BitVec 20) (countM1 : BitVec 5)
  | doorbell (rq : Req) (ring : BitVec 6) (tail : W16)
  | doorbellRegister (w : Dom) (ring : BitVec 6) (v : W64)
  | send (rq : Req) (target : BitVec 10) (data : List Byte)
  | post (rq : Req) (entries : List W64)
  | eventDropped (conn : BitVec 10)
  -- chapter 05
  | windowWrite (w : Dom) (d : Dom) (v : W64)
  | latencyBudget (w : Dom) (d : Dom) (v : W64)
  | regionRegister (w : Dom) (d : Dom) (v : W64)
  | regionDeregister (w : Dom) (d : Dom) (v : W64)
  | regionFreed (index : Byte)
  | extentInstall (w : Dom) (v : W64)
  | extentRemove (w : Dom) (v : W64)
  | extentReadBack (w : Dom) (v : W64)
  | extentOpInvalid (w : Dom) (v : W64)
  -- chapter 06
  | sqClaim (w : Dom) (v : W64)
  | sqRelease (w : Dom) (v : W64)
  | cqClaim (w : Dom) (v : W64)
  | cqRelease (w : Dom) (v : W64)
  | sqEnable (w : Dom) (ring : BitVec 6) (v : W64)
  | sqDisable (w : Dom) (ring : BitVec 6) (v : W64)
  | cqEnable (w : Dom) (ring : BitVec 6) (v : W64)
  | cqDisable (w : Dom) (ring : BitVec 6) (v : W64)
  | sqPointerWrite (w : Dom) (ring : BitVec 6) (v : W64)
  | cqPoke (w : Dom) (ring : BitVec 6) (v : W64)
  | entryFetch (ring : BitVec 6)
  | nop (e : EntryRef)
  | waitCount (e : EntryRef)
  | waitTimeout (e : EntryRef)
  | entryExpiry (e : EntryRef)
  -- chapter 07
  | read (e : EntryRef)
  | checkRead (e : EntryRef)
  | program (e : EntryRef)
  | mirrorProgram (e : EntryRef) (leg : Bool)
  | copy (e : EntryRef)
  | erase (e : EntryRef)
  | paramRead (e : EntryRef) (page : List Byte) (crcOk : Bool)
  | getFeatures (e : EntryRef) (p : W32)
  | setFeatures (e : EntryRef)
  | targetReset (e : EntryRef)
  | suspendPolicy (e : EntryRef)
  | abacusExport (e : EntryRef)
  | abacusImport (e : EntryRef)
  | jobDispatch (ch : BitVec 3) (job : BitVec 4) (lun : BitVec 5) (latch : List Byte) (bus : List BusSample) (lockstepOk : Bool)
  | watchdog (ch : BitVec 3)
  | pollDue (ch : BitVec 3) (lun : BitVec 5)
  | rbRise (ch : BitVec 3) (group : Bool) (status : Byte)
  | rbStuck (ch : BitVec 3) (group : Bool)
  | suspendFailed (ch : BitVec 3) (lun : BitVec 5)
  | lunTimeout (ch : BitVec 3) (lun : BitVec 5)
  | schedulingWindow
  | reservationWrite (w : Dom) (d : Dom) (v : W64)
  | sectorDecoded (e : EntryRef) (leg : Bool) (plane : BitVec 2) (sector : BitVec 4) (soft : Bool) (r : DecodeResult)
  | completion (e : EntryRef)
  -- chapter 08
  | channelDiscovery (ch : BitVec 3) (vccqMv : Nat) (targets : List TargetReport)
  | discoveryRbTimeout (ch : BitVec 3) (vccqMv : Nat) (targets : List TargetReport) (ready : Byte)
  | rateChange (ch : BitVec 3)
  -- chapter 09
  | keyLoad (w : Dom) (d : Dom) (v : W64)
  | keyZero (w : Dom) (d : Dom) (v : W64)
  | slotAssign (w : Dom) (k : BitVec 5) (v : W64)
  -- chapter 10
  | containerCheck (personality : Bool) (src : BitVec 2) (secondary : Bool) (bytes : Option (List Byte)) (faults : List CopyFault)
  | pairOutcome
  | fuseKeyHash (w : Dom) (v : W64)
  | fuseImageKey (w : Dom) (v : W64)
  | fuseFleetKey (w : Dom) (v : W64)
  | fuseRevoke (w : Dom) (v : W64)
  | fuseCounterAdvance (w : Dom) (v : W64)
  | fuseEncreq (w : Dom) (v : W64)
  | fuseInvalid (w : Dom) (v : W64)
  | fuseProgrammed (readBackOk : Bool)
  -- chapter 11
  | moverAssign (w : Dom) (v : W64)
  | moverFree (w : Dom) (v : W64)
  | moverGo (w : Dom) (n : BitVec 4) (v : W64)
  | moverStop (w : Dom) (n : BitVec 4) (v : W64)
  | moverClear (w : Dom) (n : BitVec 4) (v : W64)
  | moverPoke (w : Dom) (n : BitVec 4) (v : W64)
  | move (n : BitVec 4)
  | fill (n : BitVec 4)
  | crc (n : BitVec 4)
  | wait (n : BitVec 4)
  | moverWake (n : BitVec 4)
  | loop (n : BitVec 4)
  | signal (n : BitVec 4)
  | link (n : BitVec 4)
  | endProgram (n : BitVec 4)
  | registerSetEnd (n : BitVec 4)
  | burstGrant (writePort : Bool) (ready : BitVec 17)
  -- chapter 12
  | pageRetire (w : Dom) (v : W64)
  | scrubClear (w : Dom) (d : Dom) (v : W64)
  -- chapter 13
  | freeze (w : Dom) (v : W64)
  | thaw (w : Dom) (v : W64)
  | freezeExpiry
  | recorderExport (w : Dom) (v : W64)
  | recFlush (w : Dom) (v : W64)
  | inventory (slots16 : Bool) (afi : Option Byte) (mask : List Bool)
  | stayQuiet (uid : W64)
  | readSingleBlock (addr : TagAddr) (ext opt : Bool) (block : W16)
  | readMultipleBlocks (addr : TagAddr) (ext opt : Bool) (first : W16) (countM1 : Byte)
  | writeSingleBlock (addr : TagAddr) (ext : Bool) (block : W16) (data : W32)
  | select (uid : W64)
  | resetToReady (addr : TagAddr)
  | getSystemInformation (addr : TagAddr) (ext : Bool)
  | unlock (addr : TagAddr) (password : W32)
  | tileVersion (addr : TagAddr) (first : Byte) (countM1 : Byte)
  | tagUnsupportedCommand (addr : TagAddr) (malformed : Bool)
  | tagFieldOn
  | tagFieldLost
  | commit (w : Dom) (v : W64)
  | load (w : Dom) (v : W64)
  | setFieldread (w : Dom) (v : W64)
  | tileFlip (tile : BitVec 6)
  | mirror (w : Dom) (v : W64)
  | health (w : Dom) (v : W64)
  | ident (w : Dom) (v : W64)
  | pwreset (w : Dom) (v : W64)
  | passwordWrite (w : Dom) (v : W64)
  -- chapter 14
  | powerState
  | deepHoldArm (w : Dom) (v : W64)
  | deepHoldDisarm (w : Dom) (v : W64)
  | deepHoldEnter
  | deepHoldWake (src : BitVec 4)
  | temperatureConversion (readings : List W16)
  | supplyDip (rail : BitVec 4) (mv : W16) (us : Nat)
  | supplyWarnEnd
  | finishWindowEnd
  | harmlessExit
  -- chapter 15
  | powerOnReset
  | powerUp (bootsel : BitVec 2) (process : Byte) (vddioMv : Nat)
  | resetNLow (ns : Nat)
  | pgoodLow (ns : Nat)
  | systemResetRequest (w : Dom) (v : W64)
  | systemReset (bootsel : BitVec 2) (process : Byte)
  | flashReset (w : Dom) (v : W64)
  | reload (w : Dom) (v : W64)
  | flashResetDone
  | bootReady
  -- chapter 16
  | lock (w : Dom) (block : Byte) (v : W64)
  | snapshotLatch (w : Dom) (addr : BitVec 20)
  | snapshotRelease (w : Dom) (block : Byte) (v : W64)
  | errClear (w : Dom) (block : Byte) (v : W64)
  | eventStatusClear (w : Dom) (block : Byte) (v : W64) (recurring : W16)
  | registerWrite (w : Dom) (addr : BitVec 20) (v : W64)
  | forwardedClockLock
  | systemResetRelease (bootsel : BitVec 2) (process : Byte)
  | brownoutRecovery
deriving DecidableEq, Repr

end Sys2Proof
end

