-- ==== Sys2Proof/WellFormed.lean ====
section
/-! DEFINITION. Which operands a command of the manual can carry: the field ranges of R109, R112, R113, R124 and R544, and the
sizes of what the surroundings show. `exec` gives every operand a meaning; this says which ones a sender can form. -/

namespace Sys2Proof

/-- Air time of a packet on A and B: 31 to 287 characters of 16 units (R69, R109); segment C has none. -/
def Rx.wf (x : Rx) : Bool := decide (x.seg = .c) || (decide (31 * 16 ≤ x.air) && decide (x.air ≤ 287 * 16))

/-- Bits [2:0] of a register address are zero (R113, R544). -/
def addrWf (a : BitVec 20) : Bool := decide (a.toNat % 8 = 0)

def lenWf (n : Nat) : Bool := decide (1 ≤ n) && decide (n ≤ 256)

/-- Bits [63:55] of a posted buffer are reserved (R131, R139). -/
def postWf (e : W64) : Bool := decide (e.toNat < 2 ^ 55)

def DecodeResult.wf (r : DecodeResult) : Bool := decide (r.data.length = 4096) && decide (r.md.length = 64)

/-- A block number of more than 8 bits needs the extended request form (R460). -/
def blockWf (ext : Bool) (b : W16) : Bool := ext || decide (b.toNat < 256)

/-- The checks on one command. -/
def Instr.wf : Instr → Bool
  | .tick rx _ _ _ => rx.wf
  | .join rx _ _ => rx.wf
  | .range rx _ _ => rx.wf
  | .ack rx => rx.wf
  | .packetRejected rx l => rx.wf && decide (16 ≤ l.length) && decide (l.length ≤ 272)
  | .erroredReception rx e crcBad => rx.wf && (e.code || e.disparity || e.lock || e.abort || crcBad)
  | .openConn rx _ _ _ _ _ credits _ => rx.wf && decide (1 ≤ credits.toNat) && decide (credits.toNat ≤ 64)
  | .close rq => rq.rx.wf
  | .regionWrite rq _ _ data => rq.rx.wf && lenWf data.length
  | .regionRead rq _ _ len => rq.rx.wf && lenWf len.toNat
  | .regWrite rq addr _ => rq.rx.wf && addrWf addr
  | .regRead rq addr _ => rq.rx.wf && addrWf addr
  | .doorbell rq _ _ => rq.rx.wf
  | .send rq _ data => rq.rx.wf && lenWf data.length
  | .post rq es => rq.rx.wf && decide (1 ≤ es.length) && decide (es.length ≤ 8) && es.all postWf
  | .paramRead _ page _ => decide (page.length ≤ 4096)
  | .sectorDecoded _ _ _ _ _ r => r.wf
  | .channelDiscovery _ _ ts => decide (ts.length ≤ 8)
  | .discoveryRbTimeout _ _ ts _ => decide (ts.length ≤ 8)
  | .inventory _ _ mask => decide (mask.length ≤ 64)
  | .readSingleBlock _ ext _ b => blockWf ext b
  | .readMultipleBlocks _ ext _ b _ => blockWf ext b
  | .writeSingleBlock _ ext b _ => blockWf ext b
  | .temperatureConversion l => decide (l.length = 9)
  | .snapshotLatch _ addr => addrWf addr
  | .registerWrite _ addr _ => addrWf addr
  | .forwardedClockLost | .acquisitionWindowEnd | .faultyExpiry _ | .sourceQualified _ | .frameBoundary _
  | .timekeeperSwitch | .timekeeperRevert | .force _ _ | .forceSwitch | .sourceListWrite _ _ _ | .sourceDemotion
  | .holdoverExpired | .drainTimeout | .wallSet _ _ | .upSlotEnd _ _ | .downSlot _ _
  | .retransmitTimerC | .muteEnd _ _ | .linkLost _ | .mapAnnounce _ _ _ | .mapActive _ | .evict _ _ _
  | .nodeRemoved _ | .laneAlignLost _ | .laneAlign _ | .segWake _ | .conKill _ _ | .doorbellRegister _ _ _
  | .eventDropped _ | .windowWrite _ _ _ | .latencyBudget _ _ _ | .regionRegister _ _ _ | .regionDeregister _ _ _
  | .regionFreed _ | .extentInstall _ _ | .extentRemove _ _ | .extentReadBack _ _ | .extentOpInvalid _ _
  | .sqClaim _ _ | .sqRelease _ _ | .cqClaim _ _ | .cqRelease _ _ | .sqEnable _ _ _ | .sqDisable _ _ _
  | .cqEnable _ _ _ | .cqDisable _ _ _ | .sqPointerWrite _ _ _ | .cqPoke _ _ _ | .entryFetch _ | .nop _
  | .waitCount _ | .waitTimeout _ | .entryExpiry _ | .read _ | .checkRead _ | .program _ | .mirrorProgram _ _
  | .copy _ | .erase _ | .getFeatures _ _ | .setFeatures _ | .targetReset _ | .suspendPolicy _ | .abacusExport _
  | .abacusImport _ | .jobDispatch _ _ _ _ _ _ | .watchdog _ | .pollDue _ _ | .rbRise _ _ _ | .rbStuck _ _
  | .suspendFailed _ _ | .lunTimeout _ _ | .schedulingWindow | .reservationWrite _ _ _ | .completion _
  | .rateChange _ | .keyLoad _ _ _ | .keyZero _ _ _ | .slotAssign _ _ _ | .containerCheck _ _ _ _ _ | .pairOutcome
  | .fuseKeyHash _ _ | .fuseImageKey _ _ | .fuseFleetKey _ _ | .fuseRevoke _ _ | .fuseCounterAdvance _ _
  | .fuseEncreq _ _ | .fuseInvalid _ _ | .fuseProgrammed _ | .moverAssign _ _ | .moverFree _ _ | .moverGo _ _ _
  | .moverStop _ _ _ | .moverClear _ _ _ | .moverPoke _ _ _ | .move _ | .fill _ | .crc _ | .wait _ | .moverWake _
  | .loop _ | .signal _ | .link _ | .endProgram _ | .registerSetEnd _ | .burstGrant _ _ | .pageRetire _ _
  | .scrubClear _ _ _ | .freeze _ _ | .thaw _ _ | .freezeExpiry | .recorderExport _ _ | .recFlush _ _ | .stayQuiet _
  | .select _ | .resetToReady _ | .getSystemInformation _ _ | .unlock _ _ | .tileVersion _ _ _
  | .tagUnsupportedCommand _ _ | .tagFieldOn | .tagFieldLost | .commit _ _ | .load _ _ | .setFieldread _ _
  | .tileFlip _ | .mirror _ _ | .health _ _ | .ident _ _ | .pwreset _ _ | .passwordWrite _ _ | .powerState
  | .deepHoldArm _ _ | .deepHoldDisarm _ _ | .deepHoldEnter | .deepHoldWake _ | .supplyDip _ _ _ | .supplyWarnEnd
  | .finishWindowEnd | .harmlessExit | .powerOnReset | .powerUp _ _ _ | .resetNLow _ | .pgoodLow _
  | .systemResetRequest _ _ | .systemReset _ _ | .flashReset _ _ | .reload _ _ | .flashResetDone | .bootReady
  | .lock _ _ _ | .snapshotRelease _ _ _ | .errClear _ _ _ | .eventStatusClear _ _ _ _ | .forwardedClockLock
  | .systemResetRelease _ _ | .brownoutRecovery => true

end Sys2Proof
end

