-- ==== Sys2Proof/Config.lean ====
section
/-! DEFINITION. What the manual fixes for this stepping, and the values it leaves open: each open value is an opaque
constant, so that a claim holds whatever it is. -/

namespace Sys2Proof.Config

/-- Stepping 2, the only stepping of the ordering codes (chapter 17). DEDUCED. -/
def stepping : BitVec 4 := 2
/-- Boot ROM revision: a silicon value (GLB.IDENT). Free. -/
opaque romRev : W16
/-- The UID of R461 without its leading 0xE0: manufacturer code and serial number, fixed at manufacture. Free. -/
opaque uidLow : BitVec 56
/-- The manufacturer code is part of the UID (R461). -/
def uid : W64 := (0xE0 : Byte) ++ uidLow
/-- Tirier's JEP106 code in IDCODE, as the BSDL file gives it (R590): the manual does not give it. Free. -/
opaque jep106 : BitVec 11
/-- IDCODE of the test access port: stepping, 0x0872, the JEP106 code and 1 (R590). -/
def idcode : W32 := stepping ++ 0x0872#16 ++ jep106 ++ 1#1

/-- Contents of a buffer byte nothing has written since the n-th loss of buffer memory (R434). Free. -/
opaque powerUpByte : Nat → Nat → Byte
/-- Whether such a byte fails its parity (R434, R436). Free. -/
opaque powerUpParityBad : Nat → Nat → Bool
/-- Whether a reset that ends a fuse command early finds data fuses blown (R376). Free. -/
opaque fuseBlown : Nat → Bool
/-- Source of region tags (R165). Free. -/
opaque freeTag : Nat → BitVec 24
/-- Byte by byte, the parity of the LDPC code of a rate index over 4160 bytes: the manual gives its length and no code (R318).
Free. -/
opaque ldpcParity : Nat → List Byte → Nat → Byte
/-- The status bit that tells whether a page of a cache program failed, as the personality names it (R292): the profile of
R361 shows no field for it. Free. -/
opaque cacheFailBit : List Byte → Nat
/-- What the check of R278 finds on the n-th reset target (R295): 0 passes, another value is the first failed item. Free: the
target answers. -/
opaque resetCheck : Nat → Nat
/-- The boot ROM's own microcode (R381): its micro and nano words, its entry points and its cycle table. The manual gives
none of them. Free. -/
opaque romMicro : Nat → W64
opaque romNano : Nat → W64
opaque romEntry : Nat → Nat
opaque romCycles : Nat → Nat
/-- The epoch field of a NO_CONN response, which names no domain (R133, R141). Free. -/
opaque noConnEpoch : Nat → W16
/-- Nominal array times under the ROM baseline: no personality gives them (R255, R381). Free. -/
opaque baseNominal : Nat → Nat
/-- The step a soft offset names past the ends of the step table (R323, R362). Free. -/
opaque softStep : Nat → Nat → Nat
/-- The LLR table of a channel and TYPE before any personality gives one (R325). Free. -/
opaque bootLlr : Nat → W64

/-- The host part of a sector's metadata when an entry names no metadata area (R228, R230), by PFA and byte. Free. -/
opaque absentMeta : W64 → Nat → Byte

/-- The timing-mode feature the ROM baseline writes at discovery, for ONFI (false) and JESD230 (true): its address and
P1-P4 (R381). Free. -/
opaque baseTiming : Bool → Byte × W32
/-- CRC-32C of the boot ROM's micro and nano words (SEQn.STORECRC). Free. -/
opaque romStoreCrc : W64

/-- CLK.SRCSTn.OFFSET and CLK.LOOP for an offset that does not fit their 16 bits (chapter 02, registers). Free. -/
opaque offsetOut : Int → W16
/-- FUS.HASHk_w of a partial slot: the manual says what a programmed and a blank slot show (chapter 10, registers). Free. -/
opaque partialHash : Nat → W64

/-- The error code of the answer to a wrong password that leaves attempts: R464 names none for it. Free. -/
opaque wrongPassword : Nat → Byte

end Sys2Proof.Config
end

