-- ==== Sys2Proof/Machine/State.lean ====
section
/-! DEFINITION. The state of the MB872 as plain data, the reasons a step can stop, and the state after reset. Numbered
things are sparse tables (`Tbl`): what a table does not list stands at its reset value. -/

namespace Sys2Proof.Machine

/-- Frame time (R13). -/
structure Time where
  frame : W32
  slot  : BitVec 6
  sub   : BitVec 26
deriving DecidableEq, Repr

/-- What the core is doing: power-on reset asserted (R516), acquisition from release to first lock (R518), frame time
running or stopped after a drain, a system reset held by a pin (R536), Deep Hold (R493). -/
inductive Phase
  | porHeld | acquiring | running | resetHeld | deepHold
deriving DecidableEq, Repr

/-- The common header's writable part (R548-R562). -/
structure Hdr where
  evs : W16 := 0
  eve : W16 := 0
  evr : W16 := 1
  rdm : W16 := 0xFFFF
  errCode  : BitVec 12 := 0
  errValid : Bool := false
  errSeq   : W32 := 0
  lock   : Bool := false
  denied : W16 := 0
  scr : W64 := 0
deriving DecidableEq, Repr

/-- One domain's latch of one snapshot group (R560). -/
structure Latch where
  block  : Nat
  group  : Nat
  dom    : Dom
  values : List W64
deriving DecidableEq, Repr

/-! ### Clock (chapter 02) -/

inductive SrcState
  | absent | heard | qualified | timekeeper | faulty
deriving DecidableEq, Repr

/-- The measurement of one tick source (R37, R38, R41, R44); offsets in units of 0.01 ppm. -/
structure Src where
  state   : SrcState := .absent
  /-- consecutive frames with a usable tick (GOOD) -/
  good    : Nat := 0
  /-- consecutive such frames within QUAL (R41) -/
  run     : Nat := 0
  offset  : Int := 0
  /-- the last comparisons, at most four, against nominal (R48) -/
  comps   : List Int := []
  lastSeq : Option Byte := none
  /-- a usable tick, a tick at all, in the current frame -/
  usable  : Bool := false
  heard   : Bool := false
  silent  : Nat := 0
  /-- FAULTY frames left (R38) -/
  faulty  : Nat := 0
  /-- frames it has stayed QUALIFIED (R51) -/
  qualFor : Nat := 0
deriving DecidableEq, Repr

/-- Who is timekeeper: the list entry and the node. -/
structure Keeper where
  entry : BitVec 2
  node  : BitVec 6
deriving DecidableEq, Repr

structure Clk where
  locked   : Bool := false
  holdover : Bool := false
  drain    : Bool := false
  noTime   : Bool := true
  gap      : Bool := false
  holdcnt  : Nat := 0
  tk       : Option Keeper := none
  srcs     : Tbl Src := []
  /-- CKI toggles; it has been phase-locked for 100 µs (R40, R48) -/
  cki      : Bool := false
  ckiLocked : Bool := false
  /-- the PLL has followed a source since the core started (R48) -/
  steered  : Bool := false
  /-- the acquisition window of R47 is open -/
  window   : Bool := false
  chosen   : Option Keeper := none
  /-- the source an accepted FORCE named (R52) -/
  forceReq : Option Keeper := none
  missed   : Nat := 0
  listDirty : Bool := false
  /-- PLL control, and its values in the last 8 frames with a usable tick, 0.01 ppm (R53, R56) -/
  pll      : Int := 0
  history  : List Int := []
  wall     : Option (W32 × W64) := none
  gapFrame : Bool := false
  /-- a Deep Hold exit awaits its record at first lock (R519) -/
  dhExit   : Bool := false
  /-- core cycles at H, and the last frame counted before it (R59, R60) -/
  drainAt  : Nat := 0
  drainFrame : W32 := 0
  /-- the drain was entered and frame counting has stopped (R60) -/
  stopped  : Bool := false
  /-- the timekeeper has changed at the present boundary (R55) -/
  switched : Bool := false
deriving DecidableEq, Repr

/-! ### Segments (chapter 03) -/

inductive NodeState
  | absent | joined | muted | mustRange
deriving DecidableEq, Repr

structure NodeSt where
  state   : NodeState := .absent
  /-- in the joined table (R94) -/
  joined  : Bool := false
  /-- RERANGE is set although the mute still runs (R104) -/
  rerange : Bool := false
  nonce   : W32 := 0
  hitrun  : Nat := 0
  muteLeft : Nat := 0
  advance : W16 := 0
  near    : W16 := 0
  hits    : W16 := 0
  /-- frame boundaries counted when its last good packet came (R94) -/
  lastGood : Nat := 0
  rangedEarly : Bool := false
deriving DecidableEq, Repr

structure PendMap where
  map    : List Byte
  ver    : Byte
  strait : BitVec 4
  act    : W32
deriving DecidableEq, Repr

structure Answer where
  kind  : BitVec 4
  value : W16
deriving DecidableEq, Repr

/-- A hit packet whose trailing edge ran into the next slot (R99). -/
structure PendHit where
  slot   : BitVec 6
  node   : BitVec 6
  edge   : W16
  frame  : W32
  victim : Option (BitVec 6)
deriving DecidableEq, Repr

/-- A packet the part itself sends on A or B: its slot, its leading edge from the slot start and its length, in units of
2.5 ns (R66, R68, R79). -/
structure TxSpan where
  slot  : BitVec 6
  start : Nat
  len   : Nat
deriving DecidableEq, Repr

/-- Segment A or B. -/
structure SegAB where
  map    : List Byte
  pend   : Option PendMap := none
  ver    : Byte := 0
  strait : BitVec 4 := 3
  reason : BitVec 3 := 0
  nodes  : Tbl NodeSt := []
  answers : Tbl Answer := []
  advise : Tbl W16 := []
  /-- indices an EVICT named, and those whose frame boundary has passed (R96) -/
  evicts : List (BitVec 4) := []
  evictDue : List (BitVec 4) := []
  crcErr   : W16 := 0
  codeErr  : W16 := 0
  cdr      : W16 := 0
  foreign  : W16 := 0
  edge   : W64 := 0
  /-- the slot whose first packet has come (R78) -/
  taken  : Option (BitVec 6) := none
  /-- the slots of the frame's errored receptions, in order (R105) -/
  errSlots : List (BitVec 6) := []
  pendHits : List PendHit := []
  /-- SIG above the carrier threshold for 20 ns (R67) -/
  carrier : Bool := false
  /-- what the part sends in the present slot (R66) -/
  tx      : Option TxSpan := none
deriving DecidableEq, Repr

structure HostC where
  index : BitVec 4
  nonce : W32
  lastGood : Nat
deriving DecidableEq, Repr

structure SegCSt where
  aligned : BitVec 4 := 0
  skew    : W16 := 0
  host    : Option HostC := none
  answers : Tbl Answer := []
  crcErr  : W16 := 0
  codeErr : W16 := 0
  losses  : W16 := 0
deriving DecidableEq, Repr

/-! ### Link and transport (chapter 04) -/

/-- A RESP record without its position (R141). -/
structure RespRec where
  rseq  : W16
  type  : Byte
  rst   : BitVec 4
  param : W16
  epoch : W16
deriving DecidableEq, Repr

structure EventRec where
  evseq  : W16
  kind   : Byte
  source : Byte
  code   : BitVec 12
  time   : W64
  p0     : W32
  p1     : W32
  /-- frame boundaries counted when the copy was made (R154) -/
  made   : Nat
  /-- its record in the connection's event queue, 0-31 (R128) -/
  pos    : Nat := 0
deriving DecidableEq, Repr

/-- An answer to a host, waiting or sent. -/
inductive Reply
  | openReply (nonce : W32) (result : Byte) (pinned : Bool) (conn : BitVec 10) (credits : Byte) (evseq epoch : W16)
  | resp (conn : BitVec 10) (r : RespRec)
  | rdata (conn : BitVec 10) (rseq : W16) (rst : BitVec 4) (epoch : W16) (data : List Byte)
deriving DecidableEq, Repr

/-- A queued reply: whether it is a replay and the credits its sending returns (R134). -/
structure Queued where
  reply  : Reply
  replay : Bool
  credit : Nat
deriving DecidableEq, Repr

/-- What a sequenced packet of the MB872 carries (R112, R123). -/
inductive TxBody
  | openReply (r : Reply)
  | resp (conn : BitVec 10) (replay : Bool) (rs : List RespRec)
  | rdata (replay : Bool) (r : Reply)
  | events (conn : BitVec 10) (es : List EventRec)
  /-- an EVENT packet whose connection has closed since it was sent (R132) -/
  | closedEvents (conn : BitVec 10) (es : List EventRec)
deriving DecidableEq, Repr

structure TxPkt where
  lseq : Byte
  body : TxBody
  /-- core cycles when it was last sent (R120) -/
  sent : Nat := 0
deriving DecidableEq, Repr

structure LinkSt where
  lost   : Bool := false
  txNext : Byte := 0
  txAck  : Byte := 0
  rxExp  : Byte := 0
  unacked : List TxPkt := []
  queue  : List Queued := []
  /-- unacknowledged packets still to be sent again in this round (R119) -/
  resend : List TxPkt := []
  retx   : W16 := 0
  /-- a sequenced packet has been accepted on this link since it (re)started: LACK is valid -/
  rxAny  : Bool := false
  /-- a sequenced packet has come since the last packet sent (R117) -/
  owed   : Bool := false
  /-- a packet was accepted in the current UP slot or frame (R119, R121) -/
  gotUp  : Bool := false
  heard  : Bool := false
  silent : Nat := 0
deriving DecidableEq, Repr

structure Conn where
  d      : Dom
  events : Bool
  pinned : Bool
  node   : BitVec 6
  grant  : Nat
  used   : Nat
  nonce  : W32
  posted : List W64 := []
  exp    : W16
  evseq  : W16 := 0
  openFrame : W32
  /-- the event queue record the next copy takes, when free (R128) -/
  evNext : Nat := 0
  replay : List (W16 × Reply) := []
  held   : List EventRec := []
  /-- the charged run: start and length in bytes (R128, R163) -/
  base   : Nat
  len    : Nat
deriving DecidableEq, Repr

/-! ### Regions and extents (chapter 05) -/

structure Region where
  d     : Dom
  dying : Bool := false
  tag   : BitVec 24
  rd    : Bool
  wr    : Bool
  wide  : Bool
  base  : Nat
  len   : Nat
deriving DecidableEq, Repr

structure Extent where
  valid : Bool := true
  d  : Dom
  rd : Bool
  pg : Bool
  er : Bool
  ad : Bool
  ch : BitVec 3
  tgts : Byte
  luns : BitVec 4
  plns : BitVec 4
  first : W16
  last  : W16
deriving DecidableEq, Repr

/-! ### Rings (chapter 06) -/

/-- A pending WAIT_COUNT: its entry's count, the ring it watches and VALUE (R215, R216). -/
structure Wait where
  count : W16
  ring  : BitVec 6
  value : W32
deriving DecidableEq, Repr

/-- One batch not yet completed (R212, R213). -/
structure Batch where
  id      : Nat
  members : Nat := 0
  folded  : Nat := 0
  failed  : Nat := 0
  closed  : Bool := false
  incomplete : Bool := false
  cid     : W16 := 0
  evt     : Bool := false
  best    : Byte := 0
  learning : Bool := false
deriving DecidableEq, Repr

structure Sq where
  owner : Dom
  head  : W16 := 0
  tail  : W16 := 0
  /-- RING_IDLE has been recorded since the last disable (R223) -/
  idleTold : Bool := true
  done  : W32 := 0
  dbovr : W16 := 0
  wait  : Option Wait := none
  /-- doorbell receipts: the tail each set and its instant (R143, R197) -/
  receipts : List (W16 × Nat) := []
  /-- the counts committed and not yet fetched for which the conditions of R263 held at their doorbell -/
  sureCounts : List W16 := []
  batches  : List Batch := []
  nextBatch : Nat := 0
deriving DecidableEq, Repr

/-- A completion ready to be written (R205), without SQHEAD, EPOCH and TIME, which are taken at the write. -/
structure Compl where
  ref     : Option EntryRef
  sq      : BitVec 6
  batch   : Bool
  learning : Bool
  incomplete : Bool
  status  : Byte
  cid     : W16
  evt     : Bool
  count   : W16
  failed  : W16
  result  : W32
  timed   : Bool
deriving DecidableEq, Repr

structure Cq where
  owner : Dom
  tail  : W16 := 0
  full  : Bool := false
  held  : List Compl := []
deriving DecidableEq, Repr

/-! ### Entries in flight and reads (chapters 06, 07, 09) -/

inductive EntryPhase
  | fetched | running | ended | held
deriving DecidableEq, Repr

inductive SecState
  | pending | good | failed
deriving DecidableEq, Repr

/-- One sector of a plane's read: its state and the unsatisfied checks of its failed hard decodes, by step (R323). -/
structure SecRd where
  sector : Nat
  state  : SecState := .pending
  erased : Bool := false
  unsats : List (Nat × Nat) := []
  /-- its soft decode has been made -/
  softDone : Bool := false
deriving DecidableEq, Repr

/-- The escalation of one plane of a read, or the one sense of a verify (R323, R338). -/
structure PlaneRd where
  plane   : Nat
  /-- steps still to be sensed before the failed sectors are decoded -/
  todo    : List Nat
  /-- a sense is in progress; the sense has ended and its sectors are being decoded -/
  sensing : Bool := false
  ready   : Bool := false
  /-- steps of the hard senses made, in order -/
  tried   : List Nat := []
  soft    : Bool := false
  centre  : Nat := 0
  sectors : List SecRd
  band    : Nat := 0
  /-- the own bead as it was when the read began -/
  bead    : Byte := 0
  fromBead : Bool := false
  /-- step of the sense after which the last sector decoded -/
  lastStep : Nat := 0
  retried : Bool := false
  decided : Bool := false
deriving DecidableEq, Repr

/-- One program, erase or admin operation of an entry: its LUN and how it ended (R237, R251). -/
structure Leg where
  lun     : Nat
  started : Bool := false
  status  : Option Byte := none
  vfail   : Bool := false
  /-- outside the extents: does nothing and counts OK (R177) -/
  skipped : Bool := false
  verify  : List PlaneRd := []
deriving DecidableEq, Repr

structure Entry where
  ref     : EntryRef
  d       : Dom
  cls     : Nat
  words   : List W64
  /-- doorbell receipt, in core cycles; frame boundaries counted at the fetch -/
  receipt : Nat
  fetchedAt : Nat
  /-- CID as fetched, 0xFFFF when its bytes failed parity (R194) -/
  cid     : W16
  /-- its batch, 0 for a batch of one -/
  batch   : Nat
  phase   : EntryPhase := .fetched
  status  : Byte := 0
  result  : W32 := 0
  legs    : List Leg := []
  planes  : List PlaneRd := []
  /-- the slot key as it was at the fetch, and its generation (R309) -/
  key     : List Byte := []
  keyGen  : Nat := 0
  /-- the domain's extents as they were at the fetch, for an abacus transfer (R176, R245) -/
  extents : List Extent := []
  learning : Bool := false
  suspender : Bool := false
  suspended : Bool := false
  guaranteed : Bool := false
  /-- an array operation has started (R247) -/
  begun   : Bool := false
  senses  : Nat := 0
  softUsed : Bool := false
  beadUsed : Bool := false
  corrected : Nat := 0
  failmask : W16 := 0
  expiresAt : Option Nat := none
  /-- a page of its cache sequence failed: it runs as an ordinary program (R292) -/
  ordinary : Bool := false
  /-- its entry-store slot fails parity (R202, R506) -/
  storeBad : Bool := false
deriving DecidableEq, Repr

/-! ### Channels and sequencers (chapters 08, 10) -/

inductive LunState
  | absent | idle | busy | suspending | suspended | resetting | cacheSeq
deriving DecidableEq, Repr

inductive LunOp
  | none | read | program | erase | admin | reset
deriving DecidableEq, Repr

/-- Whose array operation it is: entry, leg, plane and TYPE; a verify sense of the leg or not. -/
structure OpRef where
  ref   : EntryRef
  leg   : Nat := 0
  plane : Nat := 0
  type  : Nat := 0
  verify : Bool := false
deriving DecidableEq, Repr

/-- An array operation: suspends so far and µs busy in earlier spells. -/
structure ArrayOp where
  kind   : LunOp
  owner  : Option OpRef
  suscnt : Nat := 0
  busy   : Nat := 0
deriving DecidableEq, Repr

structure LunSt where
  state  : LunState := .absent
  cur    : Option ArrayOp := none
  /-- the operation suspended while urgent work runs -/
  under  : Option ArrayOp := none
  lastsr : Byte := 0
  /-- core cycles when the present busy spell and the present suspend began -/
  since  : Nat := 0
  susAt  : Nat := 0
  badRun : Nat := 0
  /-- the read-retry step set, and the TYPE whose table gave it (R321) -/
  step   : Nat := 0
  stepType : Nat := 0
  urgentRun : Nat := 0
  /-- a status poll waits for the sector boundary; core cycles when the next poll falls due (R282) -/
  pollNow : Bool := false
  pollAt : Nat := 0
  /-- an open cache sequence: the entry of its last page so far (R290) -/
  seq    : Option (EntryRef × List W64) := none
  suspendFailed : Bool := false
deriving DecidableEq, Repr

/-- Geometry of R227, LUNs apart. -/
structure Geometry where
  planes  : Nat := 0
  blocks  : Nat := 0
  pages   : Nat := 0
  sectors : Nat := 0
deriving DecidableEq, Repr

/-- The sector on a channel's bus: of an entry's read, or of a leg's verify (R253). -/
structure Xfer where
  ref    : EntryRef
  leg    : Nat := 0
  verify : Bool := false
  plane  : Nat
  sector : Nat
deriving DecidableEq, Repr

/-- The level of a pin: driven, or released with weak hold. -/
inductive Level
  | low | high | released
deriving DecidableEq, Repr

/-- The pins of a channel (R296); `dq` is the byte driven on DQ. -/
structure ChPins where
  ce   : Byte
  wp   : Level
  we   : Level
  ale  : Level
  cle  : Level
  reT  : Level
  reC  : Level
  dqsT : Level
  dqsC : Level
  dq   : Option Byte
deriving DecidableEq, Repr

structure Fch where
  up       : Bool := false
  harmless : Bool := true
  baseline : Bool := true
  iface    : BitVec 2 := 0
  jesd     : Bool := false
  vccq18   : Bool := false
  vccqBad  : Bool := false
  /-- the reading of the pair's supply in this discovery, in mV (R269) -/
  vccqMv   : Nat := 0
  rbFallback : Bool := false
  rate     : Byte := 0
  nextRate : Option Byte := none
  xfer     : Option Xfer := none
  /-- core cycles when the sector on the bus was put there (R319) -/
  xferAt   : Nat := 0
  maxRate  : Byte := 0
  diff     : Bool := false
  drive    : BitVec 3 := 0
  odt      : BitVec 4 := 0
  zqDone   : Bool := false
  found    : Byte := 0
  lunm1    : W16 := 0
  mismatch : Byte := 0
  indep    : Byte := 0
  timing   : W32 := 0
  trim     : W64 := 0
  geo      : Geometry := {}
  luns     : Tbl LunSt := []
  polls    : W16 := 0
  rbWaits  : W16 := 0
  suspends : W16 := 0
  cacheSeqs : W16 := 0
  /-- the channel has ended discovery since the last reset or reload (R523) -/
  ended    : Bool := false
deriving DecidableEq, Repr

structure Policy where
  eraseOk : Bool
  progOk  : Bool
  maxSus  : Nat
deriving DecidableEq, Repr

/-- A sequencer (R341-R356). `state`: 0 halted, 1 idle, 2 running, 3 machine check. -/
structure SeqSt where
  state : BitVec 2 := 0
  job   : BitVec 4 := 0
  jobLun : BitVec 5 := 0
  pc    : BitVec 14 := 0
  stack : List (BitVec 14) := []
  k0    : Byte := 0
  k1    : Byte := 0
  status : Byte := 0
  bad   : Bool := false
  mck   : W64 := 0
  jobs  : W32 := 0
  /-- core cycles at the dispatch of the running job (R342) -/
  since : Nat := 0
  /-- the job latch as last filled, and the bus levels a running job holds (R351, R352) -/
  latch : List Byte := []
  held  : W64 := 0
  microBad : List Nat := []
  nanoBad  : List Nat := []
deriving DecidableEq, Repr

/-- A sequencer image as loaded (R358). -/
structure Image where
  vertical : Bool
  micro    : List W64
  nano     : List W64
  cyc      : List Nat
  entries  : List Nat
deriving DecidableEq, Repr

/-- What a checked container hands over (R367). -/
structure Container where
  ifMaj : Byte
  ifMin : Byte
  svn   : W16
  slots : BitVec 4
  hash  : List Byte
  body  : List Byte
deriving DecidableEq, Repr

/-- The image pair in force (R378). -/
structure Pair where
  image : Image
  profiles : List (List Byte)
  chanprof : List Byte
  simg  : Container
  pers  : Container
deriving DecidableEq, Repr

/-! ### Keys (chapter 09) -/

structure KeySlot where
  d        : Dom := 0
  assigned : Bool := false
  key      : Option (List Byte) := none
  /-- changes of the key since reset: an entry of an earlier generation holds a retiring key (R309) -/
  gen      : Nat := 0
  loads    : W16 := 0
deriving DecidableEq, Repr

/-! ### Fuses (chapter 10) -/

inductive FuseField
  | blank | partly | programmed (data : List Byte)
deriving DecidableEq, Repr

structure Fus where
  hash : Tbl FuseField := []
  revoked : BitVec 4 := 0
  imageKey : FuseField := .blank
  fleetKey : FuseField := .blank
  arb : Nat := 0
  encreq : Bool := false
  debuglock : Bool := true
  /-- the accepted command being programmed: FIELD, VALUE and the staged bytes -/
  busy : Option (BitVec 4 × BitVec 7 × List Byte) := none
deriving DecidableEq, Repr

/-! ### Movers (chapter 11) -/

inductive MoverState
  | idle | run | wait | waitLink | error
deriving DecidableEq, Repr

/-- A register set (R397). -/
structure RegSet where
  src : W64 := 0
  dst : W64 := 0
  len : W64 := 0
  ops : W64 := 0
  pat : W64 := 0
  crca : W64 := 0
deriving DecidableEq, Repr

/-- A move that reads and writes, a CHECK move, a fill (R404, R405). -/
inductive JobKind
  | move | check | fill
deriving DecidableEq, Repr

/-- A move or fill in progress, burst by burst (R392-R394): its source spans, its destination, the offset of its first byte in
a burst, what follows its last burst, and the bursts read and written so far. -/
structure BurstJob where
  kind   : JobKind
  src    : List (Nat × Nat) := []
  dst    : Nat := 0
  start  : Nat
  len    : Nat
  swap   : Nat := 0
  crcacc : Bool := false
  pat    : W64 := 0
  /-- where the consumer word and the CRC go at the end -/
  cons   : Option Nat := none
  store  : Option Nat := none
  eoc    : Bool := false
  /-- the regions its operands name (R426) -/
  pins   : List Nat := []
  read   : Nat := 0
  written : Nat := 0
  /-- stopped: what has been read is written, nothing more is read (R423) -/
  stopping : Bool := false
  /-- its RETIRED violation has been counted (R419) -/
  goneTold : Bool := false
deriving DecidableEq, Repr

structure Mover where
  d       : Dom
  state   : MoverState := .idle
  armed   : Bool := false
  draining : Bool := false
  sysstop : Bool := false
  waitKind : BitVec 2 := 0
  /-- frame boundaries left of a WAIT FRAMES -/
  framesLeft : Nat := 0
  /-- word 1 and the EOC flag of the pending WAIT (R409) -/
  waitWord : W64 := 0
  waitEoc : Bool := false
  /-- the move or fill in progress -/
  job     : Option BurstJob := none
  lc      : W16 := 0
  prog    : Bool := false
  prio    : BitVec 2 := 1
  key     : W32 := 0
  pc      : BitVec 23 := 0
  sigcnt  : W32 := 0
  ringa   : W64 := 0
  proda   : W64 := 0
  consa   : W64 := 0
  cons    : W32 := 0
  prod    : W32 := 0
  crc     : W32 := 0xFFFFFFFF
  faultCause : BitVec 4 := 0
  faultPc : BitVec 23 := 0
  faultAddr : BitVec 23 := 0
  bursts  : W32 := 0
  ended   : W16 := 0
  perr    : W16 := 0
  shadow  : RegSet := {}
  active  : RegSet := {}
  /-- the active register set has been carried out and awaits its end -/
  setDone : Bool := false
  pins    : List Nat := []
deriving DecidableEq, Repr

/-- One port's arbitration memory (R391). -/
structure PortSt where
  passed : Tbl Nat := []
  last   : Tbl Nat := []
deriving DecidableEq, Repr

/-! ### Buffer (chapter 12), recorder and tag (chapter 13) -/

structure Scrub where
  checked : W32 := 0
  errors  : W32 := 0
  first   : Option (BitVec 23) := none
  last    : BitVec 23 := 0
deriving DecidableEq, Repr

structure Rec where
  seq    : W32
  code   : BitVec 12
  source : BitVec 7
  noTime : Bool
  tally  : BitVec 12
  frame  : BitVec 26
  slot   : BitVec 6
  p0     : W32
  p1     : W32
deriving DecidableEq, Repr

/-- An export in progress on the service lane: the next record, the records left and where the next goes (R457). -/
structure Export where
  next : W32
  left : Nat
  addr : Nat
deriving DecidableEq, Repr

structure Freeze where
  fseq : W32
  left : Option Nat
deriving DecidableEq, Repr

structure Recorder where
  recs  : Tbl Rec := []
  seq   : W32 := 0
  overwrote : Bool := false
  flushSeq : W32 := 0
  lost  : W32 := 0
  frozen : Option Freeze := none
  fseq  : W32 := 0
  /-- failing bytes of a record's two words, by recorder index -/
  bad   : Tbl W16 := []
  xjob : Option Export := none
  xcount : BitVec 9 := 0
  xseq  : W16 := 0
deriving DecidableEq, Repr

structure Tile where
  comm    : List Byte
  shadow  : List Byte
  version : Byte := 0
  fieldread : Bool
  pending : Bool := false
  /-- a FIELDREAD change waiting for the field-command boundary -/
  nextRead : Option Bool := none
  /-- the block and bytes of a field write not yet flipped (FIELD_BUSY; R474) -/
  fieldWrite : Option (Nat × W32) := none
deriving DecidableEq, Repr

structure TagSt where
  tiles   : Tbl Tile := []
  pwd     : W32 := 0
  session : Byte := 0
  total   : Byte := 0
  fault   : Bool := false
  field   : Bool := false
  unlocked : Bool := false
  selected : Bool := false
  quiet   : Bool := false
  /-- the newest record mirrored since power-up; NEWEST and COUNT of the mirror; the records its slots hold since power-up -/
  mirrored : W32 := 0
  newest  : Nat := 0
  count   : Nat := 0
  inSlots : Tbl W32 := []
deriving DecidableEq, Repr

/-! ### Power, monitors, start-up (chapters 14, 15) -/

structure Pmu where
  state  : BitVec 3 := 0
  rest   : BitVec 3 := 3
  armed  : Bool := false
  harmless : Bool := false
  causes : BitVec 5 := 0
  lastCause : BitVec 4 := 0
  /-- frames spent in the harmless state, and frames each cause's recovery has lasted -/
  frames : Nat := 0
  coolFrames : Nat := 0
  brownFrames : Nat := 0
  /-- the finish window of R505 is open, and core cycles at its trigger -/
  finish : Bool := false
  finishAt : Nat := 0
  /-- brown-out on VCORE or VDDA_PLL: completions wait (R506) -/
  brownWait : Bool := false
  packetSeen : Bool := false
  packetPrev : Bool := false
  tagwake : Bool := false
  seglatch : BitVec 3 := 0
  lastsrc : BitVec 4 := 0
  dhcount : W16 := 0
  wakeA : BitVec 4 := 0
  wakeB : BitVec 4 := 0
  doze : W16 := 0
  nap  : W16 := 0
  hold : W16 := 0
  harm : W16 := 0
deriving DecidableEq, Repr

structure Volt where
  mv     : W16 := 0
  lowest : W16 := 0
  glitch : W16 := 0
deriving DecidableEq, Repr

structure Mon where
  temps  : List W16 := [0, 0, 0, 0, 0, 0, 0, 0, 0]
  now    : W16 := 0
  hi     : W16 := 0
  lo     : W16 := 0
  volts  : Tbl Volt := []
  proc   : Byte := 0
  warn   : Bool := false
  throttle : Bool := false
  supwarn : Bool := false
  /-- core cycles when the last counted dip came (R502, R506) -/
  dipAt  : Nat := 0
  brown  : BitVec 9 := 0
  /-- 140 °C or more in force -/
  hot : Bool := false
  /-- crossings, either way, seen on the previous conversion (R499) -/
  prevWarn : Bool := false
  prevThr  : Bool := false
  prevFail : Bool := false
  measured : Bool := false
  vddio33 : Bool := false
deriving DecidableEq, Repr

structure Glb where
  ready   : Bool := false
  phase   : BitVec 3 := 0
  bootsel : BitVec 2 := 0
  flashrst : Bool := false
  /-- the domain whose SYSTEM reset awaits the frame boundary (R535) -/
  sysReq  : Option Dom := none
  last    : BitVec 4 := 0
  syscnt  : W16 := 0
  flashcnt : W16 := 0
deriving DecidableEq, Repr

/-- A container's verdict and the copy it came from (R371, R530). -/
structure Verdict where
  code : BitVec 4 := 0
  /-- the copies tried so far (R530) -/
  tried : Nat := 0
  sec  : Bool := false
  taken : Option Container := none
deriving DecidableEq, Repr

structure Boot where
  outcome : BitVec 3 := 0
  baseline : Bool := true
  source  : BitVec 2 := 3
  busy    : Bool := false
  /-- step 3 of R539 is over: the channels are being rediscovered -/
  loaded  : Bool := false
  sv      : Verdict := {}
  pv      : Verdict := {}
  from_   : BitVec 2 := 3
  cres    : W64 := 0
  time    : W32 := 0
  startedAt : Nat := 0
  /-- when the last flash reset or reload ended, in core cycles (R540) -/
  loadEnd : Nat := 0
  pair    : Option Pair := none
  /-- BODYHASH of the last loaded personality (R366, R520) -/
  lastHash : List Byte := []
deriving DecidableEq, Repr

structure Pins where
  resetN : Bool := true
  pgood  : Bool := true
  pwron  : Bool := true
  alert0 : Bool := false
  alert1 : Bool := false
  cko    : Bool := false
deriving DecidableEq, Repr

/-- The 8b/10b characters of the segments (chapter 03). -/
inductive Sym
  | k281 | k283 | k285 | k277 | k297 | k307
  | data (b : Byte)
deriving DecidableEq, Repr

/-- What the block shows the outside. What goes out on a segment carries its characters, one list a character time: one
character on A and B, four on C, lane 0 first (R69, R72, R73). -/
inductive Output
  | beacon (seg : Seg) (payload : List Byte) (chars : List (List Sym))
  | marker (frame : W32) (chars : List (List Sym))
  | packet (node : BitVec 6) (lseq lack : Byte) (ackv retx : Bool) (body : TxBody) (chars : List (List Sym))
  | ackPkt (node : BitVec 6) (lack : Byte) (ackv : Bool) (chars : List (List Sym))
  | flashSense (lun : Byte) (plane : BitVec 2) (block page : Nat) (type step : Nat) (cache : Bool)
  | flashColumn (lun : Byte) (plane : BitVec 2) (column bytes : Nat)
  | flashProgram (lun : Byte) (plane : BitVec 2) (block page column : Nat) (type : Nat) (codeword : List Byte)
  | flashConfirm (lun : Byte) (cache : Bool)
  | flashCacheEnd (lun : Byte)
  | flashReadId (lun : Byte) (addr : Byte)
  | flashCapture (lun : Byte) (position : Nat)
  | flashZq (lun : Byte)
  | flashPins (ch : BitVec 3) (ce : Byte) (wp : Level)
  | flashErase (lun : Byte) (plane : BitVec 2) (block : Nat) (type : Nat)
  | flashFeature (lun : Byte) (wide : Bool) (faddr : Byte) (p : W32)
  | flashGetFeature (lun : Byte) (wide : Bool) (faddr : Byte)
  | flashReset (ch : BitVec 3) (target : Nat) (lun : Option Nat)
  | flashSuspend (lun : Byte)
  | flashResume (lun : Byte)
  | flashParam (lun : Byte)
  | flashPoll (lun cmd : Byte)
  | busWord (ch : BitVec 3) (nano : W64) (cycles : Nat)
  | tagAnswer (bytes : List Byte)
  | tagInventory (slot : Option Nat) (bytes : List Byte)
  | refusedAtLink (node : BitVec 6)
deriving DecidableEq, Repr

/-- The whole part and the queue of commands waiting for it. -/
structure State where
  pending : List Instr := []
  /-- the MODEL's own: what the part has shown the outside, oldest first -/
  out     : List Output := []
  phase   : Phase := .porHeld
  now     : Time := ⟨0, 0, 0⟩
  /-- frame boundaries since the core started, never wrapping -/
  frames  : Nat := 0
  regs    : Tbl W64 := []
  hdrs    : Tbl Hdr := []
  latches : List Latch := []
  clk     : Clk := {}
  segA    : SegAB
  segB    : SegAB
  segC    : SegCSt := {}
  links   : Tbl LinkSt := []
  linkDup : W16 := 0
  linkAhead : W16 := 0
  linkReject : W16 := 0
  evDrop  : W16 := 0
  conns   : Tbl Conn := []
  /-- cached contexts, least recently used first (R129) -/
  cache   : List Nat := []
  loads   : W32 := 0
  spills  : W32 := 0
  epochs  : Tbl W16 := []
  regions : Tbl Region := []
  tags    : Tbl (BitVec 24) := []
  /-- the MODEL's own: the number of the next free value (R165) -/
  freeCtr : Nat := 0
  /-- the MODEL's own: how often buffer memory has lost its contents (R434) -/
  powers  : Nat := 0
  extents : Tbl Extent := []
  sqs     : Tbl Sq := []
  cqs     : Tbl Cq := []
  entries : List Entry := []
  /-- the ring last fetched from, by class (R203) -/
  fetchLast : Tbl Nat := []
  /-- SCH: shares in force, charges in ns, policies, window start, counters (R254-R266) -/
  shares  : Tbl W64 := []
  charges : Tbl Nat := []
  policies : Tbl Policy := []
  wstart  : W32 := 0
  susCnt  : W16 := 0
  guarCnt : W16 := 0
  lateCnt : W16 := 0
  timeoutCnt : W16 := 0
  fchs    : Tbl Fch := []
  seqs    : Tbl SeqSt := []
  keys    : Tbl KeySlot := []
  eccHard : W16 := 0
  eccHfail : W16 := 0
  eccSoft : W16 := 0
  eccSfail : W16 := 0
  beads   : Tbl Byte := []
  badBeads : List Nat := []
  bands   : Tbl Nat := []
  abaOwn  : W16 := 0
  abaHit  : W16 := 0
  abaBorrow : W16 := 0
  abaNominal : W16 := 0
  fus     : Fus := {}
  movers  : Tbl Mover := []
  readPort  : PortSt := {}
  writePort : PortSt := {}
  cwyCnt  : Tbl W16 := []
  /-- the causeway: the bytes of the burst each slot holds (R384), and the causeway byte addresses that fail parity (R438) -/
  cwy     : Tbl (List Byte) := []
  cwyBad  : List Nat := []
  mem     : List Host.Cell := []
  badMem  : List Nat := []
  retired : List Nat := []
  perr    : List Nat := []
  lastErr : W64 := 0
  scrubs  : Tbl Scrub := []
  recorder : Recorder := {}
  tag     : TagSt := {}
  pmu     : Pmu := {}
  mon     : Mon := {}
  glb     : Glb := {}
  boot    : Boot := {}
  pins    : Pins := {}
deriving DecidableEq, Repr

/-- The default slot map of R82. -/
def defaultMap : List Byte :=
  [0x00, 0x80,
   0x41, 0x51, 0x42, 0x52, 0x43, 0x53, 0x44, 0x54, 0x45, 0x55, 0x46, 0x56, 0x47, 0x57,
   0x48, 0x58, 0x49, 0x59, 0x4A, 0x5A, 0x4B, 0x5B, 0x4C, 0x5C, 0x4D, 0x5D, 0x4E, 0x5E]
  ++ List.replicate 33 0x00 ++ [0xC0]

/-- The part with its power-on reset asserted: every register at its reset value, nothing recorded, no output driven
but PWRON (R516). -/
def State.reset : State := { segA := { map := defaultMap }, segB := { map := defaultMap } }

/-- Why a step would stop. -/
inductive Fault
  /-- Raised by no meaning: every access outside rights has an effect the manual gives (R25, R11). Safe. -/
  | unreachable
deriving DecidableEq, Repr

/-- Why a command has no meaning. -/
inductive Refusal
  /-- Raised by an arm of `exec` whose command has no meaning yet. Safe. -/
  | notModelled (mnemonic : String)
deriving DecidableEq, Repr

end Sys2Proof.Machine
end

