-- ==== Sys2Proof/Machine/Table.lean ====
section
/-! DEFINITION. The operations on sparse tables and on the sorted lists of numbers that State holds. -/

namespace Sys2Proof.Machine

/-- The entry of number `k`, if listed. -/
def tget {α : Type} : Tbl α → Nat → Option α
  | [], _ => none
  | (j, a) :: t, k => if j = k then some a else tget t k

/-- The entry of number `k`, or `d` when not listed. -/
def tgetD {α : Type} (t : Tbl α) (k : Nat) (d : α) : α := (tget t k).getD d

/-- Insert or replace, keeping the numbers rising. -/
def tset {α : Type} : Tbl α → Nat → α → Tbl α
  | [], k, a => [(k, a)]
  | (j, b) :: t, k, a =>
    if k < j then (k, a) :: (j, b) :: t
    else if k = j then (k, a) :: t
    else (j, b) :: tset t k a

/-- Take the entry of number `k` out. -/
def terase {α : Type} : Tbl α → Nat → Tbl α
  | [], _ => []
  | (j, b) :: t, k => if j = k then terase t k else (j, b) :: terase t k

/-- Change a listed entry; an unlisted one stays unlisted. -/
def tmod {α : Type} (t : Tbl α) (k : Nat) (f : α → α) : Tbl α :=
  match tget t k with
  | some a => tset t k (f a)
  | none => t

/-- Strictly rising numbers: the canonical form. -/
def tsorted {α : Type} : Tbl α → Bool
  | [] => true
  | [_] => true
  | (j, _) :: (k, b) :: t => decide (j < k) && tsorted ((k, b) :: t)

/-- Insert a number into a rising list without repeats. -/
def ninsert : List Nat → Nat → List Nat
  | [], k => [k]
  | j :: t, k => if k < j then k :: j :: t else if k = j then j :: t else j :: ninsert t k

/-- The lowest number from 0 to `n - 1` that the table does not list. -/
def tlowestFree {α : Type} (t : Tbl α) (n : Nat) : Option Nat :=
  (List.range n).find? fun k => (tget t k).isNone

end Sys2Proof.Machine
end

