-- ==== Sys2Proof/Machine/Bits.lean ====
section
/-! DEFINITION. Bit fields, little-endian bytes (R6), the CRC-32C of R110, odd parity (R428), the randomiser of R315
and R316. -/

namespace Sys2Proof.Machine

/-- Bits [hi:lo] of a register word as a number. -/
def fld (w : W64) (hi lo : Nat) : Nat := (w.toNat >>> lo) % 2 ^ (hi - lo + 1)

/-- Bit n of a register word. -/
def bit (w : W64) (n : Nat) : Bool := w.getLsbD n

/-- A number placed at bit `lo` of a register word, `width` bits wide. -/
def put (v width lo : Nat) : W64 := BitVec.ofNat 64 ((v % 2 ^ width) <<< lo)

/-- A flag placed at bit `lo`. -/
def putB (b : Bool) (lo : Nat) : W64 := if b then put 1 1 lo else 0

/-- A flag as a number. -/
def b2n (b : Bool) : Nat := if b then 1 else 0

/-- 32-bit parameter words of records are built the same way. -/
def put32 (v width lo : Nat) : W32 := BitVec.ofNat 32 ((v % 2 ^ width) <<< lo)

/-- `v` as a signed number of `n` bits. -/
def sint (v : Nat) (n : Nat) : Int := if v % 2 ^ n < 2 ^ (n - 1) then (v % 2 ^ n : Nat) else (v % 2 ^ n : Nat) - (2 ^ n : Nat)

/-- Low `n` bits of an integer, as a number (two's complement). -/
def ofSint (v : Int) (n : Nat) : Nat := (v % (2 ^ n : Nat)).toNat

/-- The `n` little-endian bytes of a number. -/
def leBytes : Nat → Nat → List Byte
  | 0, _ => []
  | n + 1, v => BitVec.ofNat 8 v :: leBytes n (v / 256)

/-- The number that little-endian bytes spell. -/
def leNat : List Byte → Nat
  | [] => 0
  | b :: t => b.toNat + 256 * leNat t

/-- Byte `i` of a list, zero past its end. -/
def byteAt (l : List Byte) (i : Nat) : Byte := l.getD i 0

/-- `n` bytes from offset `i`. -/
def slice (l : List Byte) (i n : Nat) : List Byte := (l.drop i).take n

/-- A little-endian field of `n` bytes at offset `i`. -/
def fieldLE (l : List Byte) (i n : Nat) : Nat := leNat (slice l i n)

/-- Overwrite a list of bytes from offset `i`; what would fall past the end is lost. -/
def patch (l : List Byte) (i : Nat) (d : List Byte) : List Byte :=
  l.take i ++ (d.take (l.length - i)) ++ l.drop (i + d.length)

/-- The 64-bit words that bytes spell. -/
def wordsOf : Nat → List Byte → List W64
  | 0, _ => []
  | n + 1, l => BitVec.ofNat 64 (leNat (l.take 8)) :: wordsOf n (l.drop 8)

/-- The bytes of 64-bit words. -/
def bytesOf (ws : List W64) : List Byte := ws.flatMap fun w => leBytes 8 w.toNat

/-- Odd parity (R428): the parity bit that makes byte and bit hold an odd number of ones. -/
def parityBit (b : Byte) : Bool :=
  ((List.range 8).filter fun i => b.getLsbD i).length % 2 == 0

/-- One bit step of the reflected Castagnoli polynomial. -/
def crcShift (c : W32) : W32 := if c.getLsbD 0 then (c >>> 1) ^^^ 0x82F63B78 else c >>> 1

/-- The running CRC-32C register absorbs one byte (R110). -/
def crcByte (c : W32) (b : Byte) : W32 :=
  let x := c ^^^ b.setWidth 32
  crcShift (crcShift (crcShift (crcShift (crcShift (crcShift (crcShift (crcShift x)))))))

/-- The running register over a list of bytes. -/
def crcRun (c : W32) (l : List Byte) : W32 := l.foldl crcByte c

/-- CRC-32C: initial value all ones, complemented result (R110). -/
def crc32c (l : List Byte) : W32 := ~~~ crcRun 0xFFFFFFFF l

/-- The randomiser's seed for a PFA (R316). -/
def rndSeed (pfa : W64) : BitVec 31 :=
  let s : BitVec 31 := BitVec.ofNat 31 ((fld pfa 30 0) ^^^ ((fld pfa 41 31) <<< 20))
  if s = 0 then 0x7FFFFFFF else s

/-- The PRBS31 register after one bit: s[k] = s[k-3] XOR s[k-31] enters at the top (R315). -/
def prbsNext (s : BitVec 31) : BitVec 31 :=
  let n := (s.getLsbD 28).xor (s.getLsbD 0)
  (s >>> 1) ||| (if n then (1 : BitVec 31) <<< 30 else 0)

/-- The register eight bits on. -/
def prbsNext8 (s : BitVec 31) : BitVec 31 :=
  prbsNext (prbsNext (prbsNext (prbsNext (prbsNext (prbsNext (prbsNext (prbsNext s)))))))

/-- XOR bytes with the sequence from register `s` on (R315). -/
def randomise : BitVec 31 → List Byte → List Byte
  | _, [] => []
  | s, b :: t => (b ^^^ s.setWidth 8) :: randomise (prbsNext8 s) t

/-- The 16-bit modulo counters of the registers. -/
def inc16 (c : W16) : W16 := c + 1

/-- Saturating value for a field of `w` bits. -/
def sat (v w : Nat) : Nat := if v < 2 ^ w then v else 2 ^ w - 1

end Sys2Proof.Machine
end

