-- ==== Sys2Proof/Machine/Regs.lean ====
section
/-! DEFINITION. The register map (chapter 16): block indices (R545), listed offsets (R565), the writable fields and reset
values of the registers that hold what was written, the snapshot groups (R561) and the event codes (R452). -/

namespace Sys2Proof.Machine

/-! ### Block indices (R545) -/

def blkGLB := 0x00
def blkCLK := 0x01
def blkPMU := 0x02
def blkMON := 0x03
def blkBOOT := 0x04
def blkREC := 0x05
def blkTAG := 0x06
def blkFUS := 0x07
def blkSEGA := 0x08
def blkSEGB := 0x09
def blkSEGC := 0x0A
def blkLNK := 0x0B
def blkCON := 0x0C
def blkDOM := 0x0D
def blkRGN := 0x0E
def blkEXT := 0x0F
def blkFCH := 0x10
def blkSEQ := 0x18
def blkMOV := 0x20
def blkWQS := 0x30
def blkWQC := 0x31
def blkSCH := 0x32
def blkECC := 0x33
def blkRND := 0x34
def blkXTS := 0x35
def blkABA := 0x36
def blkBUF := 0x37
def blkCWY := 0x38

def isFch (b : Nat) : Bool := decide (0x10 ≤ b) && decide (b < 0x18)
def isSeq (b : Nat) : Bool := decide (0x18 ≤ b) && decide (b < 0x20)
def isMov (b : Nat) : Bool := decide (0x20 ≤ b) && decide (b < 0x30)

/-- One block of each type: the index of instance 0 (ID.TYPE, R548). -/
def blockType (b : Nat) : Nat :=
  if isFch b then 0x10 else if isSeq b then 0x18 else if isMov b then 0x20
  else if b = 0x09 ∨ b = 0x0A then 0x08 else b

/-- Instances of the block's type, minus 1 (CAP.INSTM1). -/
def instM1 (b : Nat) : Nat :=
  if isFch b || isSeq b then 7 else if isMov b then 15 else if blockType b = 0x08 then 2 else 0

/-- The block of a segment. -/
def segBlk : Seg → Nat
  | .a => blkSEGA
  | .b => blkSEGB
  | .c => blkSEGC

/-- The segment field of records: 0 A, 1 B, 2 C. -/
def segNum : Seg → Nat
  | .a => 0
  | .b => 1
  | .c => 2

/-- The number of EVS bits a block defines (CAP.EVBITS). -/
def evBits (b : Nat) : Nat :=
  if isFch b then 6 else if isSeq b then 2 else if isMov b then 4 else
  match b with
  | 0x00 => 2 | 0x01 => 7 | 0x02 => 4 | 0x03 => 6 | 0x04 => 4 | 0x05 => 3 | 0x06 => 5 | 0x07 => 3
  | 0x08 => 10 | 0x09 => 10 | 0x0A => 3 | 0x0B => 4 | 0x0C => 5
  | 0x30 => 4 | 0x31 => 1 | 0x32 => 5 | 0x33 => 3 | 0x35 => 3 | 0x36 => 1 | 0x37 => 2 | 0x38 => 1
  | _ => 0

/-- Snapshot groups of a block (CAP.GROUPS, R561). -/
def groupCount (b : Nat) : Nat :=
  match b with
  | 0x01 => 1 | 0x05 => 1 | 0x06 => 1 | 0x08 => 1 | 0x09 => 1 | 0x0D => 16 | 0x37 => 16
  | _ => 0

/-! ### Addresses -/

/-- The register at offset o of block b (R544). -/
def regAddr (b o : Nat) : Nat := b * 4096 + o
def addrBlk (a : BitVec 20) : Nat := a.toNat / 4096
def addrOff (a : BitVec 20) : Nat := a.toNat % 4096

/-! ### Header offsets (R548) -/

def oID := 0x00
def oVER := 0x08
def oCAP := 0x10
def oCTL := 0x18
def oSTAT := 0x20
def oEVS := 0x28
def oEVE := 0x30
def oEVR := 0x38
def oERR := 0x40
def oOWN := 0x48
def oRDM := 0x50
def oLCK := 0x58
def oSNP := 0x60
def oSCR := 0x68

def isHeader (o : Nat) : Bool := decide (o < 0x70)

/-- The listed block-specific offsets of a block: first offset and number of registers of each run (R565). -/
def regRuns (b : Nat) : List (Nat × Nat) :=
  if isFch b then [(0x80, 9)]
  else if isSeq b then [(0x80, 6)]
  else if isMov b then [(0x80, 13), (0x100, 6), (0x140, 6)]
  else match b with
  | 0x00 => [(0x80, 3)]
  | 0x01 => [(0x80, 14)]
  | 0x02 => [(0x80, 4)]
  | 0x03 => [(0x80, 1), (0xA0, 9), (0xF0, 1), (0x100, 9), (0x180, 1)]
  | 0x04 => [(0x80, 6)]
  | 0x05 => [(0x80, 9), (0x100, 33)]
  | 0x06 => [(0x80, 3), (0xA0, 12)]
  | 0x07 => [(0x80, 22)]
  | 0x08 => [(0x80, 36)]
  | 0x09 => [(0x80, 36)]
  | 0x0A => [(0x80, 3)]
  | 0x0B => [(0x80, 4)]
  | 0x0C => [(0x80, 6)]
  | 0x0D => (0x80, 1) :: (List.range 16).map fun d => (0x100 + 0x40 * d, 7)
  | 0x0E => [(0x80, 33)]
  | 0x0F => [(0x80, 4)]
  | 0x30 => [(0x80, 1), (0x100, 16), (0x200, 320)]
  | 0x31 => [(0x80, 1), (0x100, 16), (0x200, 256)]
  | 0x32 => [(0x80, 9), (0x100, 49)]
  | 0x33 => [(0x80, 1), (0xC0, 8), (0x100, 33)]
  | 0x34 => [(0x80, 2)]
  | 0x35 => [(0x80, 1), (0x100, 64), (0x400, 128)]
  | 0x36 => [(0x80, 4)]
  | 0x37 => [(0x80, 3), (0x100, 96)]
  | 0x38 => [(0x80, 6)]
  | _ => []

/-- A block index that R545 defines. -/
def definedBlk (b : Nat) : Bool := decide (b ≤ 0x38)

/-- The address is not reserved (R545, R546). Addresses with bits [2:0] set do not come here (R113). -/
def listed (b o : Nat) : Bool :=
  definedBlk b && decide (o % 8 = 0) &&
    (isHeader o || (regRuns b).any fun r => decide (r.1 ≤ o) && decide (o < r.1 + 8 * r.2))

/-- Offset `o` lies in a run of `n` registers from `lo`. -/
def inRun (o lo n : Nat) : Bool := decide (lo ≤ o) && decide (o < lo + 8 * n)

/-- The snapshot group of a member register: its number, its first register and its size (R561). -/
def groupOf (b o : Nat) : Option (Nat × Nat × Nat) :=
  match b with
  | 0x01 => if inRun o 0xD0 2 then some (0, 0xD0, 2) else none
  | 0x05 => if inRun o 0x100 33 then some (0, 0x100, 33) else none
  | 0x06 => if inRun o 0xA0 8 then some (0, 0xA0, 8) else none
  | 0x08 => if inRun o 0xD8 8 then some (0, 0xD8, 8) else none
  | 0x09 => if inRun o 0xD8 8 then some (0, 0xD8, 8) else none
  | 0x0D => if 0x100 ≤ o ∧ (o - 0x100) % 0x40 = 0x20 then some ((o - 0x100) / 0x40, o, 1) else none
  | 0x37 => if inRun o 0x300 32 then some ((o - 0x300) / 0x10, 0x300 + 0x10 * ((o - 0x300) / 0x10), 2) else none
  | _ => none

/-! ### The registers that hold what was written -/

/-- The fields that a write stores (RW fields of the chapters' tables; R9 for the rest). -/
def regMask (b o : Nat) : W64 :=
  if isFch b then
    (if o = 0x80 then 0x1F1 else if o = 0x88 then 0xFFFFFFFF else if o = 0xB0 then 0x1F else 0)
  else match b with
  | 0x01 => if inRun o 0x80 4 then 0xF7 else if o = 0xC0 then 0x0FFF1FFF
      else if o = 0xD0 then 0xFFFFFFFF else if o = 0xD8 then 0xFFFFFFFFFFFFFFFF else 0
  | 0x02 => if o = 0x80 then 0x7 else 0
  | 0x03 => if o = 0x80 then 0x0FFFFFFF else 0
  | 0x04 => if inRun o 0x88 2 then 0x007FFFFFFFFFFFFF else 0
  | 0x05 => if o = 0x80 then 0xFFFF else if o = 0xA8 then 0xFFFFFFFF else if o = 0xB0 then 0x007FFFFFFFFFFFFF else 0
  | 0x06 => if o = 0x80 then 0x1 else if o = 0x88 then 0x3F else 0
  | 0x07 => if inRun o 0x100 4 then 0xFFFFFFFFFFFFFFFF else 0
  | 0x08 => if o = 0x80 then 0x1FFF1 else if o = 0x88 then 0xFFFFFFFF00000FFF
      else if o = 0x98 then 0xDFDFDFDFDFDF0000 else if inRun o 0xA0 7 then 0xDFDFDFDFDFDFDFDF else 0
  | 0x09 => if o = 0x80 then 0x1FFF1 else if o = 0x88 then 0xFFFFFFFF00000FFF
      else if o = 0x98 then 0xDFDFDFDFDFDF0000 else if inRun o 0xA0 7 then 0xDFDFDFDFDFDFDFDF else 0
  | 0x0A => if o = 0x80 then 0x10001 else 0
  | 0x0B => if o = 0x80 then 0xFF1F else if o = 0x88 then 0x3F else 0
  | 0x0C => if o = 0x80 then 0x7F else if o = 0x88 then 0xFFFFFFFFFFFFFFFF else if o = 0x90 then 0x3FF else 0
  | 0x0D => if o < 0x100 then 0 else
      match (o - 0x100) % 0x40 with
      | 0x00 => 0xFF03
      | 0x08 => 0xFFFFFFFFFFFFFFFF
      | 0x10 => 0xFFFFFFFF
      | 0x18 => 0x0FFF07FF
      | 0x30 => 0xFFFFF
      | _ => 0
  | 0x0F => if o = 0x80 then 0x0FFFFFFF else if o = 0x88 then 0xFFFFFFFF else 0
  | 0x30 => if inRun o 0x200 64 then 0x007FFFFFFFFFFFFF else if inRun o 0x400 64 then 0x3F7F else 0
  | 0x31 => if inRun o 0x200 64 then 0x007FFFFFFFFFFFFF else if inRun o 0x400 64 then 0x7F else 0
  | 0x32 => if inRun o 0x100 16 then 0x3F3F3F3F3F3F3F3F else 0
  | 0x33 => if o = 0x80 then 0xFF7F else if inRun o 0x100 32 then 0xFFFFFFFFFFFFFFFF else 0
  | 0x34 => if o = 0x80 then 0x3FFFFFFFFFF else 0
  | 0x35 => if o = 0x80 then 0xFFFF else if inRun o 0x400 128 then 0xFFFFFFFFFFFFFFFF else 0
  | 0x36 => if o = 0x80 then 0x1 else if o = 0x88 then 0xFFFFFFFFFFFFFFFF else 0
  | 0x38 => if o = 0xA0 then 0xFFFFFFFF else 0
  | _ => 0

/-- Word k of the default slot map of R82, the reset value of PMAPk. -/
def defaultMapWord (k : Nat) : W64 := BitVec.ofNat 64 (leNat (slice defaultMap (8 * k) 8))

/-- Reset values; zero where a table gives zero. DOM.KEY0 is set from the fuses (R157). -/
def regReset (b o : Nat) : W64 :=
  if isFch b then (if o = 0x80 then 0x31 else 0)
  else match b with
  | 0x01 => match o with
      | 0x80 => 0x1 | 0x88 => 0x6 | 0x90 => 0x7 | 0xC0 => 0x024014FA | _ => 0
  | 0x02 => if o = 0x80 then 3 else 0
  | 0x03 => if o = 0x80 then 0x02327D73 else 0
  | 0x05 => if o = 0x80 then 1000 else 0
  | 0x08 => if o = 0x80 then 0x16420 ||| 1 else if o = 0x88 then 0x300
      else if inRun o 0x98 8 then defaultMapWord ((o - 0x98) / 8) else 0
  | 0x09 => if o = 0x80 then 0x16420 ||| 1 else if o = 0x88 then 0x300
      else if inRun o 0x98 8 then defaultMapWord ((o - 0x98) / 8) else 0
  | 0x0A => if o = 0x80 then 0x10001 else 0
  | 0x0B => if o = 0x80 then 0x400A else 0
  | 0x0C => if o = 0x80 then 16 else 0
  | 0x0D => if o < 0x100 then 0 else
      match (o - 0x100) % 0x40 with
      | 0x00 => if o = 0x100 then 0x1001 else 0x1000
      | 0x08 => if o = 0x108 then 0xFFFFFFFFFFFFFFFF else 0
      | 0x18 => if o = 0x118 then 0x00400000 else 0
      | 0x30 => 0xFFFFF
      | _ => 0
  | 0x30 => if inRun o 0x400 64 then 0x40 else 0
  | 0x33 => if o = 0x80 then 0x68 else 0
  | 0x36 => if o = 0x80 then 1 else 0
  | 0x38 => if o = 0xA0 then 0xFFFFFFFF else 0
  | _ => 0

/-- The registers whose stored bits read as zero: keys and staged bytes (WO). -/
def regHidden (b o : Nat) : Bool :=
  match b with
  | 0x07 => inRun o 0x100 4
  | 0x0D => decide (0x100 ≤ o) && decide ((o - 0x100) % 0x40 = 0x10)
  | 0x35 => inRun o 0x400 128
  | _ => false

/-- Block-specific registers that their chapter grants to domain 0 by name (R42, R83, R155, chapter 05, R266, R300, R340,
R383, R387, R446, R481, R482, R512, R513, R542, R543): writes that the lock of R550 stops. -/
def lockable (b o : Nat) : Bool :=
  if isFch b then decide (o = 0x80) || decide (o = 0x88) || decide (o = 0xB0)
  else match b with
  | 0x00 => decide (o = 0x88)
  | 0x01 => inRun o 0x80 4 || decide (o = 0xC0) || inRun o 0xD0 3
  | 0x02 => inRun o 0x80 3
  | 0x03 => decide (o = 0x80)
  | 0x04 => inRun o 0x88 3
  | 0x05 => inRun o 0x80 2 || decide (o = 0x98) || inRun o 0xA8 3
  | 0x06 => decide (o = 0x80) || decide (o = 0x88) || inRun o 0xA0 11
  | 0x07 => inRun o 0x100 5
  | 0x08 => inRun o 0x80 2 || inRun o 0x98 8 || decide (o = 0x188)
  | 0x09 => inRun o 0x80 2 || inRun o 0x98 8 || decide (o = 0x188)
  | 0x0A => decide (o = 0x80)
  | 0x0B => inRun o 0x80 2
  | 0x0C => inRun o 0x80 3 || decide (o = 0xA0)
  | 0x0D => decide (0x100 ≤ o) && decide ((o - 0x100) % 0x40 ≤ 0x18)
  | 0x0F => inRun o 0x80 3
  | 0x33 => decide (o = 0x80) || inRun o 0x100 32
  | 0x34 => decide (o = 0x80)
  | 0x35 => decide (o = 0x80) || inRun o 0x100 32
  | 0x36 => inRun o 0x80 2
  | 0x37 => decide (o = 0x80) || inRun o 0x200 32
  | 0x38 => decide (o = 0x80) || decide (o = 0xA0)
  | _ => false

/-! ### Event codes (R452) -/

/-- How a repeat of a code matches the latest record of the code (R450, R452). -/
inductive MatchRule
  | new | code | event
  /-- the bits of P0 and of P1 that must be equal -/
  | params (m0 m1 : W32)
deriving DecidableEq, Repr

/-- The match column of R452. EVENT_DROPPED raises only for consecutive drops on one connection (R154). -/
def matchRule (c : BitVec 12) : MatchRule :=
  match c.toNat with
  | 0x004 => .code
  | 0x005 => .params 0xFFFFFFFF 0xFFFFFFFF
  | 0x008 => .event
  | 0x014 => .event
  | 0x101 => .params 0x3F 0
  | 0x102 => .params 0x3F 0
  | 0x104 => .params 0x3 0
  | 0x105 => .params 0x30000 0
  | 0x107 => .params 0xFFFFFFFF 0xFFFFFFFF
  | 0x109 => .params 0xFFFFFFFF 0
  | 0x10A => .params 0xFFFFFFFF 0
  | 0x10B => .params 0xFFFFFFFF 0
  | 0x110 => .params 0xFFFFFFFF 0
  | 0x111 => .params 0xFFFFFFFF 0xFFFFFFFF
  | 0x112 => .params 0xFFFFFFFF 0
  | 0x113 => .params 0x3FF 0
  | 0x203 => .params 0xFFFFFFFF 0
  | 0x204 => .params 0xFFFFFFFF 0
  | 0x205 => .params 0xFFFFFFFF 0
  | 0x206 => .params 0xFFFFFFFF 0xFFFFFFFF
  | 0x207 => .event
  | 0x300 => .event
  | 0x301 => .params 0xFFFFFFFF 0
  | 0x303 => .params 0xFFFFFFFF 0
  | 0x304 => .params 0xFFFFFFFF 0
  | 0x306 => .params 0xFFFFFFFF 0xFFFFFFFF
  | 0x307 => .params 0xFFFFFFFF 0xFFFFFFFF
  | 0x308 => .params 0xFFFFFFFF 0xFFFFFFFF
  | 0x309 => .params 0xFFFFFFFF 0xFFFFFFFF
  | 0x30A => .params 0xFFFFFFFF 0
  | 0x402 => .params 0xFFFFFFFF 0xFFFFFFFF
  | 0x403 => .params 0xFFFFFFFF 0xFFFFFFFF
  | 0x404 => .params 0xFFFFFFFF 0
  | 0x405 => .params 0x1F 0
  | 0x406 => .params 0xFFFFFFFF 0
  | 0x501 => .params 0xFFF 0xFFFFFFFF
  | 0x502 => .params 0xFFF 0xFFFFFFFF
  | 0x503 => .params 0xFFF 0xFFFFFFFF
  | 0x507 => .code
  | 0x701 => .event
  | 0x702 => .event
  | 0x703 => .event
  | 0x704 => .params 0xFFFFFFFF 0xFFFFFFFF
  | 0x801 => .params 0xFFFFFFFF 0xFFFFFFFF
  | 0x803 => .event
  | 0x903 => .params 0xFFFFFFFF 0
  | 0x904 => .code
  | 0x905 => .code
  | 0x907 => .event
  | 0xA01 => .code
  | 0xA02 => .code
  | 0xA03 => .code
  | 0xA06 => .code
  | 0xF01 => .params 0xFFFFFFFF 0xFFFFFFFF
  | 0xF07 => .params 0xFFFFFFFF 0
  | _ => .new

/-- The EVS bit of the reporting block that reports a code, for the codes of its block's list. -/
def evsBit (c : BitVec 12) : Option Nat :=
  match c.toNat with
  | 0x002 => some 1
  | 0x003 => some 0 | 0x004 => some 1 | 0x005 => some 2 | 0x006 => some 3 | 0x008 => some 4 | 0x009 => some 5 | 0x00A => some 6
  | 0x014 => some 0 | 0x012 => some 1 | 0x013 => some 2 | 0x011 => some 3
  | 0x101 => some 0 | 0x102 => some 1 | 0x103 => some 2 | 0x104 => some 3 | 0x105 => some 4
  | 0x107 => some 6 | 0x108 => some 7 | 0x109 => some 8 | 0x10B => some 0
  | 0x110 => some 0 | 0x111 => some 1 | 0x112 => some 2 | 0x113 => some 3
  | 0x201 => some 0 | 0x202 => some 1 | 0x203 => some 4 | 0x204 => some 2 | 0x205 => some 3
  | 0x301 => some 0 | 0x302 => some 1 | 0x303 => some 2 | 0x304 => some 3 | 0x305 => some 0
  | 0x306 => some 0 | 0x307 => some 1 | 0x308 => some 2 | 0x309 => some 3 | 0x30A => some 4
  | 0x401 => some 0 | 0x402 => some 1 | 0x403 => some 2 | 0x404 => some 3 | 0x405 => some 4 | 0x406 => some 5
  | 0x501 => some 0 | 0x502 => some 1 | 0x503 => some 2 | 0x504 => some 0 | 0x505 => some 1 | 0x506 => some 2 | 0x507 => some 0
  | 0x701 => some 0 | 0x702 => some 1 | 0x704 => some 2 | 0x703 => some 3
  | 0x801 => some 0 | 0x802 => some 1 | 0x803 => some 0
  | 0x901 => some 0 | 0x902 => some 1 | 0x903 => some 2
  | 0x904 => some 0 | 0x905 => some 1 | 0x906 => some 2 | 0x907 => some 3 | 0x908 => some 4
  | 0xA01 => some 0 | 0xA02 => some 1 | 0xA03 => some 2 | 0xA04 => some 3 | 0xA05 => some 4 | 0xA06 => some 5
  | 0xF01 => some 0 | 0xF02 => some 1 | 0xF03 => some 2 | 0xF04 => some 3
  | 0xF05 => some 0 | 0xF06 => some 1 | 0xF07 => some 2 | 0xF08 => some 0
  | _ => none

/-- The EVS bit a block sets for a code: NODE_JOINED and SEG_WAKE lie elsewhere in SEGC than in SEGA and SEGB; a record
reported for another block than its list's sets nothing (VIOLATION, MESSAGE, COMPLETION, POWER_UP, CLOCK_RELOCK, a machine
check of a block other than a sequencer). -/
def evsBitOf (b : Nat) (c : BitVec 12) : Option Nat :=
  match c.toNat with
  | 0x106 => if b = blkSEGC then some 1 else some 5
  | 0x10A => if b = blkSEGC then some 2 else some 9
  | 0x107 => if b = blkSEGC then none else some 6
  | 0x601 => if isSeq b then some 1 else none
  | 0x602 => if isSeq b then some 0 else none
  | _ => evsBit c

end Sys2Proof.Machine
end

