-- ==== Sys2Proof/Machine/Ops.lean ====
section
/-! DEFINITION. The named operations over registers, headers, the recorder, events, domains and buffer memory: each says once
what many commands do. -/

namespace Sys2Proof.Machine

/-! ### Time -/

/-- The fabric timestamp (R13); zero before the first tick lock (R15). -/
def stamp (s : State) : W64 :=
  if s.clk.noTime then 0 else s.now.frame ++ (s.now.slot ++ s.now.sub)

/-- Core cycles since the core started, by frame boundaries, slots and sub-slots. -/
def cycles (s : State) : Nat := s.frames * 400000 + s.now.slot.toNat * 6250 + s.now.sub.toNat

/-- The last core cycle of the present frame: a time that a command reports as elapsed lies at or before it. -/
def latest (s : State) : Nat := s.frames * 400000 + 399999

/-- Frame time moves to the start of a slot when a command happens in a later slot. -/
def atSlot (s : State) (k : BitVec 6) : State :=
  if s.now.slot = k then s else { s with now := { s.now with slot := k, sub := 0 } }

/-- One core cycle of frame time within a frame (R13); the frame's last cycle lasts until the boundary. -/
def Time.cycle (t : Time) : Time :=
  if t.sub.toNat < 6249 then { t with sub := t.sub + 1 }
  else if t.slot.toNat < 63 then { t with slot := t.slot + 1, sub := 0 }
  else t

/-- What the block shows the outside. -/
def emit (s : State) (o : Output) : State := { s with out := s.out ++ [o] }

/-- A cause of the harmless state ends: bit k of PMU.STAT.CAUSES (R509). -/
def endCause (p : Pmu) (k : Nat) : Pmu :=
  if p.causes.getLsbD k then { p with causes := p.causes &&& ~~~(1#5 <<< k), lastCause := BitVec.ofNat 4 (k + 1) } else p

/-! ### Registers and headers -/

/-- A register that holds what was written. -/
def regGet (s : State) (b o : Nat) : W64 := tgetD s.regs (regAddr b o) (regReset b o)

/-- Store a register's value whole. -/
def regSet (s : State) (b o : Nat) (v : W64) : State := { s with regs := tset s.regs (regAddr b o) v }

/-- Store the fields a write stores; the other bits keep their value (R9, R555). -/
def regStore (s : State) (b o : Nat) (v : W64) : State :=
  regSet s b o ((v &&& regMask b o) ||| (regGet s b o &&& ~~~ regMask b o))

/-- RDM at reset (R565). -/
def rdmReset (b : Nat) : W16 :=
  if isFch b || isSeq b then 0x0001
  else match b with
  | 0x05 => 1 | 0x06 => 1 | 0x0B => 1 | 0x0C => 1 | 0x0D => 1 | 0x0F => 1
  | 0x33 => 1 | 0x35 => 1 | 0x36 => 1 | 0x37 => 1
  | _ => 0xFFFF

/-- The header at reset (R548, R553, R554; EVR of a block without events reads zero, R547). -/
def hdrReset (b : Nat) : Hdr := { rdm := rdmReset b, evr := if evBits b = 0 then 0 else 1 }

def hdr (s : State) (b : Nat) : Hdr := tgetD s.hdrs b (hdrReset b)
def setHdr (s : State) (b : Nat) (h : Hdr) : State := { s with hdrs := tset s.hdrs b h }

/-! ### The recorder (R447-R454) -/

/-- Record s lies at index (s - 1) mod 8192 (R448). -/
def recIndex (q : W32) : Nat := (q - 1).toNat % 8192

/-- The latest record of a code: its index and the record. -/
def latestOf (r : Recorder) (c : BitVec 12) : Option (Nat × Rec) :=
  r.recs.foldl (fun best e =>
    if e.2.code = c then
      match best with
      | none => some e
      | some b => if (r.seq - e.2.seq).toNat < (r.seq - b.2.seq).toNat then some e else some b
    else best) none

/-- The fields that the match rule of a code names are equal (R450, R452). -/
def recMatches (c : BitVec 12) (e : Rec) (p0 p1 : W32) : Bool :=
  match matchRule c with
  | .new => false
  | .event => false
  | .code => true
  | .params m0 m1 => (e.p0 &&& m0) == (p0 &&& m0) && (e.p1 &&& m1) == (p1 &&& m1)

/-- A freeze covers the records numbered FSEQ or below (R450, R456). -/
def frozenOver (r : Recorder) (q : W32) : Bool :=
  match r.frozen with
  | none => false
  | some f => decide (q.toNat ≤ f.fseq.toNat)

/-- The record whose tally an occurrence raises, if any (R450). -/
def raisable (r : Recorder) (c : BitVec 12) (p0 p1 : W32) : Option (Nat × Rec) :=
  match latestOf r c with
  | none => none
  | some (i, e) =>
    if recMatches c e p0 p1 && decide (e.tally.toNat < 4095) && !(frozenOver r e.seq) && tgetD r.bad i 0 == 0
    then some (i, e) else none

/-- Write a new record (R447, R448), overwriting the one 8192 before it (R454). -/
def newRecord (r : Recorder) (e : Rec) : Recorder :=
  let q := r.seq + 1
  let i := recIndex q
  let lostOld := match tget r.recs i with
    | some o => decide (r.flushSeq.toNat < o.seq.toNat)
    | none => false
  { r with
    recs := tset r.recs i { e with seq := q }
    seq := q
    bad := terase r.bad i
    lost := if lostOld then r.lost + 1 else r.lost
    overwrote := r.overwrote || lostOld }

/-- ERR captures the block's first record since it was cleared; VIOLATION never (R549). -/
def captureErr (s : State) (b : Nat) (c : BitVec 12) : State :=
  let h := hdr s b
  if h.errValid || c = 0x206 then s
  else setHdr s b { h with errCode := c, errValid := true, errSeq := s.recorder.seq }

/-- Record an occurrence of frame `fr`, slot `sl`: raise the tally of the matching record or write a new one. -/
def recordAt (s : State) (fr : W32) (sl : BitVec 6) (b : Nat) (c : BitVec 12) (p0 p1 : W32) : State :=
  match raisable s.recorder c p0 p1 with
  | some (i, e) => { s with recorder := { s.recorder with recs := tset s.recorder.recs i { e with tally := e.tally + 1 } } }
  | none =>
    let e : Rec :=
      { seq := 0, code := c, source := BitVec.ofNat 7 b, noTime := s.clk.noTime, tally := 1
        frame := if s.clk.noTime then 0 else fr.setWidth 26
        slot := if s.clk.noTime then 0 else sl
        p0 := p0, p1 := p1 }
    captureErr { s with recorder := newRecord s.recorder e } b c

/-- A code marked "event" is never recorded (R451). -/
def isEventOnly (c : BitVec 12) : Bool :=
  match matchRule c with
  | .event => true
  | _ => false

/-- An EVS bit is set on every occurrence, whatever EVE holds (R559). -/
def setEvs (s : State) (b : Nat) (c : BitVec 12) : State :=
  match evsBitOf b c with
  | none => s
  | some n => let h := hdr s b; setHdr s b { h with evs := h.evs ||| (1#16 <<< n) }

/-! ### Event copies (R150-R154) -/

/-- KIND of an event copy: PORT from SEGA, SEGB, SEGC and LNK, DEVICE from every other block (R150). -/
def eventKind (b : Nat) : Byte := if b = blkSEGA ∨ b = blkSEGB ∨ b = blkSEGC ∨ b = blkLNK then 2 else 1

/-- The event copies that unacknowledged packets carry for a connection, oldest first. -/
def copiesOf (k : Nat) (l : List TxPkt) : List EventRec :=
  l.flatMap fun p =>
    match p.body with
    | .events j es => if j.toNat = k then es else []
    | _ => []

/-- The copies in a connection's event queue, oldest first: carried in unacknowledged packets, and held (R128). -/
def queueOf (s : State) (k : Nat) (c : Conn) : List EventRec :=
  copiesOf k (tgetD s.links c.node.toNat {}).unacked ++ c.held

def queueCount (s : State) (k : Nat) (c : Conn) : Nat := (queueOf s k c).length

/-- The first free record of the event queue from record `n` on, round its 32 (R128). -/
def freePos (q : List EventRec) (n : Nat) : Nat :=
  (((List.range 32).map fun i => (n + i) % 32).find? fun p => q.all fun e => decide (e.pos ≠ p)).getD (n % 32)

/-- Make one copy on connection k: it takes the next EVSEQ (R152) and a record of the event queue; a full queue drops it,
answering the EVSEQ consumed (R154). Its timestamp names the instant the copy is made. DESIGN CHOICE. -/
def pushEvent (s : State) (k : Nat) (kind : Byte) (b : Nat) (code : BitVec 12) (p0 p1 : W32) : State × Option W16 :=
  match tget s.conns k with
  | none => (s, none)
  | some c =>
    let q := c.evseq + 1
    if queueCount s k c < 32 then
      let pos := freePos (queueOf s k c) c.evNext
      let e : EventRec := { evseq := q, kind := kind, source := BitVec.ofNat 8 b, code := code, time := stamp s
                            p0 := p0, p1 := p1, made := s.frames, pos := pos }
      ({ s with conns := tset s.conns k { c with evseq := q, held := c.held ++ [e], evNext := (pos + 1) % 32 } }, none)
    else ({ s with conns := tset s.conns k { c with evseq := q } }, some q)

/-- The open connections with EVENTS in a domain. -/
def eventConns (s : State) (d : Dom) : List Nat :=
  (s.conns.filter fun e => e.2.events && decide (e.2.d = d)).map (·.1)

/-- The connections that receive copies of an event of block b: those of the domains set in EVR, if EVE enables the
event (R151). -/
def routeOf (s : State) (b : Nat) (c : BitVec 12) : List Nat :=
  match evsBitOf b c with
  | none => []
  | some n =>
    let h := hdr s b
    if h.eve.getLsbD n then
      (s.conns.filter fun e => e.2.events && h.evr.getLsbD e.2.d.toNat).map (·.1)
    else []

/-- The record of a dropped copy (R154). -/
def recordDrop (s : State) (k : Nat) (q : W16) : State :=
  let s := { s with evDrop := s.evDrop + 1 }
  setEvs (recordAt s s.now.frame s.now.slot blkLNK 0x113 (put32 k 10 0 ||| put32 q.toNat 16 16) 0) blkLNK 0x113

/-- Copies of EVENT_DROPPED itself: one of them dropped is recorded and makes no further copies. -/
def copyDrops (s : State) (p0 : W32) : List Nat → State
  | [] => s
  | k :: t =>
    match pushEvent s k 2 blkLNK 0x113 p0 0 with
    | (s, none) => copyDrops s p0 t
    | (s, some q) => copyDrops (recordDrop s k q) p0 t

/-- A copy was dropped: EVENT_DROPPED is recorded and, where enabled, copied. -/
def noteDrop (s : State) (k : Nat) (q : W16) : State :=
  let s := recordDrop s k q
  copyDrops s (put32 k 10 0 ||| put32 q.toNat 16 16) (routeOf s blkLNK 0x113)

/-- Make copies on the listed connections. -/
def copyTo (s : State) (kind : Byte) (b : Nat) (code : BitVec 12) (p0 p1 : W32) : List Nat → State
  | [] => s
  | k :: t =>
    match pushEvent s k kind b code p0 p1 with
    | (s, none) => copyTo s kind b code p0 p1 t
    | (s, some q) => copyTo (noteDrop s k q) kind b code p0 p1 t

/-- An occurrence that arose in frame `fr`, slot `sl`: recorded unless its code is an event, its EVS bit set, its copies made
after the record (R451). -/
def occurAt (s : State) (fr : W32) (sl : BitVec 6) (b : Nat) (c : BitVec 12) (p0 p1 : W32) : State :=
  let s := if isEventOnly c then s else recordAt s fr sl b c p0 p1
  let s := setEvs s b c
  copyTo s (eventKind b) b c p0 p1 (routeOf s b c)

/-- An occurrence now. -/
def occur (s : State) (b : Nat) (c : BitVec 12) (p0 p1 : W32) : State := occurAt s s.now.frame s.now.slot b c p0 p1

/-- A ring's event: recorded and its EVS bit set; its copies go to the ring's domain only (R222). -/
def occurRing (s : State) (b : Nat) (d : Dom) (c : BitVec 12) (p0 p1 : W32) : State :=
  let s := recordAt s s.now.frame s.now.slot b c p0 p1
  let s := setEvs s b c
  let on := match evsBitOf b c with
    | some n => (hdr s b).eve.getLsbD n
    | none => false
  copyTo s (eventKind b) b c p0 p1 (if on then eventConns s d else [])

/-! ### Violations (R25, R27, R179-R181) -/

/-- Where an access came from: a connection, a ring or a mover, or neither (R181). -/
structure Origin where
  conn : BitVec 10 := 0x3FF
  ring : BitVec 6 := 0x3F
deriving DecidableEq, Repr

/-- What failed: the kind of R181, parameter 1 and KEYFORM. -/
structure Viol where
  kind : Nat
  p1 : W32
  keyform : Bool := false
deriving DecidableEq, Repr

def epochOf (s : State) (d : Dom) : W16 := tgetD s.epochs d.toNat 0

/-- Parameter 0 of a VIOLATION record (R181). -/
def violP0 (d : Dom) (v : Viol) (o : Origin) : W32 :=
  put32 d.toNat 4 0 ||| put32 v.kind 4 4 ||| put32 o.conn.toNat 10 8 ||| put32 o.ring.toNat 6 18 |||
    put32 (b2n v.keyform) 1 24

/-- A silent violation: the domain's epoch advances by one and the recorder notes it; no other trace (R27). -/
def violate (s : State) (d : Dom) (v : Viol) (o : Origin) : State :=
  occur { s with epochs := tset s.epochs d.toNat (epochOf s d + 1) } blkDOM 0x206 (violP0 d v o) v.p1

/-! ### Windows, charges and regions (R160-R170) -/

def winBase (s : State) (d : Nat) : Nat := fld (regGet s blkDOM (0x118 + 0x40 * d)) 10 0 * 4096
def winLen (s : State) (d : Nat) : Nat := fld (regGet s blkDOM (0x118 + 0x40 * d)) 27 16 * 4096

/-- The domain whose window holds an address. -/
def windowDom (s : State) (a : Nat) : Option Nat :=
  (List.range 16).find? fun d => decide (winBase s d ≤ a) && decide (a < winBase s d + winLen s d)

/-- The first address of [a, a+n) in charged space, if any (R128, R167). -/
def chargedIn (s : State) (a n : Nat) : Option Nat :=
  s.conns.foldl (fun acc e =>
    let lo := max a e.2.base
    if lo < min (a + n) (e.2.base + e.2.len) then
      match acc with
      | none => some lo
      | some x => some (min x lo)
    else acc) none

/-- The first address of [a, a+n) in a retired page, if any (R444). -/
def retiredIn (s : State) (a n : Nat) : Option Nat :=
  if n = 0 then none
  else match s.retired.find? fun p => decide (a / 4096 ≤ p) && decide (p ≤ (a + n - 1) / 4096) with
    | none => none
    | some p => some (max a (p * 4096))

/-- A region's first address and length; a wide region covers its domain's window (R166). -/
def regionSpan (s : State) (r : Region) : Nat × Nat :=
  if r.wide then (winBase s r.d.toNat, winLen s r.d.toNat) else (r.base, r.len)

/-- Check 2 of R178: index valid, owned by the domain, not DYING, tag equal. -/
def keyed (s : State) (d : Dom) (key : W32) : Option Region :=
  match tget s.regions (key.toNat / 2 ^ 24) with
  | none => none
  | some r => if r.d = d ∧ r.dying = false ∧ r.tag = key.setWidth 24 then some r else none

/-- Checks 5 and 6 of R178 on bytes already inside a region. -/
def checkBytes (s : State) (a n : Nat) : Except Viol Nat :=
  match chargedIn s a n with
  | some x => .error { kind := 10, p1 := BitVec.ofNat 32 x }
  | none =>
    match retiredIn s a n with
    | some x => .error { kind := 5, p1 := BitVec.ofNat 32 x }
    | none => .ok a

/-- Checks 2, 3, 5 and 6 of R178 for an access by key: the buffer address, or what fails. -/
def checkRegion (s : State) (d : Dom) (key : W32) (off n : Nat) (wr : Bool) : Except Viol Nat :=
  match keyed s d key with
  | none => .error { kind := 3, p1 := key }
  | some r =>
    let sp := regionSpan s r
    if (if wr then r.wr else r.rd) && decide (0 < n) && decide (off + n ≤ sp.2) then checkBytes s (sp.1 + off) n
    else .error { kind := 4, p1 := key }

/-- The same for a buffer area that a work entry names, with the rights it needs, READ, WRITE or both: kinds WORK_BUFFER,
CHARGED and RETIRED (R178, R181). -/
def checkWork (s : State) (d : Dom) (key : W32) (off n : Nat) (rd wr : Bool) : Except Viol Nat :=
  match keyed s d key with
  | none => .error { kind := 11, p1 := key, keyform := true }
  | some r =>
    let sp := regionSpan s r
    if (!rd || r.rd) && (!wr || r.wr) && decide (0 < n) && decide (off + n ≤ sp.2) then checkBytes s (sp.1 + off) n
    else .error { kind := 11, p1 := BitVec.ofNat 32 ((sp.1 + off) % 2 ^ 23) }

/-! ### Buffer memory (R428-R440) -/

/-- The byte at a buffer address: what was written last, or the unspecified contents of power-up (R434). -/
def memGet (s : State) (a : Nat) : Byte := tgetD s.mem a (Config.powerUpByte s.powers a)

/-- Whether the byte fails its parity: a written byte holds good parity (R428) unless it is listed as failing. -/
def parityBad (s : State) (a : Nat) : Bool :=
  match tget s.mem a with
  | some _ => s.badMem.contains a
  | none => Config.powerUpParityBad s.powers a

/-- Write one byte with its parity (R18, R428); there is no byte past the 8 MiB. -/
def memSet (s : State) (a : Nat) (b : Byte) : State :=
  if a < 2 ^ 23 then { s with mem := tset s.mem a b, badMem := s.badMem.erase a } else s

/-- Write bytes from an address on. -/
def memWrite (s : State) (a : Nat) : List Byte → State
  | [] => s
  | b :: t => memWrite (memSet s a b) (a + 1) t

/-- `n` bytes from an address on, as stored. -/
def memRead (s : State) (a : Nat) : Nat → List Byte
  | 0 => []
  | n + 1 => memGet s a :: memRead s (a + 1) n

/-- The same with every failing byte as zero (R438). -/
def memReadZeroed (s : State) (a : Nat) : Nat → List Byte
  | 0 => []
  | n + 1 => (if parityBad s a then 0 else memGet s a) :: memReadZeroed s (a + 1) n

/-- The addresses of [a, a+n) whose byte fails. -/
def failing (s : State) (a : Nat) : Nat → List Nat
  | 0 => []
  | n + 1 => if parityBad s a then a :: failing s (a + 1) n else failing s (a + 1) n

/-- The mask of the failing bytes of one word. -/
def failMask (l : List Nat) (w : Nat) : Nat :=
  l.foldl (fun m a => if a / 8 = w then m ||| (1 <<< (a % 8)) else m) 0

/-- The failing words, each once, in rising order. -/
def failWords (l : List Nat) : List Nat := (l.map (· / 8)).eraseDups

/-- Record one failing word of buffer memory for a reader kind, set its PERRMAP bit and load LASTERR (R437, R440). Kind 10 is a
word of the causeway, which lies in no window. -/
def noteParity (s : State) (kind : Nat) (w m : Nat) : State :=
  let dom := if kind = 10 then none else windowDom s (8 * w)
  let p0 := put32 (8 * w) 23 0 ||| put32 kind 4 24
  let p1 := put32 m 8 0 ||| put32 (dom.getD 0) 4 8 ||| put32 (b2n dom.isNone) 1 12
  let le := put (8 * w) 23 0 ||| put kind 4 24 ||| put m 8 28 ||| put (dom.getD 0) 4 36 ||| putB dom.isNone 40 |||
    put (fld s.lastErr 63 48 + 1) 16 48
  occur { s with perr := if kind = 10 then s.perr else ninsert s.perr (8 * w / 4096), lastErr := le } blkBUF 0x801 p0 p1

/-- Report every failing word of the bytes a reader used. -/
def noteFailing (s : State) (kind : Nat) (l : List Nat) : State :=
  (failWords l).foldl (fun s w => noteParity s kind w (failMask l w)) s

/-- Forget what [a, a+n) holds: its contents become unspecified. -/
def memForget (s : State) (a n : Nat) : State :=
  { s with mem := s.mem.filter fun e => decide (e.1 < a) || decide (a + n ≤ e.1)
           badMem := s.badMem.filter fun x => decide (x < a) || decide (a + n ≤ x) }

/-- The form of buffer memory: written bytes in strictly rising order of their addresses, within the 8 MiB. An unlisted
byte has not been written since power-up. -/
abbrev Memory.wf (s : State) : Prop :=
  tsorted s.mem = true ∧ (s.mem.all fun e => decide (e.1 < 2 ^ 23)) = true

end Sys2Proof.Machine
end

