-- ==== Sys2Proof/Machine/Access.lean ====
section
/-! DEFINITION. Who may read and write a register (R551-R555 and the owning chapters' grants), the lock (R550), and the one
way every register write comes in. -/

namespace Sys2Proof.Machine

/-- The fabric serves requests: frame time has begun and no reset, power-on reset or Deep Hold is in force (R3). -/
def live (s : State) : Bool := decide (s.phase = .running)

/-- The fabric accepts requests: frame time runs, READY has been declared, and neither the clock-loss drain nor the harmless
state is in force (R45, R504, R521). -/
def accepting (s : State) : Bool := live s && s.glb.ready && !s.clk.drain && !s.pmu.harmless

/-- OWN.DOMAIN (R552); none for an unassigned mover (R388). -/
def ownerOf (s : State) (b : Nat) : Option Dom :=
  if isMov b then (tget s.movers (b - blkMOV)).map (·.d) else some 0

/-- The RDM value a read shows: bit 0 always set where OWN is 0; only the assigned domain's bit for a mover (R553). -/
def rdmOf (s : State) (b : Nat) : W16 :=
  if isMov b then
    match ownerOf s b with
    | some d => 1#16 <<< d.toNat
    | none => 0
  else (hdr s b).rdm ||| 1

def inRdm (s : State) (d : Dom) (b : Nat) : Bool := (rdmOf s b).getLsbD d.toNat

/-- The owner of a ring of WQS (0x30) or WQC (0x31). -/
def ringOwner (s : State) (b n : Nat) : Option Dom :=
  if b = blkWQS then (tget s.sqs n).map (·.owner) else (tget s.cqs n).map (·.owner)

/-- What the owning chapter grants a domain on reading a block-specific register; none where it says nothing. -/
def readGrant (s : State) (d : Dom) (b o : Nat) : Option Bool :=
  if isMov b then some (decide (ownerOf s b = some d))
  else match b with
  | 0x0D =>
    if o < 0x100 then none
    else
      let e := (o - 0x100) / 0x40
      let r := (o - 0x100) % 0x40
      if r = 0x08 ∨ r = 0x10 then none else some (decide (d.toNat = e) || decide (d = 0))
  | 0x0E =>
    if inRun o 0x80 16 then some (decide (d.toNat = (o - 0x80) / 8))
    else if inRun o 0x100 16 then some (decide (d.toNat = (o - 0x100) / 8) || decide (d = 0))
    else none
  | 0x30 =>
    if inRun o 0x100 16 then some (decide (d.toNat = (o - 0x100) / 8))
    else if 0x200 ≤ o then some (decide (ringOwner s b ((o / 8) % 64) = some d))
    else none
  | 0x31 =>
    if inRun o 0x100 16 then some (decide (d.toNat = (o - 0x100) / 8))
    else if 0x200 ≤ o then some (decide (ringOwner s b ((o / 8) % 64) = some d))
    else none
  | 0x32 =>
    if inRun o 0x100 48 then some (decide (d.toNat = (o / 8) % 16)) else some true
  | 0x35 =>
    if inRun o 0x100 32 then
      some (decide (d = 0) ||
        match tget s.keys ((o - 0x100) / 8) with
        | some k => k.assigned && decide (k.d = d)
        | none => false)
    else if inRun o 0x200 32 then some (decide (d.toNat = (o / 8) % 16))
    else if inRun o 0x400 128 then some (decide (d.toNat = (o - 0x400) / 0x40))
    else none
  | 0x37 =>
    if inRun o 0x300 32 then some (decide (d.toNat = (o - 0x300) / 0x10)) else none
  | _ => none

/-- The same on writing. -/
def writeGrant (s : State) (d : Dom) (b o : Nat) : Option Bool :=
  if isMov b then some (decide (ownerOf s b = some d))
  else match b with
  | 0x0D =>
    if 0x100 ≤ o ∧ (o - 0x100) % 0x40 = 0x30 then some (decide (d.toNat = (o - 0x100) / 0x40)) else none
  | 0x0E =>
    if inRun o 0x80 16 then some (decide (d.toNat = (o - 0x80) / 8))
    else if inRun o 0x100 16 then some (decide (d.toNat = (o - 0x100) / 8) || decide (d = 0))
    else none
  | 0x30 =>
    if o = 0x80 then some true
    else if inRun o 0x100 16 then some (decide (d.toNat = (o - 0x100) / 8))
    else some (decide (ringOwner s b ((o / 8) % 64) = some d))
  | 0x31 =>
    if o = 0x80 then some true
    else if inRun o 0x100 16 then some (decide (d.toNat = (o - 0x100) / 8))
    else some (decide (ringOwner s b ((o / 8) % 64) = some d))
  | 0x32 =>
    if inRun o 0x100 16 ∨ inRun o 0x200 16 then some (decide (d.toNat = (o / 8) % 16)) else some false
  | 0x35 =>
    if inRun o 0x200 32 then some (decide (d.toNat = (o / 8) % 16))
    else if inRun o 0x400 128 then some (decide (d.toNat = (o - 0x400) / 0x40))
    else none
  | 0x37 =>
    if inRun o 0x300 32 then some (decide (d.toNat = (o - 0x300) / 0x10)) else none
  | _ => none

/-- The block-specific offsets of a block. -/
def specificOffsets (b : Nat) : List Nat :=
  (regRuns b).flatMap fun r => (List.range r.2).map fun i => r.1 + 8 * i

def canReadSpecific (s : State) (d : Dom) (b o : Nat) : Bool :=
  match readGrant s d b o with
  | some g => g
  | none => inRdm s d b

/-- R562: the domain may read at least one block-specific register of the block. -/
def readsSome (s : State) (d : Dom) (b : Nat) : Bool := (specificOffsets b).any (canReadSpecific s d b)

/-- A domain may read a listed register (R551, R562); SCH.STAT is open to all (R266). -/
def canRead (s : State) (d : Dom) (b o : Nat) : Bool :=
  if isHeader o then
    inRdm s d b || (decide (o = oSNP) && readsSome s d b) || (decide (b = blkSCH) && decide (o = oSTAT))
  else canReadSpecific s d b o

/-- A domain may write a listed register (R551, R555, R562); nobody may write SCH.STAT (R266). -/
def canWrite (s : State) (d : Dom) (b o : Nat) : Bool :=
  if b = blkSCH ∧ o = oSTAT then false
  else if isHeader o then decide (ownerOf s b = some d) || (decide (o = oSNP) && readsSome s d b)
  else match writeGrant s d b o with
    | some g => g
    | none => decide (ownerOf s b = some d)

/-- A write under the lock is ignored and counted (R550). -/
def denied (s : State) (b : Nat) : State :=
  let h := hdr s b
  setHdr s b { h with denied := h.denied + 1 }

/-- Every register write, which only an accepted request can bring: reserved addresses and missing rights are silent
violations (R546, R551, R178 check 1), the lock is obeyed, and otherwise the register's effect takes place. -/
def guardedWrite (s : State) (d : Dom) (b o : Nat) (og : Origin) (eff : State → State) : State :=
  if !(accepting s) then s
  else if !(listed b o) then violate s d { kind := 6, p1 := BitVec.ofNat 32 (regAddr b o) } og
  else if !(canWrite s d b o) then violate s d { kind := 1, p1 := BitVec.ofNat 32 (regAddr b o) } og
  else if (hdr s b).lock && lockable b o then denied s b
  else eff s

end Sys2Proof.Machine
end

