-- ==== Sys2Proof/Machine/Packet.lean ====
section
/-! DEFINITION. Packets as bytes and characters (R69, R72, R73, R109-R113): the header, the payload of every type, the
CRC-32C, what makes a packet malformed, and the command that a host packet is. -/

namespace Sys2Proof.Machine

/-! ### The header (R109) -/

/-- The 128-bit header; `res11`, `res18` and `res71` are its reserved bits. -/
structure Header where
  type   : Byte
  ackv   : Bool := false
  retx   : Bool := false
  replay : Bool := false
  res11  : BitVec 1 := 0
  node   : BitVec 6
  res18  : BitVec 2 := 0
  lseq   : Byte := 0
  lack   : Byte := 0
  conn   : BitVec 10 := 0
  rseq   : W16 := 0
  len    : BitVec 9
  res71  : BitVec 1 := 0
  arg    : BitVec 56 := 0
deriving DecidableEq, Repr

/-- A header and its payload. -/
structure Packet where
  hd : Header
  payload : List Byte
deriving DecidableEq, Repr

/-- The header's 128 bits, ARG highest. -/
def headerBits (h : Header) : BitVec 128 :=
  h.arg ++ (h.res71 ++ (h.len ++ (h.rseq ++ (h.conn ++ (h.lack ++ (h.lseq ++ (h.res18 ++ (h.node ++ (h.res11 ++
    (BitVec.ofBool h.replay ++ (BitVec.ofBool h.retx ++ (BitVec.ofBool h.ackv ++ h.type))))))))))))

/-- The header that 128 bits spell. -/
def headerOf (b : BitVec 128) : Header :=
  { type := b.extractLsb' 0 8, ackv := b.getLsbD 8, retx := b.getLsbD 9, replay := b.getLsbD 10, res11 := b.extractLsb' 11 1
    node := b.extractLsb' 12 6, res18 := b.extractLsb' 18 2, lseq := b.extractLsb' 20 8, lack := b.extractLsb' 28 8
    conn := b.extractLsb' 36 10, rseq := b.extractLsb' 46 16, len := b.extractLsb' 62 9, res71 := b.extractLsb' 71 1
    arg := b.extractLsb' 72 56 }

/-- The 16 header bytes: bit n lies in bit (n mod 8) of byte n/8. -/
def headerBytes (h : Header) : List Byte := leBytes 16 (headerBits h).toNat

/-- Header and payload, in transmission order. -/
def packetBytes (p : Packet) : List Byte := headerBytes p.hd ++ p.payload

/-- The packet as it travels: its CRC-32C goes last, least significant byte first (R110). -/
def sentBytes (p : Packet) : List Byte := packetBytes p ++ leBytes 4 (crc32c (packetBytes p)).toNat

/-- The packet that header and payload bytes spell; none when they hold no whole header. -/
def packetOfBytes (l : List Byte) : Option Packet :=
  if l.length < 16 then none
  else some { hd := headerOf (BitVec.ofNat 128 (leNat (l.take 16))), payload := l.drop 16 }

/-- The CRC of received bytes is good (R70, R110). -/
def crcGood (l : List Byte) : Bool :=
  decide (20 ≤ l.length) &&
    decide (fieldLE l (l.length - 4) 4 = (crc32c (l.take (l.length - 4))).toNat)

/-! ### Types and malformed packets (R112, R113) -/

def tyBEACON : Byte := 0x01
def tyTICK : Byte := 0x02
def tyJOIN : Byte := 0x03
def tyRANGE : Byte := 0x04
def tyACK : Byte := 0x05
def tyOPEN : Byte := 0x10
def tyOPEN_REPLY : Byte := 0x11
def tyCLOSE : Byte := 0x12
def tyREGION_WRITE : Byte := 0x20
def tyREGION_READ : Byte := 0x21
def tyREG_WRITE : Byte := 0x22
def tyREG_READ : Byte := 0x23
def tyDOORBELL : Byte := 0x24
def tySEND : Byte := 0x25
def tyPOST : Byte := 0x26
def tyRESP : Byte := 0x30
def tyRDATA : Byte := 0x31
def tyEVENT : Byte := 0x38

/-- The types a host may send. -/
def hostTypes : List Byte :=
  [tyTICK, tyJOIN, tyRANGE, tyACK, tyOPEN, tyCLOSE, tyREGION_WRITE, tyREGION_READ, tyREG_WRITE, tyREG_READ, tyDOORBELL, tySEND,
   tyPOST]

/-- The requests on a connection: CONN and RSEQ name it. -/
def isRequest (t : Byte) : Bool :=
  [tyCLOSE, tyREGION_WRITE, tyREGION_READ, tyREG_WRITE, tyREG_READ, tyDOORBELL, tySEND, tyPOST].contains t

/-- A LEN within the range of a host type. -/
def lenInRange (t : Byte) (n : Nat) : Bool :=
  if t = tyTICK ∨ t = tyJOIN ∨ t = tyRANGE ∨ t = tyREG_WRITE then decide (n = 8)
  else if t = tyOPEN then decide (n = 16)
  else if t = tyREGION_WRITE ∨ t = tySEND then decide (1 ≤ n) && decide (n ≤ 256)
  else if t = tyREGION_READ then decide (n = 4)
  else if t = tyPOST then decide (n % 8 = 0) && decide (1 ≤ n / 8) && decide (n / 8 ≤ 8)
  else decide (n = 0)

/-- The ARG bits that a type uses, as ARG bit numbers: every other one is reserved. -/
def argUsed (t : Byte) : BitVec 56 :=
  if t = tyREGION_WRITE ∨ t = tyREGION_READ then 0x7FFFFFFFFFFFFF
  else if t = tyREG_WRITE then 0xFFFFF
  else if t = tyREG_READ then 0x1FFFFFF
  else if t = tyDOORBELL then 0xFFFF3F
  else if t = tySEND then 0x3FF
  else 0

/-- Bits [2:0] of a register address are not zero. -/
def addrSkew (t : Byte) (arg : BitVec 56) : Bool :=
  (decide (t = tyREG_WRITE) || decide (t = tyREG_READ)) && decide (arg.toNat % 8 ≠ 0)

/-- What a REGION_READ or OPEN payload may not hold: a length of 0 or above 256, CREDITS of 0 or above 64, reserved bits. -/
def payloadBad (t : Byte) (p : List Byte) : Bool :=
  if t = tyREGION_READ then decide (leNat p = 0) || decide (256 < leNat p)
  else if t = tyOPEN then
    decide (64 ≤ (byteAt p 8).toNat) || decide (byteAt p 9 = 0) || decide (64 < (byteAt p 9).toNat) ||
      decide (fieldLE p 12 4 ≠ 0)
  else false

/-- The conditions of R113 on a host packet with a good CRC. -/
def malformed (p : Packet) : Bool :=
  let h := p.hd
  !(hostTypes.contains h.type) || decide (h.res11 ≠ 0) || decide (h.res18 ≠ 0) || decide (h.res71 ≠ 0) ||
    decide (h.arg &&& ~~~(argUsed h.type) ≠ 0) || !(lenInRange h.type h.len.toNat) || addrSkew h.type h.arg ||
    payloadBad h.type p.payload || h.replay || decide (h.len.toNat ≠ p.payload.length) ||
    (!(isRequest h.type) && (decide (h.conn ≠ 0) || decide (h.rseq ≠ 0)))

/-- The first four header bytes, as PACKET_REJECTED carries them. -/
def headWord (p : Packet) : W32 := BitVec.ofNat 32 (headerBits p.hd).toNat

/-! ### Host packets (R112, R113, R124, R131) -/

/-- The header of a host packet of a type, out of what `Rx` holds. -/
def rxHeader (rx : Rx) (t : Byte) (n : Nat) : Header :=
  { type := t, ackv := rx.ackv, retx := rx.retx, node := rx.node, lseq := rx.lseq, lack := rx.lack, len := BitVec.ofNat 9 n }

/-- A request packet. -/
def reqPacket (rq : Req) (t : Byte) (arg : Nat) (payload : List Byte) : Packet :=
  { hd := { rxHeader rq.rx t payload.length with conn := rq.conn, rseq := rq.rseq, arg := BitVec.ofNat 56 arg }
    payload := payload }

def tickPacket (rx : Rx) (sequence : Byte) (interval : W32) : Packet :=
  { hd := rxHeader rx tyTICK 8, payload := [sequence, 0, 0, 0] ++ leBytes 4 interval.toNat }

/-- JOIN and RANGE: byte 0 [3:0] the index, bytes 4-7 the nonce. -/
def joinPacket (rx : Rx) (t : Byte) (index : BitVec 4) (nonce : W32) : Packet :=
  { hd := rxHeader rx t 8, payload := [index.setWidth 8, 0, 0, 0] ++ leBytes 4 nonce.toNat }

def ackPacket (rx : Rx) : Packet := { hd := rxHeader rx tyACK 0, payload := [] }

/-- OPEN (R124). -/
def openPacket (rx : Rx) (nonce key : W32) (d : Dom) (events pin : Bool) (credits : Byte) (rseq0 : W16) : Packet :=
  { hd := rxHeader rx tyOPEN 16
    payload := leBytes 4 nonce.toNat ++ leBytes 4 key.toNat ++
      [BitVec.ofNat 8 (d.toNat + 16 * b2n events + 32 * b2n pin), credits] ++ leBytes 2 rseq0.toNat ++ leBytes 4 0 }

/-- ARG of REGION_WRITE and REGION_READ: the region key and the offset. -/
def regionArg (key : W32) (offset : BitVec 23) : Nat := key.toNat + 2 ^ 32 * offset.toNat

def regionWritePacket (rq : Req) (key : W32) (offset : BitVec 23) (data : List Byte) : Packet :=
  reqPacket rq tyREGION_WRITE (regionArg key offset) data

/-- The payload of a REGION_READ: its length. -/
def regionReadPacket (rq : Req) (key : W32) (offset : BitVec 23) (len : W32) : Packet :=
  reqPacket rq tyREGION_READ (regionArg key offset) (leBytes 4 len.toNat)

def regWritePacket (rq : Req) (addr : BitVec 20) (v : W64) : Packet := reqPacket rq tyREG_WRITE addr.toNat (leBytes 8 v.toNat)

def regReadPacket (rq : Req) (addr : BitVec 20) (countM1 : BitVec 5) : Packet :=
  reqPacket rq tyREG_READ (addr.toNat + 2 ^ 20 * countM1.toNat) []

def doorbellPacket (rq : Req) (ring : BitVec 6) (tail : W16) : Packet :=
  reqPacket rq tyDOORBELL (ring.toNat + 256 * tail.toNat) []

def sendPacket (rq : Req) (target : BitVec 10) (data : List Byte) : Packet := reqPacket rq tySEND target.toNat data

def postPacket (rq : Req) (entries : List W64) : Packet := reqPacket rq tyPOST 0 (bytesOf entries)

/-- The packet that a packet command stands for. -/
def packetOf : Instr → Option Packet
  | .tick rx q i _ => some (tickPacket rx q i)
  | .join rx i n => some (joinPacket rx tyJOIN i n)
  | .range rx i n => some (joinPacket rx tyRANGE i n)
  | .ack rx => some (ackPacket rx)
  | .openConn rx n k d e p c q => some (openPacket rx n k d e p c q)
  | .close rq => some (reqPacket rq tyCLOSE 0 [])
  | .regionWrite rq k o l => some (regionWritePacket rq k o l)
  | .regionRead rq k o n => some (regionReadPacket rq k o n)
  | .regWrite rq a v => some (regWritePacket rq a v)
  | .regRead rq a n => some (regReadPacket rq a n)
  | .doorbell rq r t => some (doorbellPacket rq r t)
  | .send rq t l => some (sendPacket rq t l)
  | .post rq es => some (postPacket rq es)
  | .packetRejected _ l => packetOfBytes l
  | _ => none

/-- The link fields of a received header, with the packet's timing. -/
def rxOf (t : Rx) (h : Header) : Rx :=
  { t with node := h.node, ackv := h.ackv, retx := h.retx, lseq := h.lseq, lack := h.lack }

/-- The command that a host packet with a good CRC is: TYPE picks it, and a malformed one is PACKET_REJECTED. `count` is the
core's own count for a TICK. -/
def commandOf (t : Rx) (count : W32) (p : Packet) : Instr :=
  let h := p.hd
  let rx := rxOf t h
  let rq : Req := { rx := rx, conn := h.conn, rseq := h.rseq }
  let l := p.payload
  let key := h.arg.extractLsb' 0 32
  let off := h.arg.extractLsb' 32 23
  if malformed p then .packetRejected rx (packetBytes p)
  else if h.type = tyTICK then .tick rx (byteAt l 0) (BitVec.ofNat 32 (fieldLE l 4 4)) count
  else if h.type = tyJOIN then .join rx ((byteAt l 0).setWidth 4) (BitVec.ofNat 32 (fieldLE l 4 4))
  else if h.type = tyRANGE then .range rx ((byteAt l 0).setWidth 4) (BitVec.ofNat 32 (fieldLE l 4 4))
  else if h.type = tyACK then .ack rx
  else if h.type = tyOPEN then
    .openConn rx (BitVec.ofNat 32 (fieldLE l 0 4)) (BitVec.ofNat 32 (fieldLE l 4 4)) ((byteAt l 8).setWidth 4)
      ((byteAt l 8).getLsbD 4) ((byteAt l 8).getLsbD 5) (byteAt l 9) (BitVec.ofNat 16 (fieldLE l 10 2))
  else if h.type = tyCLOSE then .close rq
  else if h.type = tyREGION_WRITE then .regionWrite rq key off l
  else if h.type = tyREGION_READ then .regionRead rq key off (BitVec.ofNat 32 (leNat l))
  else if h.type = tyREG_WRITE then .regWrite rq (h.arg.extractLsb' 0 20) (BitVec.ofNat 64 (leNat l))
  else if h.type = tyREG_READ then .regRead rq (h.arg.extractLsb' 0 20) (h.arg.extractLsb' 20 5)
  else if h.type = tyDOORBELL then .doorbell rq (h.arg.extractLsb' 0 6) (h.arg.extractLsb' 8 16)
  else if h.type = tySEND then .send rq (h.arg.extractLsb' 0 10) l
  else .post rq (wordsOf (l.length / 8) l)

/-! ### What the MB872 sends (R112, R126, R141, R150) -/

/-- The 8-byte RESP record (R141). -/
def respWord (r : RespRec) : W64 :=
  put r.rseq.toNat 16 0 ||| put r.type.toNat 8 16 ||| put r.rst.toNat 4 24 ||| put r.param.toNat 16 32 |||
    put r.epoch.toNat 16 48

/-- The OPEN_REPLY payload (R126). -/
def openReplyBytes (nonce : W32) (result : Byte) (pinned : Bool) (conn : BitVec 10) (credits : Byte) (evseq epoch : W16) :
    List Byte :=
  leBytes 4 nonce.toNat ++ [result, BitVec.ofNat 8 (b2n pinned)] ++ leBytes 2 conn.toNat ++ [credits, 0] ++
    leBytes 2 evseq.toNat ++ leBytes 2 epoch.toNat ++ leBytes 2 0

/-- The 32-byte EVENT record (R150). -/
def eventBytes (e : EventRec) : List Byte :=
  leBytes 2 e.evseq.toNat ++ [e.kind, e.source] ++ leBytes 2 e.code.toNat ++ leBytes 2 0 ++ leBytes 8 e.time.toNat ++
    leBytes 4 e.p0.toNat ++ leBytes 4 e.p1.toNat ++ leBytes 8 0

/-- The payload, with TYPE, CONN, RSEQ, REPLAY and ARG, of a sequenced packet's content. -/
def bodyHeader (h : Header) : TxBody → Packet
  | .openReply (.openReply n r p c g q e) => { hd := { h with type := tyOPEN_REPLY, len := 16 }, payload := openReplyBytes n r p c g q e }
  | .resp c rep rs =>
    { hd := { h with type := tyRESP, conn := c, replay := rep, len := BitVec.ofNat 9 (8 * rs.length) }
      payload := bytesOf (rs.map respWord) }
  | .rdata rep (.rdata c q rst e d) =>
    { hd := { h with type := tyRDATA, conn := c, rseq := q, replay := rep, len := BitVec.ofNat 9 d.length
                     arg := BitVec.ofNat 56 (rst.toNat + 256 * e.toNat) }
      payload := d }
  | .events c es => { hd := { h with type := tyEVENT, conn := c, len := BitVec.ofNat 9 (32 * es.length) }, payload := es.flatMap eventBytes }
  | .closedEvents c es =>
    { hd := { h with type := tyEVENT, conn := c, len := BitVec.ofNat 9 (32 * es.length) }, payload := es.flatMap eventBytes }
  | _ => { hd := h, payload := [] }

/-- A sequenced packet to a host (R109, R112). -/
def txPacket (node : BitVec 6) (lseq lack : Byte) (ackv retx : Bool) (body : TxBody) : Packet :=
  bodyHeader { type := tyACK, ackv := ackv, retx := retx, node := node, lseq := lseq, lack := lack, len := 0 } body

/-- An ACK to a host. -/
def txAckPacket (node : BitVec 6) (lack : Byte) (ackv : Bool) : Packet :=
  { hd := { type := tyACK, ackv := ackv, node := node, lack := lack, len := 0 }, payload := [] }

/-- The beacon of a segment: NODE is the MB872's own ID (R109, R112). -/
def beaconPacket (g : Seg) (payload : List Byte) : Packet :=
  { hd := { type := tyBEACON, node := BitVec.ofNat 6 (match g with | .a => 0x00 | .b => 0x10 | .c => 0x20)
            len := BitVec.ofNat 9 payload.length }
    payload := payload }

/-! ### Characters (R69, R72, R73) -/

/-- A packet on A and B: nine K28.5, K27.7, the bytes, K29.7. -/
def charsAB (bytes : List Byte) : List (List Sym) :=
  (List.replicate 9 Sym.k285 ++ [Sym.k277] ++ bytes.map Sym.data ++ [Sym.k297]).map fun c => [c]

/-- Bytes on four lanes, byte k on lane k mod 4; K29.7 follows the last one and K28.3 fills its character time. -/
def lanesC : Nat → List Byte → List (List Sym)
  | 0, _ => []
  | n + 1, l =>
    if l.length < 4 then [l.map Sym.data ++ [Sym.k297] ++ List.replicate (3 - l.length) Sym.k283]
    else (l.take 4).map Sym.data :: lanesC n (l.drop 4)

/-- A packet on C: K27.7 on all four lanes, then the bytes. -/
def charsC (bytes : List Byte) : List (List Sym) := List.replicate 4 Sym.k277 :: lanesC (bytes.length / 4 + 1) bytes

/-- The characters of a packet on a segment. -/
def charsOn (g : Seg) (p : Packet) : List (List Sym) :=
  match g with
  | .c => charsC (sentBytes p)
  | _ => charsAB (sentBytes p)

/-- The frame marker on C: K28.1 on four lanes, then the frame count's bytes, the lowest on lane 0. -/
def markerChars (frame : W32) : List (List Sym) :=
  [List.replicate 4 Sym.k281, (leBytes 4 frame.toNat).map Sym.data]

/-- Air time on A and B of characters, in units of 2.5 ns: 40 ns each (R69). -/
def airOf (chars : List (List Sym)) : Nat := 16 * chars.length

end Sys2Proof.Machine
end

