-- ==== Sys2Proof/Machine/Conns.lean ====
section
/-! DEFINITION. Connections (R124-R147): the charge, the context cache, opening and closing, the queue of answers to a
host and the one flow that every request on a connection goes through. -/

namespace Sys2Proof.Machine

/-! ### Links -/

def linkOf (s : State) (node : BitVec 6) : LinkSt := tgetD s.links node.toNat {}
def setLink (s : State) (node : BitVec 6) (l : LinkSt) : State := { s with links := tset s.links node.toNat l }

/-- Queue an answer for a host. -/
def enqueue (s : State) (node : BitVec 6) (q : Queued) : State :=
  let l := linkOf s node
  setLink s node { l with queue := l.queue ++ [q] }

/-- The connection a reply belongs to. -/
def replyConn : Reply → Option Nat
  | .openReply _ _ _ _ _ _ _ => none
  | .resp c _ => some c.toNat
  | .rdata c _ _ _ _ => some c.toNat

/-- Credits come back to an open connection (R134). -/
def returnCredit (s : State) (k : Option Nat) (n : Nat) : State :=
  match k with
  | none => s
  | some k => { s with conns := tmod s.conns k fun c => { c with used := c.used - n } }

def returnCredits (s : State) (qs : List Queued) : State :=
  qs.foldl (fun s q => returnCredit s (replyConn q.reply) q.credit) s

/-! ### The charge (R128, R163) -/

def chargeLen (credits : Nat) : Nat := 9600 + 256 * credits

/-- [a, a+n) overlaps no charged run and no region other than a wide one. -/
def runFree (s : State) (a n : Nat) : Bool :=
  (chargedIn s a n).isNone &&
    s.regions.all fun e => e.2.wide || decide (e.2.base + e.2.len ≤ a) || decide (a + n ≤ e.2.base)

/-- The highest granule from `base` up to `base + 128 k` at which a run of `n` bytes is free. -/
def highestRun (s : State) (base n : Nat) : Nat → Option Nat
  | 0 => if runFree s base n then some base else none
  | k + 1 => if runFree s (base + 128 * (k + 1)) n then some (base + 128 * (k + 1)) else highestRun s base n k

/-- The run a charge takes from a domain's window (R163). -/
def chargeRun (s : State) (d : Dom) (n : Nat) : Option Nat :=
  if winLen s d.toNat < n then none
  else highestRun s (winBase s d.toNat) n ((winLen s d.toNat - n) / 128)

/-! ### The context cache (R129, R130) -/

def pinnedCount (s : State) : Nat := (s.conns.filter fun e => e.2.pinned).length
def pinnedIn (s : State) (d : Dom) : Nat := (s.conns.filter fun e => e.2.pinned && decide (e.2.d = d)).length

def isPinned (s : State) (k : Nat) : Bool :=
  match tget s.conns k with
  | some c => c.pinned
  | none => false

/-- The parts of the charged run, in the order of R128: the replay store, the event queue and the ingress buffers follow
the spill slot. -/
def replayBase (c : Conn) : Nat := c.base + 128
def queueBase (c : Conn) : Nat := c.base + 8576
def ingressBase (c : Conn) : Nat := c.base + 9600

/-- A posted buffer of a spill slot; an empty place holds zero. -/
def postedBytes (l : List W64) (i : Nat) : List Byte := leBytes 8 (l.getD i 0).toNat

/-- The event queue's oldest record, or the next one when it is empty. -/
def queueHead (q : List EventRec) (c : Conn) : Nat :=
  match q with
  | [] => c.evNext
  | e :: _ => e.pos

/-- The 128 bytes of a context's spill slot (R131). -/
def slotImage (s : State) (k : Nat) (c : Conn) : List Byte :=
  let q := queueOf s k c
  leBytes 2 (k % 1024 + 1024 * c.d.toNat + 2 ^ 14 * b2n c.events + 2 ^ 15 * b2n c.pinned) ++
    [c.node.setWidth 8, BitVec.ofNat 8 c.grant, BitVec.ofNat 8 c.used, BitVec.ofNat 8 c.posted.length, 0, 0] ++
    leBytes 2 c.exp.toNat ++ leBytes 2 c.evseq.toNat ++ leBytes 4 c.openFrame.toNat ++ leBytes 4 c.nonce.toNat ++
    leBytes 4 (replayBase c % 2 ^ 23) ++ leBytes 4 (queueBase c % 2 ^ 23) ++ leBytes 4 (ingressBase c % 2 ^ 23) ++
    [BitVec.ofNat 8 (c.exp.toNat % 32), BitVec.ofNat 8 (queueHead q c % 32), BitVec.ofNat 8 q.length] ++ leBytes 5 0 ++
    ((List.range 8).flatMap (postedBytes c.posted)) ++ List.replicate 24 (0 : Byte)

/-- Write a context's spill slot, by words (R18, R131). What changes a spilled context without a request (an event copy made, a
credit returned, a posted buffer filled) changes `State.conns`, which holds the context in either place. -/
def spillContext (s : State) (k : Nat) : State :=
  match tget s.conns k with
  | none => s
  | some c => memWrite s c.base (slotImage s k c)

/-- Make room for one context: a full cache spills its least recently used unpinned one to its slot. -/
def spillOne (s : State) : State :=
  if s.cache.length < 64 then s
  else match s.cache.find? fun k => !(isPinned s k) with
    | none => s
    | some k =>
      let s := spillContext s k
      { s with cache := s.cache.erase k, spills := s.spills + 1 }

/-- Use a context: the most recently used one goes last. -/
def useContext (s : State) (k : Nat) : State :=
  if s.cache.contains k then { s with cache := s.cache.erase k ++ [k] }
  else
    let s := spillOne s
    { s with cache := s.cache ++ [k], loads := s.loads + 1 }

/-- The bytes of a connection's charged structures that fail parity; the parts lie in the order of R128. -/
def chargedFailing (s : State) (a n : Nat) : List Nat := s.badMem.filter fun x => decide (a ≤ x) && decide (x < a + n)

/-! ### The rest state (R32, R33, R487) -/

/-- The smallest budget among domains with open connections, and its domain; the register's reset value with none. -/
def minBudget (s : State) : Nat × Nat :=
  let isOpen (d : Nat) : Bool := s.conns.any fun e => decide (e.2.d.toNat = d)
  match ((List.range 16).filter isOpen).map fun d => (fld (regGet s blkDOM (0x130 + 0x40 * d)) 19 0, d) with
  | [] => (0xFFFFF, 0)
  | x :: t => t.foldl (fun (b y : Nat × Nat) => if y.1 < b.1 then y else b) x

/-- DEEPEST; values above 3 act as 3. -/
def deepest (s : State) : Nat := min 3 (fld (regGet s blkPMU 0x80) 2 0)

/-- The state that the budgets and DEEPEST select: 0 Run, 1 Doze, 2 Nap, 3 Hold. -/
def selectRest (s : State) : Nat :=
  let b := (minBudget s).1
  min (deepest s) (if s.conns.isEmpty then 3 else if b < 2 then 0 else if b < 60 then 1 else if b < 900 then 2 else 3)

/-- The rest state is computed again; a change raises POWER_STATE. -/
def refreshRest (s : State) : State :=
  let n := selectRest s
  let old := s.pmu.rest.toNat
  if n = old then s
  else
    let b := minBudget s
    occur { s with pmu := { s.pmu with rest := BitVec.ofNat 3 n } } blkPMU 0x014 (put32 n 3 0 ||| put32 old 3 3)
      (put32 b.1 20 0 ||| put32 b.2 4 20)

/-! ### Closing (R132) -/

def connP0 (k : Nat) (c : Conn) : W32 := put32 k 10 0 ||| put32 c.d.toNat 4 10 ||| put32 c.node.toNat 6 16

/-- An EVENT packet of a connection that closes carries copies of no connection from then on (R132). -/
def orphan (k : Nat) (p : TxPkt) : TxPkt :=
  match p.body with
  | .events j es => if j.toNat = k then { p with body := .closedEvents j es } else p
  | _ => p

/-- A connection closes: held events and unsent responses go, the charge returns, CONN_CLOSED is recorded. -/
def closeConn (s : State) (k cause : Nat) : State :=
  match tget s.conns k with
  | none => s
  | some c =>
    let l := linkOf s c.node
    let s := setLink s c.node { l with
      queue := l.queue.filter fun q => decide (replyConn q.reply ≠ some k)
      unacked := l.unacked.map (orphan k)
      resend := l.resend.map (orphan k) }
    let s := { s with conns := terase s.conns k, cache := s.cache.erase k }
    refreshRest (occur s blkCON 0x202 (connP0 k c) (BitVec.ofNat 32 cause))

/-- Every connection of a node closes (R94, R96). -/
def closeNode (s : State) (node : BitVec 6) (cause : Nat) : State :=
  ((s.conns.filter fun e => decide (e.2.node = node)).map (·.1)).foldl (fun s k => closeConn s k cause) s

/-! ### Opening (R125-R130, R156) -/

/-- The admission rule (R156). -/
def admits (s : State) (d : Dom) (node : BitVec 6) (key : W32) : Bool :=
  bit (regGet s blkDOM (0x100 + 0x40 * d.toNat)) 0 &&
  bit (regGet s blkDOM (0x108 + 0x40 * d.toNat)) node.toNat &&
  decide ((regGet s blkDOM (0x110 + 0x40 * d.toNat)).setWidth 32 = key)

/-- CON.CFG.MAXCRED: 0 acts as 1, above 64 as 64. -/
def maxCred (s : State) : Nat :=
  let m := fld (regGet s blkCON 0x80) 6 0
  if m = 0 then 1 else min m 64

/-- The connection an OPEN with this nonce already made (R127). -/
def sameOpen (s : State) (node : BitVec 6) (d : Dom) (nonce : W32) : Option (Nat × Conn) :=
  s.conns.find? fun e => decide (e.2.node = node) && decide (e.2.d = d) && decide (e.2.nonce = nonce)

def openReplyOf (s : State) (d : Dom) (nonce : W32) (k : Nat) (c : Conn) : Reply :=
  .openReply nonce 0 c.pinned (BitVec.ofNat 10 k) (BitVec.ofNat 8 c.grant) c.evseq (epochOf s d)

def refusedReply (s : State) (d : Dom) (nonce : W32) (result : Byte) : Reply :=
  .openReply nonce result false 0 0 0 (epochOf s d)

/-- A refused OPEN is recorded and answered (R125). -/
def refuseOpen (s : State) (node : BitVec 6) (d : Dom) (nonce : W32) (result : Byte) : State :=
  let s := occur s blkCON 0x203 (put32 node.toNat 6 0 ||| put32 d.toNat 4 8 ||| put32 result.toNat 2 12) 0
  enqueue s node { reply := refusedReply s d nonce result, replay := false, credit := 0 }

/-- An accepted OPEN: charged, numbered, recorded, answered; an armed Deep Hold is disarmed (R125, R490). -/
def acceptOpen (s : State) (node : BitVec 6) (nonce : W32) (d : Dom) (events pin : Bool) (credits : Nat) (rseq0 : W16)
    (k a : Nat) : State :=
  let pinned := pin && decide (pinnedCount s < 32) &&
    decide (pinnedIn s d < fld (regGet s blkCON 0x88) (4 * d.toNat + 3) (4 * d.toNat))
  let grant := min credits (maxCred s)
  let c : Conn := { d := d, events := events, pinned := pinned, node := node, grant := grant, used := 0, nonce := nonce
                    exp := rseq0, openFrame := s.now.frame, base := a, len := chargeLen grant }
  let s := memForget s a (chargeLen grant)
  let s := spillOne s
  let s := { s with conns := tset s.conns k c, cache := s.cache ++ [k], pmu := { s.pmu with armed := false } }
  let s := refreshRest (occur s blkCON 0x201 (connP0 k c) nonce)
  enqueue s node { reply := openReplyOf s d nonce k c, replay := false, credit := 0 }

/-- The steps of R125. -/
def judgeOpen (s : State) (node : BitVec 6) (nonce key : W32) (d : Dom) (events pin : Bool) (credits : Nat) (rseq0 : W16) :
    State :=
  if !(admits s d node key) then
    refuseOpen (violate s d { kind := 8, p1 := put32 node.toNat 6 0 } {}) node d nonce 1
  else match sameOpen s node d nonce with
    | some (k, c) => enqueue s node { reply := openReplyOf s d nonce k c, replay := false, credit := 0 }
    | none =>
      match tlowestFree s.conns 1024 with
      | none => refuseOpen s node d nonce 2
      | some k =>
        match chargeRun s d (chargeLen (min credits (maxCred s))) with
        | none => refuseOpen s node d nonce 3
        | some a => acceptOpen s node nonce d events pin credits rseq0 k a

/-! ### Requests and responses (R133-R147) -/

def rstDONE : BitVec 4 := 0
def rstSTALE : BitVec 4 := 1
def rstGAP : BitVec 4 := 2
def rstNO_CONN : BitVec 4 := 3
def rstNO_BUFFER : BitVec 4 := 4
def rstPARITY : BitVec 4 := 5

/-- What executing a request gives: RST, PARAM and, for a read, the data. -/
structure Answered where
  rst : BitVec 4
  param : W16 := 0
  data : List Byte := []
deriving DecidableEq, Repr

/-- REGION_READ and REG_READ are answered by RDATA, every other request by RESP (R137). -/
def isReadType (t : Byte) : Bool := t == 0x21 || t == 0x23

/-- The response packet content (R112, R141). -/
def mkReply (conn : BitVec 10) (rseq : W16) (type : Byte) (epoch : W16) (a : Answered) : Reply :=
  if isReadType type then .rdata conn rseq a.rst epoch a.data
  else .resp conn { rseq := rseq, type := type, rst := a.rst, param := a.param, epoch := epoch }

/-- One credit for each started 256 bytes of payload (R134). -/
def reqCost (len : Nat) : Nat := (len + 255) / 256

/-- The stored response of a request sequence. -/
def storedReply (c : Conn) (rseq : W16) : Option Reply := (c.replay.find? fun e => e.1 == rseq).map (·.2)

/-- The replay store keeps the last 32 responses (R128, R146). -/
def storeReply (c : Conn) (rseq : W16) (r : Reply) : Conn :=
  let l := c.replay ++ [(rseq, r)]
  { c with replay := l.drop (l.length - 32) }

/-- The request is open for the node (R133). -/
def connFor (s : State) (conn : BitVec 10) (node : BitVec 6) : Option Conn :=
  match tget s.conns conn.toNat with
  | some c => if c.node = node then some c else none
  | none => none

/-- A request of an open connection, judged by its sequence (R146). `run` carries out a new request on the state whose
EXPSEQ has advanced; a request other than CLOSE whose own effect closes its connection gets no response (R132). -/
def judgeRequest (s : State) (rq : Req) (type : Byte) (len : Nat) (c : Conn) (run : State → Conn → State × Answered) : State :=
  let k := rq.conn.toNat
  let dd := (rq.rseq - c.exp).toNat
  let cost := reqCost len
  let answer (s : State) (a : Answered) (replay : Bool) : State :=
    enqueue s rq.rx.node { reply := mkReply rq.conn rq.rseq type (epochOf s c.d) a, replay := replay, credit := cost }
  let stale (s : State) : State := answer (occur s blkCON 0x205 (put32 k 10 0) (put32 rq.rseq.toNat 16 0)) { rst := rstSTALE } false
  let s := { s with conns := tset s.conns k { c with used := c.used + cost } }
  if dd = 0 then
    let s := { s with conns := tmod s.conns k fun c => { c with exp := c.exp + 1 } }
    let r := run s c
    let rep := mkReply rq.conn rq.rseq type (epochOf r.1 c.d) r.2
    if (tget r.1.conns k).isNone ∧ type ≠ 0x12 then r.1
    else
      let s := { r.1 with conns := tmod r.1.conns k fun c => storeReply c rq.rseq rep }
      enqueue s rq.rx.node { reply := rep, replay := false, credit := cost }
  else if 65504 ≤ dd then
    match storedReply c rq.rseq with
    | none => stale s
    | some rep =>
      let s := occur s blkCON 0x204 (put32 k 10 0) (put32 rq.rseq.toNat 16 0)
      let bad := chargedFailing s (replayBase c + 264 * (rq.rseq.toNat % 32)) 264
      if bad.isEmpty then enqueue s rq.rx.node { reply := rep, replay := true, credit := cost }
      else answer (noteFailing s 8 bad) { rst := rstPARITY } true
  else if 32768 ≤ dd then stale s
  else answer s { rst := rstGAP } false

end Sys2Proof.Machine
end

