-- ==== Sys2Proof/Machine/Link.lean ====
section
/-! DEFINITION. The link layer (R114-R123): acknowledgements, the judgement of a link sequence, what the MB872 sends when it
may, link loss and link restart. -/

namespace Sys2Proof.Machine

/-! ### Acknowledgement (R116, R119) -/

/-- The packets left after an acknowledgement up to and including `lack`; all of them when it covers none. -/
def dropAcked (l : List TxPkt) (lack : Byte) : List TxPkt :=
  match l with
  | [] => []
  | p :: t =>
    let n := (lack - p.lseq).toNat + 1
    if n ≤ (p :: t).length then (p :: t).drop n else p :: t

/-- A LACK acknowledges; what it does not cover is sent again (R119, second trigger; A and B only). -/
def takeLack (l : LinkSt) (onC : Bool) (lack : Byte) : LinkSt :=
  let u := dropAcked l.unacked lack
  let l := { l with unacked := u, txAck := if u.length < l.unacked.length then lack else l.txAck }
  { l with resend := if onC then l.resend.filter (fun p => u.contains p) else u }

/-! ### Sequences (R115) -/

inductive SeqJudge
  | inOrder | duplicate | ahead
deriving DecidableEq, Repr

def judgeSeq (l : LinkSt) (lseq : Byte) : SeqJudge :=
  let d := (lseq - l.rxExp).toNat
  if d = 0 then .inOrder else if 128 ≤ d then .duplicate else .ahead

/-- Accept at link level: expected advances. -/
def takeIn (l : LinkSt) : LinkSt := { l with rxExp := l.rxExp + 1, rxAny := true, gotUp := true, heard := true }

/-! ### Sending (R114, R117, R123) -/

def lackOf (l : LinkSt) : Byte := l.rxExp - 1

/-- A queued answer that goes before read data (R123). -/
def isReply : Queued → Bool
  | { reply := .rdata _ _ _ _ _, .. } => false
  | _ => true

/-- The responses of one connection, all replayed or all fresh, that fill one RESP packet: at most 32 (R112, R123). -/
def packResp (conn : BitVec 10) (replay : Bool) (room : Nat) : List Queued → List RespRec × List Queued × List Queued
  | [] => ([], [], [])
  | q :: t =>
    match q.reply with
    | .resp c r =>
      if c = conn ∧ q.replay = replay ∧ 0 < room then
        let x := packResp conn replay (room - 1) t
        (r :: x.1, q :: x.2.1, x.2.2)
      else
        let x := packResp conn replay room t
        (x.1, x.2.1, q :: x.2.2)
    | _ =>
      let x := packResp conn replay room t
      (x.1, x.2.1, q :: x.2.2)

/-- Take the first queued reply out. -/
def takeFirst (p : Queued → Bool) : List Queued → Option (Queued × List Queued)
  | [] => none
  | q :: t =>
    if p q then some (q, t)
    else match takeFirst p t with
      | none => none
      | some (x, r) => some (x, q :: r)

/-- The segment of a node. -/
def nodeSeg (node : BitVec 6) : Seg := if node.toNat < 16 then .a else if node.toNat < 32 then .b else .c

/-- The characters of a packet go out on the node's segment. -/
def emitPacket (s : State) (node : BitVec 6) (l : LinkSt) (lseq : Byte) (retx : Bool) (body : TxBody) : State :=
  emit s (.packet node lseq (lackOf l) l.rxAny retx body
    (charsOn (nodeSeg node) (txPacket node lseq (lackOf l) l.rxAny retx body)))

/-- An ACK goes out. -/
def emitAck (s : State) (node : BitVec 6) (l : LinkSt) : State :=
  emit s (.ackPkt node (lackOf l) l.rxAny (charsOn (nodeSeg node) (txAckPacket node (lackOf l) l.rxAny)))

/-- A new packet goes out with the next LSEQ and waits for its acknowledgement. -/
def sendNew (s : State) (node : BitVec 6) (body : TxBody) (queue : List Queued) (sent : List Queued) : State :=
  let l := linkOf s node
  let s := emitPacket s node l l.txNext false body
  let s := setLink s node
    { l with txNext := l.txNext + 1, unacked := l.unacked ++ [{ lseq := l.txNext, body := body, sent := cycles s }]
             queue := queue, owed := false }
  returnCredits s sent

/-- The failing bytes of a queued copy's record (R438 kind 9). -/
def copyFailing (s : State) (c : Conn) (e : EventRec) : List Nat := chargedFailing s (queueBase c + 32 * e.pos) 32

/-- The next copies of a connection to be sent, up to 8 in one EVENT packet (R112, R123): those whose record fails parity
are dropped and recorded (R438). -/
def dropFailing (s : State) (k : Nat) (c : Conn) : State :=
  (c.held.take 8).foldl (fun s e =>
    let bad := copyFailing s c e
    if bad.isEmpty then s
    else
      let s := noteFailing s 9 bad
      noteDrop { s with conns := tmod s.conns k fun c => { c with held := c.held.filter fun x => decide (x.evseq ≠ e.evseq) } }
        k e.evseq) s

/-- Whether a copy stands among those next to be sent. -/
def isNext (es : List EventRec) (e : EventRec) : Bool := es.any fun x => decide (x.evseq = e.evseq)

/-- Send the held copies of a node's connections: the first connection with a good copy sends up to 8; none when no copy is
good. Other connections' copies do not wait for a failing one (R153). -/
def sendEvents (s : State) (node : BitVec 6) : List Nat → State × Bool
  | [] => (s, false)
  | k :: t =>
    match tget s.conns k with
    | none => sendEvents s node t
    | some c =>
      let es := (c.held.take 8).filter fun e => (copyFailing s c e).isEmpty
      let s := dropFailing s k c
      if es.isEmpty then sendEvents s node t
      else
        let s := { s with conns := tmod s.conns k fun c => { c with held := c.held.filter fun e => !(isNext es e) } }
        (sendNew s node (.events (BitVec.ofNat 10 k) es) (linkOf s node).queue [], true)

/-- The connections of a node with held copies, the lowest number first. DESIGN CHOICE: the manual orders no two
connections (R145, R153). -/
def heldConns (s : State) (node : BitVec 6) : List Nat :=
  (s.conns.filter fun e => decide (e.2.node = node) && !e.2.held.isEmpty).map (·.1)

/-- The packet of this LSEQ has been sent again now. -/
def markSent (now : Nat) (lseq : Byte) (l : List TxPkt) : List TxPkt :=
  l.map fun p => if p.lseq = lseq then { p with sent := now } else p

/-- The first queued answer of any kind, read data last (R123). -/
def sendQueued (s : State) (node : BitVec 6) (q : Queued) (rest queue : List Queued) : State :=
  match q.reply with
  | .resp conn _ =>
    let x := packResp conn q.replay 32 queue
    sendNew s node (.resp conn q.replay x.1) x.2.2 x.2.1
  | .openReply _ _ _ _ _ _ _ => sendNew s node (.openReply q.reply) rest [q]
  | .rdata _ _ _ _ _ => sendNew s node (.rdata q.replay q.reply) rest [q]

/-- The MB872 holds traffic for the host that has not been sent: answers or event copies (R117). -/
def waiting (s : State) (node : BitVec 6) : Bool := !(linkOf s node).queue.isEmpty || !(heldConns s node).isEmpty

/-- An ACK, when one is owed, or when traffic waits and nothing else may go (R117). -/
def sendAck (s : State) (node : BitVec 6) (due : Bool) : State :=
  let l := linkOf s node
  if l.owed || due then setLink (emitAck s node l) node { l with owed := false } else s

/-- What the MB872 sends to a host when it may: a retransmission; an OPEN_REPLY, responses or events, and after them read
data; or an acknowledgement (R117, R123). `due`: a packet must go when traffic waits. Queued answers go before events, in
their order of queuing. DESIGN CHOICE: R123 orders only read data after the others. -/
def sendOne (s : State) (node : BitVec 6) (due : Bool) : State :=
  let l := linkOf s node
  match l.resend with
  | p :: t =>
    let s := emitPacket s node l p.lseq true p.body
    setLink s node { l with resend := t, retx := l.retx + 1, owed := false, unacked := markSent (cycles s) p.lseq l.unacked }
  | [] =>
    if 16 ≤ l.unacked.length then sendAck s node (due && waiting s node)
    else match takeFirst isReply l.queue with
      | some (q, rest) => sendQueued s node q rest l.queue
      | none =>
        let r := sendEvents s node (heldConns s node)
        if r.2 then r.1
        else match (linkOf r.1 node).queue with
          | q :: rest => sendQueued r.1 node q rest (q :: rest)
          | [] => sendAck r.1 node false

/-! ### Loss and restart (R121, R122) -/

def carriesEvents (p : TxPkt) : Bool :=
  match p.body with
  | .events _ _ => true
  | .closedEvents _ _ => true
  | _ => false

/-- LINK_LOST: queued and unacknowledged answers go, event copies stay (R121). -/
def linkLose (s : State) (node : BitVec 6) : State :=
  let l := linkOf s node
  let s := returnCredits s l.queue
  setLink s node { l with lost := true, queue := [], unacked := l.unacked.filter carriesEvents, resend := [], silent := 0 }

/-- Both link sequences restart at 0 (R122). -/
def linkRestart (s : State) (node : BitVec 6) : State :=
  let l := linkOf s node
  let s := returnCredits s l.queue
  let s := { s with conns := s.conns.map fun e =>
    if e.2.node = node then (e.1, { e.2 with held := copiesOf e.1 l.unacked ++ e.2.held }) else e }
  setLink s node { retx := l.retx }

end Sys2Proof.Machine
end

