-- ==== Sys2Proof/Machine/Segments.lean ====
section
/-! DEFINITION. The segments (chapter 03): slot maps, the classification of what arrives, joining and ranging, muting,
interference counts, segment C's alignment, and the beacon. -/

namespace Sys2Proof.Machine

/-! ### Access to the segments -/

def segAB (s : State) : Seg → SegAB
  | .b => s.segB
  | _ => s.segA

def setSegAB (s : State) (g : Seg) (v : SegAB) : State :=
  match g with
  | .a => { s with segA := v }
  | .b => { s with segB := v }
  | .c => s

/-- The node ID of an index on a segment. -/
def nodeId (g : Seg) (i : BitVec 4) : BitVec 6 := BitVec.ofNat 6 (segNum g * 16 + i.toNat)
def nodeIdx (n : BitVec 6) : Nat := n.toNat % 16
def onSeg (g : Seg) (n : BitVec 6) : Bool := decide (n.toNat / 16 = segNum g)

def nodeSt (g : SegAB) (i : Nat) : NodeSt := tgetD g.nodes i {}
def setNode (g : SegAB) (i : Nat) (n : NodeSt) : SegAB := { g with nodes := tset g.nodes i n }
def isJoined (n : NodeSt) : Bool := n.joined
def joinedCount (g : SegAB) : Nat := (g.nodes.filter fun e => isJoined e.2).length

/-- Frame time runs and the segment is enabled. -/
def frameOn (s : State) (g : Seg) : Bool :=
  live s && !s.clk.noTime && !s.clk.stopped && bit (regGet s (segBlk g) 0x80) 0

/-- Packets are received and counted: frame time runs, the segment is enabled, and C's lanes are aligned (R75, R92, R106,
R518). -/
def segOn (s : State) (g : Seg) : Bool :=
  frameOn s g &&
    match g with
    | .c => decide (s.segC.aligned = 0xF)
    | _ => true

/-- Beacons are sent: frame time runs outside the drain and the harmless state (R504, chapter 02). -/
def beaconOn (s : State) (g : Seg) : Bool := segOn s g && !s.clk.drain && !s.pmu.harmless

/-- The node of the host on C; index 0 while none has joined. -/
def cNode (s : State) : BitVec 6 :=
  match s.segC.host with
  | some h => nodeId .c h.index
  | none => nodeId .c 0

/-- The node ID of the timekeeper (R54, R88). -/
def tkNode (s : State) : Option (BitVec 6) :=
  s.clk.tk.map fun k => if onSeg .c k.node then cNode s else k.node

/-! ### The map in effect (R80-R85) -/

/-- The pending map has reached its activation frame. -/
def pendReached (p : PendMap) (f : W32) : Bool := decide ((f - p.act).toNat < 2 ^ 31)

/-- Map, version and strait code in effect in frame f. -/
def effMap (g : SegAB) (f : W32) : List Byte × Byte × BitVec 4 :=
  match g.pend with
  | some p => if pendReached p f then (p.map, p.ver, p.strait) else (g.map, g.ver, g.strait)
  | none => (g.map, g.ver, g.strait)

/-- Byte 1 of a map: KIND 2 with the timekeeper's index when it is on this segment (R81). -/
def tickByte (s : State) (g : Seg) : Byte :=
  match tkNode s with
  | some n => if onSeg g n then BitVec.ofNat 8 (0x80 + nodeIdx n) else 0x80
  | none => 0x80

/-- A map as it reads: bytes 0 and 1 are fixed (R81). -/
def shownMap (s : State) (g : Seg) (m : List Byte) : List Byte := patch m 0 [0x00, tickByte s g]

def slotByte (s : State) (g : Seg) (k : Nat) : Byte := byteAt (shownMap s g (effMap (segAB s g) s.now.frame).1) k
def slotKind (b : Byte) : Nat := b.toNat / 64
def slotDown (b : Byte) : Bool := b.getLsbD 4
def slotIdx (b : Byte) : Nat := b.toNat % 16

/-- Half a strait in units of 2.5 ns (R79, R97). -/
def halfStrait (s : State) (g : Seg) : Int := 50 + 25 * ((effMap (segAB s g) s.now.frame).2.2.toNat : Nat)

/-! ### Reception (R78, R87, R92, R97-R101) -/

inductive EdgeClass
  | clean | near | hit
deriving DecidableEq, Repr

/-- R97; a slot is 6250 units of 2.5 ns, 0.1 µs is 40. -/
def edgeClass (half e : Int) (air : Nat) : EdgeClass :=
  if -(half - 40) ≤ e ∧ e ≤ half - 40 then .clean
  else if 0 ≤ half + e ∧ half + e + air ≤ 6250 then .near
  else .hit

/-- The packet runs into the following slot (R99). -/
def overruns (half e : Int) (air : Nat) : Bool := decide (6250 < half + e + air)

/-- SEGx.EDGE without its victim: NODE, SLOT, HIT, OFFSET. -/
def edgeP0 (node slot : BitVec 6) (hit : Bool) (e : Int) : W32 :=
  put32 node.toNat 6 0 ||| put32 slot.toNat 6 6 ||| put32 (b2n hit) 1 12 ||| put32 (ofSint e 16) 16 16

def edgeP1 (victim : Option (BitVec 6)) : W32 :=
  match victim with
  | some v => put32 v.toNat 6 0 ||| put32 1 1 6
  | none => 0

/-- A foreign packet: discarded, counted, recorded (R87). -/
def foreign (s : State) (g : Seg) (node slot : BitVec 6) : State :=
  let sg := segAB s g
  let s := setSegAB s g { sg with foreign := sg.foreign + 1 }
  occur s (segBlk g) 0x109 (put32 node.toNat 6 0 ||| put32 slot.toNat 6 6 ||| put32 (segNum g) 2 12) 0

/-- An overrunning hit is written once its victim is known (R99). -/
def writeHit (s : State) (g : Seg) (h : PendHit) : State :=
  let p0 := edgeP0 h.node h.slot true (sint h.edge.toNat 16)
  let p1 := edgeP1 h.victim
  let sg := segAB s g
  let s := setSegAB s g { sg with pendHits := sg.pendHits.erase h, edge := if sg.edge.setWidth 32 = p0 then p1 ++ p0 else sg.edge }
  occurAt s h.frame h.slot (segBlk g) 0x102 p0 p1

/-- Write the waiting hits when slot `k` has begun after their following slot, or when that slot has ended. -/
def settleHit (s : State) (g : Seg) (k : Nat) : State :=
  (segAB s g).pendHits.foldl (fun s h => if h.frame = s.now.frame ∧ k ≤ h.slot.toNat + 1 then s else writeHit s g h) s

/-- Enter a slot of segment A or B: a new slot has taken no packet yet (R78). -/
def enterSlot (s : State) (g : Seg) (k : BitVec 6) : State :=
  settleHit (atSlot s k) g k.toNat

/-- The node is muted or must range, or will be when MUTE_END is carried out (R101). -/
def silenced (n : NodeSt) : Bool :=
  match n.state with
  | .muted => !(decide (n.muteLeft = 0) && n.rangedEarly)
  | .mustRange => true
  | _ => false

/-- A near packet is processed, counted, recorded and advised (R97, R98). -/
def nearPacket (s : State) (g : Seg) (rx : Rx) : State :=
  let i := nodeIdx rx.node
  let sg := segAB s g
  let n := nodeSt sg i
  let p0 := edgeP0 rx.node rx.slot false rx.edge
  let sg := setNode sg i { n with near := n.near + 1, hitrun := 0 }
  let s := setSegAB s g { sg with edge := p0.setWidth 64, advise := tset sg.advise i (BitVec.ofInt 16 rx.edge) }
  occur s (segBlk g) 0x101 p0 0

/-- The third consecutive hit mutes the node, a timekeeper that is not joined among them (R100, R101). -/
def countHit (s : State) (g : Seg) (node : BitVec 6) : State :=
  let i := nodeIdx node
  let sg := segAB s g
  let n := nodeSt sg i
  if 2 ≤ n.hitrun then
    let s := setSegAB s g (setNode sg i { n with hitrun := 0, state := .muted, muteLeft := 9, rangedEarly := false, rerange := false })
    occur s (segBlk g) 0x103 (put32 node.toNat 6 0) s.now.frame
  else setSegAB s g (setNode sg i { n with hitrun := n.hitrun + 1 })

/-- A hit packet is discarded, counted, recorded and advised (R97-R101). -/
def hitPacket (s : State) (g : Seg) (rx : Rx) : State :=
  let i := nodeIdx rx.node
  let sg := segAB s g
  let n := nodeSt sg i
  let p0 := edgeP0 rx.node rx.slot true rx.edge
  let sg := setNode sg i { n with hits := n.hits + 1 }
  let late := overruns (halfStrait s g) rx.edge rx.air
  let sg := { sg with
    edge := p0.setWidth 64
    advise := tset sg.advise i (BitVec.ofInt 16 rx.edge)
    pendHits := if late then sg.pendHits ++ [{ slot := rx.slot, node := rx.node, edge := BitVec.ofInt 16 rx.edge, frame := s.now.frame
                                               victim := none }]
                else sg.pendHits }
  let s := setSegAB s g sg
  let s := if late then s else occur s (segBlk g) 0x102 p0 0
  countHit s g rx.node

/-- The slot has taken its packet (R78). -/
def takeSlot (s : State) (g : Seg) (k : BitVec 6) : State :=
  setSegAB s g { segAB s g with taken := some k }

/-- A packet with a good CRC came in the name of a node of the segment: it has not been silent (R94). -/
def noteGood (s : State) (g : Seg) (node : BitVec 6) : State :=
  let i := nodeIdx node
  let sg := segAB s g
  let n := nodeSt sg i
  if onSeg g node && isJoined n then setSegAB s g (setNode sg i { n with lastGood := s.frames }) else s

/-- The start of a packet, in units of 2.5 ns from the frame boundary. -/
def rxStart (s : State) (rx : Rx) : Int := 6250 * (rx.slot.toNat : Int) + halfStrait s rx.seg + rx.edge

/-- The part's own TXEN is high during some of the packet: from 40 ns before its own packet to its end (R66, R68). -/
def deafTo (s : State) (rx : Rx) : Bool :=
  match (segAB s rx.seg).tx with
  | none => false
  | some t =>
    let a : Int := 6250 * t.slot.toNat + t.start
    decide (rxStart s rx < a + t.len) && decide (a - 16 < rxStart s rx + rx.air)

/-- SEGx_TXEN: high while the part sends (R66, R79). -/
def txenPin (s : State) (g : Seg) : Bool :=
  match (segAB s g).tx with
  | none => false
  | some t =>
    frameOn s g && decide (t.slot = s.now.slot) && decide (t.start ≤ s.now.sub.toNat + 16) &&
      decide (s.now.sub.toNat < t.start + t.len)

/-- Segment C's transmitters are driven, off common-mode idle (R30, R73). -/
def segcDriven (s : State) : Bool := frameOn s .c && !s.clk.drain && !s.pmu.harmless

/-- The slot may carry the packet: the tick slot a TICK of the timekeeper, an UP slot its own index (R87, R111). -/
def rightSlot (s : State) (rx : Rx) (tick : Bool) : Bool :=
  let g := rx.seg
  let i := nodeIdx rx.node
  let b := slotByte s g rx.slot.toNat
  onSeg g rx.node &&
    (if rx.slot = 1 then tick && decide (tkNode s = some rx.node)
     else decide (slotKind b = 1) && !(slotDown b) && decide (slotIdx b = i) && decide (1 ≤ i) && decide (i ≤ 14))

/-- A packet of segment A or B other than JOIN and RANGE: does it pass to its reader? `tick` tells a TICK. -/
def receiveAB (s : State) (rx : Rx) (tick : Bool) : State × Bool :=
  let g := rx.seg
  if !(segOn s g) || deafTo s rx then (s, false)
  else
    let s := noteGood (enterSlot s g rx.slot) g rx.node
    if (segAB s g).taken = some rx.slot then (s, false)
    else
      let s := takeSlot s g rx.slot
      let i := nodeIdx rx.node
      let n := nodeSt (segAB s g) i
      if onSeg g rx.node && silenced n then (s, false)
      else
        if !(rightSlot s rx tick) then (foreign s g rx.node rx.slot, false)
        else if !(isJoined n) && decide (rx.slot ≠ 1) then (s, false)
        else
          match edgeClass (halfStrait s g) rx.edge rx.air with
          | .clean => (setSegAB s g (setNode (segAB s g) i { nodeSt (segAB s g) i with hitrun := 0 }), true)
          | .near => (nearPacket s g rx, true)
          | .hit => (hitPacket s g rx, false)

/-- A packet of segment C other than JOIN: it must come from the joined host over an aligned link, and shows that the host
sends (R76, R111). -/
def receiveC (s : State) (rx : Rx) : State × Bool :=
  if !(segOn s .c) then (s, false)
  else match s.segC.host with
    | none => (s, false)
    | some h =>
      if rx.node = nodeId .c h.index then ({ s with segC := { s.segC with host := some { h with lastGood := s.frames } } }, true)
      else (s, false)

/-- Any packet other than TICK, JOIN and RANGE. -/
def receive (s : State) (rx : Rx) : State × Bool :=
  match rx.seg with
  | .c => receiveC s rx
  | _ => receiveAB s rx false

/-- The host's link is up and it may be sent to: joined, neither muted nor required to range (R117, R153). -/
def reachable (s : State) (node : BitVec 6) : Bool :=
  !(linkOf s node).lost &&
  if onSeg .c node then
    (match s.segC.host with
     | some h => decide (nodeId .c h.index = node) && decide (s.segC.aligned = 0xF)
     | none => false)
  else
    let g : Seg := if onSeg .a node then .a else .b
    (onSeg .a node || onSeg .b node) && decide ((nodeSt (segAB s g) (nodeIdx node)).state = .joined)

/-! ### Joining and ranging (R91-R94, R592) -/

def ansADVISE : BitVec 4 := 1
def ansRANGED : BitVec 4 := 2
def ansJOINED : BitVec 4 := 3
def ansREFUSED_FULL : BitVec 4 := 4
def ansREFUSED_DUPLICATE : BitVec 4 := 5
def ansNOT_JOINED : BitVec 4 := 6

def answerAB (s : State) (g : Seg) (i : Nat) (kind : BitVec 4) (v : W16) : State :=
  let sg := segAB s g
  setSegAB s g { sg with answers := tset sg.answers i { kind := kind, value := v } }

/-- A refused JOIN or RANGE is recorded and answered. -/
def refuseAB (s : State) (g : Seg) (i : BitVec 4) (kind : BitVec 4) (nonce : W32) : State :=
  let s := occur s (segBlk g) 0x107 (put32 (nodeId g i).toNat 6 0 ||| put32 kind.toNat 4 8) nonce
  answerAB s g i.toNat kind 0

/-- The holder of an index has sent a good packet within the last 64 frames (R94). -/
def recently (s : State) (last : Nat) : Bool := decide (s.frames - last < 64)

/-- A node enters the joined table: its link starts afresh and JOINED carries its advance (R93, R94, R122). -/
def joinNode (s : State) (g : Seg) (i : BitVec 4) (nonce : W32) (v : W16) : State :=
  let sg := segAB s g
  let s := setSegAB s g (setNode sg i.toNat { state := .joined, joined := true, nonce := nonce, lastGood := s.frames, advance := v
                                              near := (nodeSt sg i.toNat).near, hits := (nodeSt sg i.toNat).hits })
  let s := linkRestart s (nodeId g i)
  let s := occur s (segBlk g) 0x106 (put32 (nodeId g i).toNat 6 0) nonce
  answerAB s g i.toNat ansJOINED v

/-- The LACK that an unsequenced JOIN or RANGE of a joined host carries acknowledges as any other (R116). -/
def hearLack (s : State) (rx : Rx) : State :=
  if rx.ackv then setLink s rx.node (takeLack (linkOf s rx.node) (decide (rx.seg = .c)) rx.lack) else s

/-- A re-join of the same node (R94). -/
def rejoinNode (s : State) (g : Seg) (i : BitVec 4) (v : W16) : State :=
  let sg := segAB s g
  let s := setSegAB s g (setNode sg i.toNat { nodeSt sg i.toNat with lastGood := s.frames, advance := v })
  answerAB (linkRestart s (nodeId g i)) g i.toNat ansJOINED v

/-- The judgement of a JOIN that lies wholly within the join slot (R94). -/
def judgeJoin (s : State) (rx : Rx) (i : BitVec 4) (nonce : W32) : State :=
  let g := rx.seg
  let sg := segAB s g
  let n := nodeSt sg i.toNat
  let v := BitVec.ofInt 16 rx.edge
  if isJoined n then
    if n.nonce = nonce then (if silenced n then s else rejoinNode (hearLack s rx) g i v)
    else if recently s n.lastGood then refuseAB s g i ansREFUSED_DUPLICATE nonce
    else joinNode (closeNode s (nodeId g i) 2) g i nonce v
  else if joinedCount sg < 12 then joinNode s g i nonce v
  else refuseAB s g i ansREFUSED_FULL nonce

/-- The judgement of a RANGE (R592): RANGED clears RERANGE; during the mute it satisfies the requirement in advance
(R101). -/
def judgeRange (s : State) (rx : Rx) (i : BitVec 4) (nonce : W32) : State :=
  let g := rx.seg
  let sg := segAB s g
  let n := nodeSt sg i.toNat
  let v := BitVec.ofInt 16 rx.edge
  if !(isJoined n) then refuseAB s g i ansNOT_JOINED nonce
  else if n.nonce ≠ nonce then refuseAB s g i ansREFUSED_DUPLICATE nonce
  else
    let st : NodeState := if n.state = .muted ∧ 0 < n.muteLeft then .muted else .joined
    let s := setSegAB s g (setNode sg i.toNat { n with state := st, rangedEarly := decide (st = .muted), rerange := false
                                                       advance := v, lastGood := s.frames })
    answerAB (linkRestart (hearLack s rx) (nodeId g i)) g i.toNat ansRANGED v

/-- The slot in which a packet begins: the slot before the one it is due in when its leading edge comes before the slot
start. -/
def begunSlot (s : State) (rx : Rx) : BitVec 6 := if halfStrait s rx.seg + rx.edge < 0 then rx.slot - 1 else rx.slot

/-- The holder of an index sent this JOIN or RANGE: the index, the NODE and the nonce are its own (R94). -/
def noteHolder (s : State) (rx : Rx) (i : BitVec 4) (nonce : W32) : State :=
  if rx.node = nodeId rx.seg i ∧ (nodeSt (segAB s rx.seg) i.toNat).nonce = nonce then noteGood s rx.seg rx.node else s

/-- A JOIN or RANGE on A or B: only in the join slot, from the node its payload names, wholly within the slot. One whose
leading edge comes before the join slot begins in the slot before, where R87 discards it. DEDUCED. -/
def receiveJoin (s : State) (rx : Rx) (i : BitVec 4) (nonce : W32) (judge : State → State) : State :=
  let g := rx.seg
  let k := begunSlot s rx
  if !(segOn s g) || deafTo s rx then s
  else
    let s := noteHolder (enterSlot s g k) rx i nonce
    if (segAB s g).taken = some k then s
    else
      let s := takeSlot s g k
      let b := slotByte s g k.toNat
      let n := nodeSt (segAB s g) (nodeIdx rx.node)
      if slotKind b ≠ 3 ∧ onSeg g rx.node ∧ silenced n then s
      else if slotKind b ≠ 3 ∨ k = 0 then foreign s g rx.node k
      else if i = 0 ∨ i = 15 ∨ rx.node ≠ nodeId g i then foreign s g rx.node k
      else if k ≠ rx.slot ∨ overruns (halfStrait s g) rx.edge rx.air then s
      else judge s

/-- A host leaves: its link goes, but for the count of retransmissions to the node (R155). -/
def dropLink (s : State) (node : BitVec 6) : State := setLink s node { retx := (linkOf s node).retx }

/-- A JOIN on C (R76). -/
def joinC (s : State) (rx : Rx) (i : BitVec 4) (nonce : W32) : State :=
  if !(segOn s .c) ∨ i = 0 ∨ i = 15 ∨ rx.node ≠ nodeId .c i then s
  else
    let answer (s : State) (k : BitVec 4) : State :=
      { s with segC := { s.segC with answers := tset s.segC.answers i.toNat { kind := k, value := 0 } } }
    let refuse (k : BitVec 4) : State :=
      answer (occur s blkSEGC 0x107 (put32 (nodeId .c i).toNat 6 0 ||| put32 k.toNat 4 8) nonce) k
    let enter (s : State) : State :=
      let s := { s with segC := { s.segC with host := some { index := i, nonce := nonce, lastGood := s.frames } } }
      answer (occur (linkRestart s (nodeId .c i)) blkSEGC 0x106 (put32 (nodeId .c i).toNat 6 0) nonce) ansJOINED
    match s.segC.host with
    | none => enter s
    | some h =>
      if h.index = i ∧ h.nonce = nonce then
        let s := hearLack s rx
        answer (linkRestart { s with segC := { s.segC with host := some { h with lastGood := s.frames } } } (nodeId .c i)) ansJOINED
      else if recently s h.lastGood then refuse (if h.index = i then ansREFUSED_DUPLICATE else ansREFUSED_FULL)
      else enter (closeNode (dropLink s (nodeId .c h.index)) (nodeId .c h.index) 2)

/-- JOIN (R94). -/
def execJoin (rx : Rx) (i : BitVec 4) (nonce : W32) (s : State) : Host.Outcome State Fault Refusal :=
  .next (match rx.seg with
    | .c => joinC s rx i nonce
    | _ => receiveJoin s rx i nonce fun s => judgeJoin s rx i nonce)

/-- RANGE (R592); on C it is discarded without acknowledgement, count or record, but it shows that the host sends (R76). -/
def execRange (rx : Rx) (i : BitVec 4) (nonce : W32) (s : State) : Host.Outcome State Fault Refusal :=
  .next (match rx.seg with
    | .c => (receiveC s rx).1
    | _ => receiveJoin s rx i nonce fun s => judgeRange s rx i nonce)

/-! ### Errored receptions (R70, R71, R99, R105, R106) -/

/-- BURSTTHR; 0 acts as 1. -/
def burstThr (s : State) (g : Seg) : Nat := max 1 (fld (regGet s (segBlk g) 0x80) 7 4)

/-- A count moves by one for each of the things that happened. -/
def addIf (n : W16) (b : Bool) : W16 := if b then n + 1 else n

/-- The counters of a damaged packet, each by what it showed; an aborted one is none of the kinds counted (R106). -/
def countDamage (sg : SegAB) (e : RxErrors) (crcBad : Bool) : SegAB :=
  { sg with crcErr := addIf sg.crcErr crcBad, codeErr := addIf (addIf sg.codeErr e.code) e.disparity, cdr := addIf sg.cdr e.lock }

/-- The packet of slot k charges the loss to the overrunning packet of the slot before (R99). -/
def isVictim (s : State) (sg : SegAB) (k : BitVec 6) : Bool :=
  sg.pendHits.any fun h => decide (h.frame = s.now.frame) && decide (k.toNat = h.slot.toNat + 1)

/-- The overrunning packet names its victim. -/
def nameVictim (s : State) (sg : SegAB) (k : BitVec 6) : SegAB :=
  { sg with pendHits := sg.pendHits.map fun h =>
      if h.frame = s.now.frame ∧ k.toNat = h.slot.toNat + 1 then { h with victim := some k } else h }

/-- The slot is an UP or the tick slot of a segment (R105). -/
def upOrTick (s : State) (g : Seg) (k : BitVec 6) : Bool :=
  decide (k = 1) || (decide (slotKind (slotByte s g k.toNat) = 1) && !(slotDown (slotByte s g k.toNat)))

/-- A damaged packet of a slot is judged by its timing all the same: outside its slot it is a hit, whatever its CRC (R97). -/
def judgeErrored (s : State) (rx : Rx) : State :=
  let n := nodeSt (segAB s rx.seg) (nodeIdx rx.node)
  if rightSlot s rx true ∧ !(silenced n) ∧ (isJoined n ∨ rx.slot = 1) ∧
      edgeClass (halfStrait s rx.seg) rx.edge rx.air = .hit then hitPacket s rx.seg rx
  else s

/-- A damaged packet on A or B: every one counts; the first of its slot is judged by its timing, and is a victim of the packet
before it or counts towards BURST_ERRORS (R70, R78, R97, R99, R105, R106). -/
def damagedAB (s : State) (rx : Rx) (e : RxErrors) (crcBad : Bool) : State :=
  let g := rx.seg
  let k := rx.slot
  let s := enterSlot s g k
  let s := setSegAB s g (countDamage (segAB s g) e crcBad)
  let s := if e.lock then occur s (segBlk g) 0x104 (put32 (segNum g) 2 0 ||| put32 k.toNat 6 8) 0 else s
  if (segAB s g).taken = some k then s
  else
    let s := takeSlot s g k
    let sg := segAB s g
    let s :=
      if crcBad ∧ isVictim s sg k then setSegAB s g (nameVictim s sg k)
      else if upOrTick s g k then setSegAB s g { sg with errSlots := sg.errSlots ++ [k] }
      else s
    judgeErrored s rx

/-- ERRORED_RECEPTION (R70). -/
def execErroredReception (rx : Rx) (e : RxErrors) (crcBad : Bool) (s : State) : Host.Outcome State Fault Refusal :=
  .next (
    if !(segOn s rx.seg) then s
    else match rx.seg with
    | .c =>
      { s with segC := { s.segC with crcErr := addIf s.segC.crcErr crcBad, codeErr := addIf (addIf s.segC.codeErr e.code) e.disparity } }
    | _ => if deafTo s rx then s else damagedAB s rx e crcBad)

/-! ### Muting, maps, eviction -/

/-- MUTE_END (R101): at F+9 the MUTE bit clears and the node must range unless it already has. -/
def execMuteEnd (g : Seg) (i : BitVec 4) (s : State) : Host.Outcome State Fault Refusal :=
  .next (match g with
    | .c => s
    | g =>
      let sg := segAB s g
      let n := nodeSt sg i.toNat
      if n.state = .muted ∧ n.muteLeft = 0 then
        setSegAB s g (setNode sg i.toNat { n with state := if n.rangedEarly then .joined else .mustRange, rangedEarly := false
                                                  rerange := false })
      else s)

/-- How many frames ahead of frame f frame a lies, as frames are numbered (R61, R84); none for a = 0. -/
def framesAhead (f a : W32) : Option Nat :=
  if a = 0 then none
  else if f.toNat < a.toNat then some (a.toNat - f.toNat)
  else some (2 ^ 32 - 1 - f.toNat + a.toNat)

/-- The staged map of PMAP0-PMAP7. -/
def stagedMap (s : State) (g : Seg) : List Byte :=
  bytesOf ((List.range 8).map fun k => regGet s (segBlk g) (0x98 + 8 * k))

/-- A byte other than byte 1 has KIND 2 (R84). -/
def hasTickByte (m : List Byte) : Bool := (patch m 0 [0, 0]).any fun b => decide (slotKind b = 2)

/-- The reason a GO is refused, 0 when it is accepted (R84): checks in the rule's order. -/
def mapRefusal (s : State) (g : Seg) (act : W32) (strait : BitVec 4) : BitVec 3 :=
  if (match framesAhead s.now.frame act with
      | none => true
      | some d => decide (d < 10) || decide (2 ^ 31 ≤ d)) then 1
  else if hasTickByte (stagedMap s g) then 2
  else if strait = 15 then 3
  else if (segAB s g).pend.isSome then 4
  else 0

/-- The effect of a write of SEGx.MAPCTL (R84, R85). -/
def writeMapCtl (s : State) (g : Seg) (v : W64) : State :=
  let s := regStore s (segBlk g) 0x88 v
  if bit v 12 then
    let act := BitVec.ofNat 32 (fld v 63 32)
    let strait := BitVec.ofNat 4 (fld v 11 8)
    let r := mapRefusal s g act strait
    let sg := segAB s g
    if r = 0 then
      setSegAB s g { sg with
        reason := 0
        pend := some { map := stagedMap s g, ver := BitVec.ofNat 8 (fld v 7 0), strait := strait, act := act } }
    else setSegAB s g { sg with reason := r }
  else s

/-- MAP_ANNOUNCE (R84): a write of SEGx.MAPCTL. -/
def execMapAnnounce (w : Dom) (g : Seg) (v : W64) (s : State) : Host.Outcome State Fault Refusal :=
  .next (guardedWrite s w (segBlk g) 0x88 {} fun s =>
    match g with
    | .c => s
    | g => writeMapCtl s g v)

/-- MAP_ACTIVE (R85): at slot 0 of ACTFRAME the pending map and strait take effect. -/
def execMapActive (g : Seg) (s : State) : Host.Outcome State Fault Refusal :=
  .next (match g with
    | .c => s
    | g =>
      let sg := segAB s g
      match sg.pend with
      | none => s
      | some p =>
        if pendReached p s.now.frame then
          let s := setSegAB s g { sg with map := p.map, ver := p.ver, strait := p.strait, pend := none }
          occurAt s p.act 0 (segBlk g) 0x108
            (put32 (segNum g) 2 0 ||| put32 p.ver.toNat 8 8 ||| put32 p.strait.toNat 4 16) p.act
        else s)

/-- The effect of a write of SEGx.EVICT (R96). -/
def writeEvict (s : State) (g : Seg) (v : W64) : State :=
  if bit v 7 then
    let sg := segAB s g
    setSegAB s g { sg with evicts := sg.evicts ++ [BitVec.ofNat 4 (fld v 3 0)] }
  else s

/-- EVICT (R96): a write of SEGx.EVICT. -/
def execEvict (w : Dom) (g : Seg) (v : W64) (s : State) : Host.Outcome State Fault Refusal :=
  .next (guardedWrite s w (segBlk g) 0x188 {} fun s => writeEvict s g v)

/-- An index out of a segment's table; its counts of near and hit packets run on, as through a replacement. DEDUCED. -/
def withoutNode (sg : SegAB) (i : BitVec 4) : SegAB :=
  let n := nodeSt sg i.toNat
  { setNode sg i.toNat { near := n.near, hits := n.hits } with
    answers := terase sg.answers i.toNat, advise := terase sg.advise i.toNat }

/-- One index leaves the joined table with its link and its connections (R96, R132). -/
def removeNode (s : State) (g : Seg) (i : BitVec 4) : State :=
  let sg := segAB s g
  if isJoined (nodeSt sg i.toNat) then
    dropLink (closeNode (setSegAB s g (withoutNode sg i)) (nodeId g i) 2) (nodeId g i)
  else s

/-- NODE_REMOVED (R96): the frame boundary after the write has come, and the evicted indices leave. -/
def execNodeRemoved (g : Seg) (s : State) : Host.Outcome State Fault Refusal :=
  .next (match g with
    | .c => s
    | g =>
      let l := (segAB s g).evictDue
      let s := setSegAB s g { segAB s g with evictDue := [] }
      l.foldl (fun s i => removeNode s g i) s)

/-! ### Segment C's lanes (R75) -/

/-- LANE_ALIGN_LOST (R75): the whole link goes down; the failing lanes are recorded. -/
def execLaneAlignLost (lanes : BitVec 4) (s : State) : Host.Outcome State Fault Refusal :=
  .next (
    if (live s ∨ s.phase = .acquiring) ∧ s.segC.aligned = 0xF ∧ lanes ≠ 0 then
      occur { s with segC := { s.segC with aligned := s.segC.aligned &&& ~~~lanes, losses := s.segC.losses + 1 } }
        blkSEGC 0x10B (put32 lanes.toNat 4 0) 0
    else s)

/-- LANE_ALIGN (R75): four lanes within 6 characters of skew align. -/
def execLaneAlign (skew : W16) (s : State) : Host.Outcome State Fault Refusal :=
  .next (
    if (live s ∨ s.phase = .acquiring) ∧ bit (regGet s blkSEGC 0x80) 0 ∧
        (List.range 4).all (fun i => decide (skew.toNat / 16 ^ i % 16 ≤ 6)) then
      { s with segC := { s.segC with aligned := 0xF, skew := skew } }
    else s)

/-! ### The beacon and the frame's end (R74, R88-R90, R105) -/

/-- The 4 bytes of one ANSWER entry (R89). -/
def answerBytes (i : Nat) (kind : BitVec 4) (v : W16) : List Byte :=
  [BitVec.ofNat 8 (i % 16 + 16 * kind.toNat), 0] ++ leBytes 2 v.toNat

/-- Entry for index i: a join or range answer before an advice (R89). -/
def answerFor (sg : SegAB) (i : Nat) : List Byte :=
  match tget sg.answers i with
  | some a => answerBytes i a.kind a.value
  | none =>
    match tget sg.advise i with
    | some v => answerBytes i ansADVISE v
    | none => answerBytes i 0 0

/-- A 16-bit mask of the indices 1-14 that satisfy p. -/
def indexMask (p : Nat → Bool) : Nat := (List.range 15).foldl (fun m i => if 0 < i ∧ p i then m + 2 ^ i else m) 0

/-- The MUTE bit of an index (R101). -/
def muteBit (sg : SegAB) (i : Nat) : Bool :=
  let n := nodeSt sg i
  decide (n.state = .muted) && decide (0 < n.muteLeft)

/-- The RERANGE bit of an index (R101, R104, R121). -/
def rerangeBit (sg : SegAB) (i : Nat) : Bool :=
  let n := nodeSt sg i
  decide (n.state = .mustRange) || (decide (n.state = .muted) && (n.rerange || (decide (n.muteLeft = 0) && !n.rangedEarly)))

/-- The first eight payload bytes: FRAME, FLAGS, TKNODE, STRAIT, MAPVER (R88). -/
def beaconHead (s : State) (flags : Nat) (strait : BitVec 4) (ver : Byte) : List Byte :=
  leBytes 4 s.now.frame.toNat ++
    [BitVec.ofNat 8 (b2n s.clk.holdover + 4 * b2n s.clk.gapFrame + flags),
     BitVec.ofNat 8 ((tkNode s).getD 0).toNat, BitVec.ofNat 8 strait.toNat, ver]

/-- The beacon payload on A or B (R88). -/
def beaconAB (s : State) (g : Seg) : List Byte :=
  let sg := (segAB s g).evictDue.foldl withoutNode (segAB s g)
  let m := effMap sg s.now.frame
  let map := shownMap s g m.1
  let pend := match sg.pend with
    | some p => if pendReached p s.now.frame then none else some p
    | none => none
  let join := map.any fun b => decide (slotKind b = 3)
  let flags := 2 * b2n pend.isSome + 8 * b2n join
  beaconHead s flags m.2.2 m.2.1 ++
  (match pend with
   | some p => leBytes 4 p.act.toNat ++ [p.ver, BitVec.ofNat 8 p.strait.toNat]
   | none => leBytes 4 0 ++ [0, 0]) ++
  leBytes 2 (indexMask (muteBit sg)) ++ leBytes 2 (indexMask (rerangeBit sg)) ++ map ++
  (match pend with
   | some p => shownMap s g p.map
   | none => List.replicate 64 (0 : Byte)) ++
  ((List.range 14).flatMap fun i => answerFor sg (i + 1)) ++ List.replicate 54 (0 : Byte)

/-- The beacon payload on C (R74). -/
def beaconC (s : State) : List Byte :=
  beaconHead s 0 0 0 ++ List.replicate 138 (0 : Byte) ++
  ((List.range 14).flatMap fun i =>
    match tget s.segC.answers (i + 1) with
    | some a => answerBytes (i + 1) a.kind a.value
    | none => answerBytes (i + 1) 0 0) ++ List.replicate 54 (0 : Byte)

/-- Advice given moves the node's advance (R89, SEGx.NODE.ADVANCE). -/
def giveAdvice (sg : SegAB) : SegAB :=
  let nodes := sg.advise.foldl (fun t e =>
    if (tget sg.answers e.1).isSome then t
    else tmod t e.1 fun n => { n with advance := n.advance + e.2 }) sg.nodes
  { sg with nodes := nodes, answers := [], advise := [] }

/-- A muted node's remaining frames (R101). -/
def countMutes (sg : SegAB) : SegAB :=
  { sg with nodes := sg.nodes.map fun e => (e.1, { e.2 with muteLeft := e.2.muteLeft - 1 }) }

/-- BURST_ERRORS at a frame's end: BURSTTHR as it stands then decides, and names the slot in which that many had come (R105).
DESIGN CHOICE: the manual does not say which threshold governs a frame in which it changes. -/
def recordBurst (s : State) (g : Seg) : State :=
  let l := (segAB s g).errSlots
  let thr := burstThr s g
  if thr ≤ l.length then
    occurAt s s.now.frame (l.getD (thr - 1) 0) (segBlk g) 0x105
      (put32 (l.headD 0).toNat 6 0 ||| put32 (l.getLastD 0).toNat 6 8 ||| put32 (segNum g) 2 16) (BitVec.ofNat 32 l.length)
  else s

/-- A segment between two frames: no slot has taken a packet, the part sends nothing, and an eviction written in the frame is
due (R78, R96, R101). -/
def freshFrame (sg : SegAB) : SegAB :=
  countMutes { sg with errSlots := [], taken := none, tx := none, evictDue := sg.evictDue ++ sg.evicts, evicts := [] }

/-- The end of a frame on A or B, before the count moves: the waiting hits, BURST_ERRORS, the mutes (R99, R101, R105). -/
def endFrameAB (s : State) (g : Seg) : State :=
  let s := (segAB s g).pendHits.foldl (fun s h => writeHit s g h) s
  let s := recordBurst s g
  setSegAB s g (freshFrame (segAB s g))

/-- The part's own packet occupies a slot of A or B from half a strait on (R66, R79). -/
def holdSlot (s : State) (g : Seg) (k : BitVec 6) (air : Nat) : State :=
  setSegAB s g { segAB s g with tx := some { slot := k, start := (halfStrait s g).toNat, len := air } }

/-- A beacon goes out on a segment: its packet's characters. -/
def emitBeacon (s : State) (g : Seg) (payload : List Byte) : State :=
  emit s (.beacon g payload (charsOn g (beaconPacket g payload)))

/-- Send a segment's beacon (R79, R88); the answers and advices it carries are given. On C the frame marker goes first, over
lanes that need not be aligned (R73, R75). -/
def sendBeacon (s : State) (g : Seg) : State :=
  match g with
  | .c =>
    let s := if segcDriven s then emit s (.marker s.now.frame (markerChars s.now.frame)) else s
    if beaconOn s .c then
      let s := emitBeacon s .c (beaconC s)
      { s with segC := { s.segC with answers := [] } }
    else s
  | g =>
    if beaconOn s g then
      let s := holdSlot s g 0 (airOf (charsOn g (beaconPacket g (beaconAB s g))))
      setSegAB (emitBeacon s g (beaconAB s g)) g (giveAdvice (segAB s g))
    else s

/-- At a relock and at a harmless exit every joined node of A and B must range, a muted one at once too (R104, R510). -/
def rerangeNode (n : NodeSt) : NodeSt :=
  if !n.joined then n
  else match n.state with
    | .joined => { n with state := .mustRange }
    | .muted => { n with rerange := true, rangedEarly := false }
    | _ => n

def rerangeAll (sg : SegAB) : SegAB := { sg with nodes := sg.nodes.map fun e => (e.1, rerangeNode e.2) }

end Sys2Proof.Machine
end

