-- ==== Sys2Proof/Machine/Clock.lean ====
section
/-! DEFINITION. Ticks, timekeepers and frame time (chapter 02): the source list, the measurement of a TICK, acquisition and
lock, election and switchover. Frequencies are in units of 0.01 ppm. -/

namespace Sys2Proof.Machine

/-! ### The source list (R43, R44) -/

/-- The key of a source: the node, or 64 for the forwarded clock. -/
def srcKey (n : BitVec 6) : Nat := if onSeg .c n then 64 else n.toNat

def srcKind (s : State) (n : Nat) : Nat := fld (regGet s blkCLK (0x80 + 8 * n)) 1 0
def srcAny (s : State) (n : Nat) : Bool := bit (regGet s blkCLK (0x80 + 8 * n)) 2
def srcIndex (s : State) (n : Nat) : Nat := fld (regGet s blkCLK (0x80 + 8 * n)) 7 4

/-- The first node ID of the segment of KIND 2 (A) or 3 (B). -/
def kindBase (kind : Nat) : Nat := if kind = 3 then 16 else 0

/-- Entry n names the source (R44). -/
def entryMatches (s : State) (n key : Nat) : Bool :=
  match srcKind s n with
  | 0 => false
  | 1 => decide (key = 64)
  | kind =>
    let i := key - kindBase kind
    decide (kindBase kind < key) && decide (key < kindBase kind + 15) &&
      (srcAny s n || decide (srcIndex s n = i))

def srcOf (s : State) (key : Nat) : Src := tgetD s.clk.srcs key {}
def setSrc (s : State) (key : Nat) (v : Src) : State := { s with clk := { s.clk with srcs := tset s.clk.srcs key v } }

/-- Heard and not FAULTY: the state is neither ABSENT nor FAULTY (R44); a timekeeper silent for 2 frames or more counts as
ABSENT here. -/
def srcPresent (v : Src) : Bool :=
  decide (v.state ≠ SrcState.absent) && decide (v.state ≠ SrcState.faulty) &&
    !(decide (v.state = SrcState.timekeeper) && decide (2 ≤ v.silent))

/-- The source that stands for entry n (R44). -/
def entryStands (s : State) (n : Nat) : Option Nat :=
  match srcKind s n with
  | 0 => none
  | 1 => some 64
  | kind =>
    if srcAny s n then
      ((List.range 14).map (kindBase kind + 1 + ·)).find? fun key => srcPresent (srcOf s key)
    else if srcIndex s n = 0 ∨ srcIndex s n = 15 then none
    else some (kindBase kind + srcIndex s n)

/-- The first entry that names a source. -/
def entryOf (s : State) (key : Nat) : Option Nat := (List.range 4).find? fun n => entryMatches s n key

/-- The highest-priority entry that is not empty. -/
def firstEntry (s : State) : Option Nat := (List.range 4).find? fun n => decide (srcKind s n ≠ 0)

/-- A source is listed; until the next boundary one that a rewrite no longer names still counts (R45). -/
def srcListed (s : State) (key : Nat) : Bool :=
  (entryOf s key).isSome || (s.clk.listDirty && (tget s.clk.srcs key).isSome)

/-- The node of a source key. -/
def keyNode (s : State) (key : Nat) : BitVec 6 := if key = 64 then cNode s else BitVec.ofNat 6 key

/-! ### Configuration limits of CLK.CFG -/

def cfgQUAL (s : State) : Nat := min 250 (max 5 (fld (regGet s blkCLK 0xC0) 7 0))
def cfgSWDLY (s : State) : Nat := max 2 (fld (regGet s blkCLK 0xC0) 11 8)
def cfgREVERT (s : State) : Bool := bit (regGet s blkCLK 0xC0) 12
def cfgREVDLY (s : State) : Nat := max 1 (fld (regGet s blkCLK 0xC0) 23 16)
def cfgSLEW (s : State) : Nat := min 8 (max 1 (fld (regGet s blkCLK 0xC0) 27 24))

/-! ### Measurement (R37, R38, R48) -/

/-- Offset of the sender against the core clock, from INTERVAL and the core's own count over the same span. -/
def tickOffset (interval count : Nat) : Int := ((interval : Int) - (count : Int)) * 100000000 / (count : Int)

/-- INTERVAL differs from the count by more than 1000 ppm (R38). -/
def tickOut (interval count : Nat) : Bool := decide (count * 1000 + count < interval * 1000) || decide (interval * 1000 + count < count * 1000)

/-- A frequency `off` above a core clock that lies `pll` above nominal, against nominal (R48). -/
def estimate (pll off : Int) : Int := pll + off + pll * off / 100000000

/-- What a TICK with a good CRC does to its source's measurement. `judge`: the 1000 ppm test of R38 applies. -/
def measure (judge : Bool) (pll : Int) (v : Src) (sequence : Byte) (interval count : Nat) : Src :=
  let v := { v with heard := true, silent := 0, state := if v.state = SrcState.absent then .heard else v.state }
  if 0 < v.faulty then { v with comps := [], lastSeq := none, usable := false }
  else if v.lastSeq = some (sequence - 1) ∧ 0 < count then
    if judge && tickOut interval count then
      { v with state := .faulty, faulty := 16, comps := [], good := 0, run := 0, qualFor := 0, usable := false, lastSeq := none }
    else
      let off := tickOffset interval count
      let cs := v.comps ++ [estimate pll off]
      { v with offset := off, usable := true, lastSeq := some sequence, comps := cs.drop (cs.length - 4) }
  else { v with lastSeq := some sequence, comps := [] }

/-- Four comparisons that lie within 2 ppm of their mean: the mean (R48). -/
def agreed (cs : List Int) : Option Int :=
  let sum := cs.foldl (· + ·) 0
  if cs.length = 4 ∧ cs.all (fun c => decide (4 * c - sum ≤ 800) && decide (sum - 4 * c ≤ 800)) then some (sum / 4) else none

/-- The core clock moves by a step: every offset against it moves the other way. -/
def steer (c : Clk) (step : Int) : Clk :=
  { c with pll := c.pll + step, srcs := c.srcs.map fun e => (e.1, { e.2 with offset := e.2.offset - step }) }

/-! ### Lock (R49, R60, R64) -/

/-- The frame after f (R61). -/
def nextFrame (f : W32) : W32 := if f = 0xFFFFFFFF then 1 else f + 1

/-- The state that a source's own ticks show, once it is not the timekeeper: the table of states in chapter 02. The manual
names no state for a displaced timekeeper. DEDUCED. -/
def ownState (v : Src) : SrcState :=
  if v.state = SrcState.faulty then .faulty
  else if 2 ≤ v.silent then .absent
  else if 8 ≤ v.run then .qualified else .heard

/-- The timekeeper steps down. -/
def depose (v : Src) : Src := if v.state = SrcState.timekeeper then { v with state := ownState v, qualFor := 0 } else v

/-- A source becomes timekeeper. -/
def enthrone (c : Clk) (entry : Nat) (node : BitVec 6) : Clk :=
  let t := c.srcs.map fun e => (e.1, depose e.2)
  { c with tk := some { entry := BitVec.ofNat 2 entry, node := node }, missed := 0, holdover := false, holdcnt := 0
           srcs := tset t (srcKey node) { tgetD t (srcKey node) {} with state := .timekeeper } }

/-- The records of a Deep Hold exit, at its first lock (R496). -/
def recordDeepHoldExit (s : State) : State :=
  if s.clk.dhExit then
    let src := s.pmu.lastsrc
    let s := { s with clk := { s.clk with dhExit := false } }
    let s := (List.range 3).foldl (fun s i =>
      if src.getLsbD i then occur s (blkSEGA + i) 0x10A (put32 i 2 0) 0 else s) s
    occur s blkPMU 0x011 (put32 src.toNat 4 0) (put32 s.pmu.dhcount.toNat 16 0)
  else s

/-- FRAME_WRAP when the count has passed from 0xFFFF_FFFF to 1 (R61). -/
def noteWrap (s : State) (wrap : Bool) : State := if wrap then occur s blkCLK 0x00A 0 0 else s

/-- A scheduling window begins, at a lock too: charges return to zero and the shares written take effect (R254, R256,
R257). -/
def beginWindow (s : State) : State :=
  { s with charges := [], wstart := s.now.frame
           shares := (List.range 16).map fun d => (d, regGet s blkSCH (0x100 + 8 * d)) }

/-- Counting resumes after a drain, in the frame after the one it stopped in (R60, R104). -/
def resumeTime (s : State) (c : Clk) : State :=
  beginWindow { s with
    clk := { c with stopped := false, drain := false, gap := true, gapFrame := true }
    now := { frame := nextFrame s.now.frame, slot := 0, sub := 0 }
    frames := s.frames + 1
    pmu := endCause s.pmu 4
    segA := rerangeAll s.segA
    segB := rerangeAll s.segB }

/-- Frame 1 begins (R49, R64); CKO is driven, in the harmless state excepted (R41). -/
def beginTime (s : State) (c : Clk) : State :=
  beginWindow { s with
    phase := .running
    clk := { c with noTime := false, wall := none }
    now := { frame := 1, slot := 0, sub := 0 }
    frames := s.frames + 1
    glb := { s.glb with phase := 1 }
    boot := { s.boot with startedAt := (s.frames + 1) * 400000 }
    pins := { s.pins with cko := !s.pmu.harmless } }

/-- Lock: frame 1 begins, or counting resumes after a drain (R49, R60). `mean` is where the PLL is set. -/
def lockTo (s : State) (entry : Nat) (node : BitVec 6) (mean : Int) : State :=
  let p0 := put32 entry 2 0 ||| put32 node.toNat 6 8
  let c := enthrone (steer { s.clk with window := false, chosen := none, locked := true, history := [], steered := true }
    (mean - s.clk.pll)) entry node
  if s.clk.stopped then
    let wrap := decide (s.now.frame = 0xFFFFFFFF)
    let last := s.clk.drainFrame
    let s := noteWrap (resumeTime s c) wrap
    let s := occur s blkCLK 0x003 p0 s.now.frame
    occur s blkCLK 0x007 last (put32 entry 2 0)
  else
    let s := beginTime s c
    let s := regSet (regSet s blkCLK 0xD0 0) blkCLK 0xD8 0
    let s := occur s blkCLK 0x003 p0 1
    let s := recordDeepHoldExit s
    sendBeacon (sendBeacon (sendBeacon s .a) .b) .c

/-- Acquisition runs: after a reset, or after a drain has ended (R47). -/
def acquiring (s : State) : Bool := decide (s.phase = .acquiring) || (live s && s.clk.stopped)

/-- The core clock takes CKI's frequency: source 64 has no offset against it, the PLL's control counts from there, and what was
measured against the clock before is void (R35, R48). -/
def onCki (s : State) : State :=
  { s with clk := { s.clk with
      srcs := s.clk.srcs.map fun e => (e.1, { e.2 with comps := [], offset := if e.1 = 64 then 0 else e.2.offset }) } }

/-- Lock to the chosen source when it is ready: four agreeing comparisons, or the forwarded clock phase-locked, whose own
frequency the core clock then has (R35, R48). A chosen source that stops ticking before lock stays chosen: the manual says
nothing of it. DESIGN CHOICE. -/
def tryLock (s : State) : State :=
  match s.clk.chosen with
  | none => s
  | some k =>
    if onSeg .c k.node then
      if s.clk.ckiLocked then lockTo (onCki s) k.entry.toNat k.node s.clk.pll else s
    else match agreed (srcOf s (srcKey k.node)).comps with
      | some m => lockTo s k.entry.toNat k.node m
      | none => s

/-- A listed source is heard during acquisition: the window opens, and closes early on the highest-priority entry (R47). -/
def heardInAcquisition (s : State) (key : Nat) : State :=
  let s := if s.clk.chosen.isNone then { s with clk := { s.clk with window := true } } else s
  let s :=
    match s.clk.chosen, firstEntry s with
    | none, some n =>
      if entryStands s n = some key then
        { s with clk := { s.clk with window := false, chosen := some { entry := BitVec.ofNat 2 n, node := keyNode s key } } }
      else s
    | _, _ => s
  tryLock s

/-- TICK from an index of 1 to 14 on A or B that a listed entry matches (R44). -/
def tickHeeded (s : State) (rx : Rx) : Bool :=
  decide (rx.seg ≠ .c) && onSeg rx.seg rx.node && decide (1 ≤ nodeIdx rx.node) && decide (nodeIdx rx.node ≤ 14) &&
    srcListed s (srcKey rx.node)

/-- A usable tick of the timekeeper ends holdover (R58). -/
def endHoldover (c : Clk) : Clk := { c with holdover := false, holdcnt := 0, missed := 0 }

/-- The source is the timekeeper. -/
def isKeeper (c : Clk) (key : Nat) : Bool := decide (c.tk.map (fun k => srcKey k.node) = some key)

/-- A TICK's measurement in frame time: within 16 frames of holdover a usable one of the timekeeper ends it (R58). -/
def tickRunning (s : State) (rx : Rx) (sequence : Byte) (interval count : Nat) : State :=
  let key := srcKey rx.node
  let v := measure true s.clk.pll (srcOf s key) sequence interval count
  if v.usable ∧ s.clk.holdover ∧ !s.clk.drain ∧ s.clk.holdcnt < 16 ∧ isKeeper s.clk key then
    let s := setSrc s key { v with state := .timekeeper }
    { s with clk := endHoldover s.clk }
  else setSrc s key v

/-- The source that acquisition would choose now: its comparisons steer the PLL (R47, R48). -/
def steersNow (s : State) (key : Nat) : Bool :=
  match s.clk.chosen with
  | some k => decide (srcKey k.node = key)
  | none =>
    match (List.range 4).find? fun n => (entryStands s n).any fun k => srcPresent (srcOf s k) with
    | some n => decide (entryStands s n = some key)
    | none => false

/-- A TICK in acquisition: it is measured, and each usable comparison of the source that would be chosen steers the PLL to its
estimate. Before the first steering the VCO runs free within 15 % (R518), and the 1000 ppm of R38 do not apply. DEDUCED. -/
def measureInAcquisition (s : State) (key : Nat) (sequence : Byte) (interval count : Nat) : State :=
  let v := measure s.clk.steered s.clk.pll (srcOf s key) sequence interval count
  let s := setSrc s key v
  if v.usable && steersNow s key then
    { s with clk := { steer s.clk (v.comps.getLastD s.clk.pll - s.clk.pll) with steered := true } }
  else s

/-- A TICK that the MB872 ignores shows no more than that its host sends (R44, R94). -/
def ignoreTick (s : State) (rx : Rx) : State :=
  if rx.seg = .c then (receiveC s rx).1
  else if segOn s rx.seg && !(deafTo s rx) then noteGood s rx.seg rx.node
  else s

/-- The link's part of an unsequenced packet: its LACK, and that the host was heard, in an UP slot unless the packet came in
the tick slot (R116, R119, R121). -/
def takeUnsequenced (s : State) (rx : Rx) : State :=
  let l := linkOf s rx.node
  let l := if rx.ackv then takeLack l (decide (rx.seg = .c)) rx.lack else l
  setLink s rx.node { l with gotUp := l.gotUp || decide (rx.slot ≠ 1), heard := true }

/-- TICK (R37). One that is discarded for its slot, its timing or a mute is not measured and is not the last TICK received,
although its CRC is good: the manual does not say whether it is. DESIGN CHOICE. -/
def execTick (rx : Rx) (sequence : Byte) (interval count : W32) (s : State) : Host.Outcome State Fault Refusal :=
  .next (
    if acquiring s then
      if tickHeeded s rx then
        heardInAcquisition (measureInAcquisition s (srcKey rx.node) sequence interval.toNat count.toNat) (srcKey rx.node)
      else s
    else if !(tickHeeded s rx) then ignoreTick s rx
    else
      let r := receiveAB s rx true
      if r.2 then
        let s := tickRunning r.1 rx sequence interval.toNat count.toNat
        if isJoined (nodeSt (segAB s rx.seg) (nodeIdx rx.node)) then takeUnsequenced s rx else s
      else r.1)

/-! ### Holdover (R40, R56) -/

/-- The mean of the PLL control over the frames kept (R56). -/
def heldPll (c : Clk) : Int :=
  if c.history.isEmpty then c.pll else c.history.foldl (· + ·) 0 / (c.history.length : Nat)

/-- Holdover begins on the held frequency: TICK_LOST (R56). -/
def enterHoldover (s : State) : State :=
  let c := steer s.clk (heldPll s.clk - s.clk.pll)
  let entry := (c.tk.map (·.entry.toNat)).getD 0
  occur { s with clk := { c with holdover := true, holdcnt := 0 } } blkCLK 0x004 (put32 entry 2 0) s.now.frame

def tkIsC (c : Clk) : Bool :=
  match c.tk with
  | some k => onSeg .c k.node
  | none => false

/-- FORWARDED_CLOCK_LOST (R40). -/
def execForwardedClockLost (s : State) : Host.Outcome State Fault Refusal :=
  .next (
    if s.clk.cki then
      let v := srcOf s 64
      let s := setSrc { s with clk := { s.clk with cki := false, ckiLocked := false } } 64 { v with heard := false, usable := false }
      if acquiring s then
        match s.clk.chosen with
        | some k => if onSeg .c k.node then { s with clk := { s.clk with chosen := none, window := false } } else s
        | none => s
      else if live s ∧ !s.clk.drain ∧ !s.clk.holdover ∧ tkIsC s.clk then enterHoldover s
      else s
    else s)

/-- FORWARDED_CLOCK_LOCK (R47, R48): CKI has appeared and has been phase-locked for 100 µs. A listed forwarded clock is heard in
acquisition; in frame time only a whole frame of it counts (R40). -/
def execForwardedClockLock (s : State) : Host.Outcome State Fault Refusal :=
  .next (
    if s.phase = .acquiring ∨ live s then
      let s := { s with clk := { s.clk with cki := true, ckiLocked := true } }
      if acquiring s ∧ (entryOf s 64).isSome then
        let v := srcOf s 64
        heardInAcquisition (setSrc s 64 { v with
          heard := true, silent := 0, state := if v.state = SrcState.absent then .heard else v.state }) 64
      else s
    else s)

/-- Entry n's source is heard. -/
def entryHeard (s : State) (n : Nat) : Bool :=
  match entryStands s n with
  | some key => srcPresent (srcOf s key)
  | none => false

/-- The highest-priority entry whose source is heard (R47). -/
def firstHeard (s : State) : Option Nat := (List.range 4).find? (entryHeard s)

/-- ACQUISITION_WINDOW_END (R47): the highest-priority source heard is acquired. -/
def execAcquisitionWindowEnd (s : State) : Host.Outcome State Fault Refusal :=
  .next (
    if acquiring s ∧ s.clk.window then
      match firstHeard s with
      | some n =>
        match entryStands s n with
        | some key =>
          tryLock { s with clk := { s.clk with
            window := false, chosen := some { entry := BitVec.ofNat 2 n, node := keyNode s key } } }
        | none => s
      | none => { s with clk := { s.clk with window := false } }
    else s)

/-- FAULTY_EXPIRY (R38): 16 frames are over; HEARD or ABSENT as its ticks show. In acquisition no boundary counts the frames,
and the command itself says that they are over. DEDUCED. -/
def execFaultyExpiry (node : BitVec 6) (s : State) : Host.Outcome State Fault Refusal :=
  .next (
    let key := srcKey node
    let v := srcOf s key
    if v.state = .faulty ∧ (v.faulty = 0 ∨ acquiring s) then
      setSrc s key { v with state := if v.silent < 2 then .heard else .absent, faulty := 0, comps := [], lastSeq := none }
    else s)

/-- A source has its 8 good frames and has not been told QUALIFIED. -/
def newlyQualified (v : Src) : Bool := decide (v.state = SrcState.heard) && decide (8 ≤ v.run)

/-- A source with 8 consecutive good frames within QUAL becomes QUALIFIED: SOURCE_QUALIFIED. The timekeeper does not. -/
def noteQualified (s : State) (key : Nat) : State :=
  let v := srcOf s key
  match entryOf s key with
  | some n =>
    if newlyQualified v && !(isKeeper s.clk key) then
      occur (setSrc s key { v with state := .qualified, qualFor := 0 }) blkCLK 0x008 (put32 n 2 0) 0
    else s
  | none => s

/-- SOURCE_QUALIFIED (R41). -/
def execSourceQualified (node : BitVec 6) (s : State) : Host.Outcome State Fault Refusal := .next (noteQualified s (srcKey node))

/-! ### Election (R50-R55) -/

/-- The source is listed, is not the timekeeper, and is QUALIFIED or becomes so at this boundary (R54, R55). -/
def electable (s : State) (key : Nat) : Bool :=
  let v := srcOf s key
  (entryOf s key).isSome && !(isKeeper s.clk key) && (decide (v.state = .qualified) || newlyQualified v)

/-- The source that entry n offers for election. -/
def qualifiedEntry (s : State) (n : Nat) : Option Nat := (entryStands s n).filter (electable s)

/-- R50: the entry and source to switch to. -/
def switchEntry (s : State) : Option (Nat × Nat) :=
  if cfgSWDLY s ≤ s.clk.missed then (List.range 4).findSome? fun n => (qualifiedEntry s n).map fun k => (n, k) else none

/-- R51: the entry and source to revert to. -/
def revertEntry (s : State) : Option (Nat × Nat) :=
  match s.clk.tk with
  | none => none
  | some k =>
    if cfgREVERT s then
      (List.range k.entry.toNat).findSome? fun n =>
        ((qualifiedEntry s n).filter fun key => decide (cfgREVDLY s ≤ (srcOf s key).qualFor)).map fun key => (n, key)
    else none

/-- R52: the entry and source of a FORCE that holds: the source that the write named is still QUALIFIED, and listed. -/
def forceEntry (s : State) : Option (Nat × Nat) :=
  match s.clk.forceReq with
  | some k =>
    let key := srcKey k.node
    if electable s key then some (if entryMatches s k.entry.toNat key then k.entry.toNat else (entryOf s key).getD 0, key) else none
  | none => none

/-- A frame boundary is in force: no time has passed since. -/
def atBoundary (s : State) : Bool := live s && !s.clk.stopped && decide (s.now.slot = 0) && decide (s.now.sub = 0)

/-- No switch has been made at this boundary, and the clock follows or holds a timekeeper. -/
def mayElect (s : State) : Bool := atBoundary s && !s.clk.drain && !s.clk.switched && s.clk.tk.isSome

/-- The switch that is due at this boundary, in the order of R55. -/
def dueSwitch (s : State) : Option (Nat × Nat) :=
  if mayElect s then (forceEntry s).orElse fun _ => (switchEntry s).orElse fun _ => revertEntry s else none

/-- A switch of R50 to R52 is due at this boundary. -/
def switchDue (s : State) : Bool := (dueSwitch s).isSome

/-- The switch itself: no step in frame time; the rate moves under the slew limit (R53). -/
def switchTo (s : State) (n key : Nat) : State :=
  let old := (s.clk.tk.map (·.entry.toNat)).getD 0
  let s := noteQualified s key
  occur { s with clk := { enthrone s.clk n (keyNode s key) with switched := true } } blkCLK 0x005
    (BitVec.ofNat 32 old) (BitVec.ofNat 32 n)

/-- TIMEKEEPER_SWITCH (R50). -/
def execTimekeeperSwitch (s : State) : Host.Outcome State Fault Refusal :=
  .next (
    if mayElect s ∧ (forceEntry s).isNone then
      match switchEntry s with
      | some e => switchTo s e.1 e.2
      | none => s
    else s)

/-- TIMEKEEPER_REVERT (R51). -/
def execTimekeeperRevert (s : State) : Host.Outcome State Fault Refusal :=
  .next (
    if mayElect s ∧ (forceEntry s).isNone ∧ (switchEntry s).isNone then
      match revertEntry s with
      | some e => switchTo s e.1 e.2
      | none => s
    else s)

/-- The effect of a write of CLK.FORCE (R52): the request names the source that stands for the entry at the write. -/
def writeForce (s : State) (v : W64) : State :=
  let n := fld v 1 0
  match bit v 7, qualifiedEntry s n with
  | true, some key => { s with clk := { s.clk with forceReq := some { entry := BitVec.ofNat 2 n, node := keyNode s key } } }
  | _, _ => s

/-- FORCE (R52): a write of CLK.FORCE. -/
def execForce (w : Dom) (v : W64) (s : State) : Host.Outcome State Fault Refusal :=
  .next (guardedWrite s w blkCLK 0xE0 {} fun s => writeForce s v)

/-- FORCE_SWITCH (R52): an accepted FORCE takes effect at the boundary, or lapses. -/
def execForceSwitch (s : State) : Host.Outcome State Fault Refusal :=
  .next (
    if !(atBoundary s) then s
    else
      let f := forceEntry s
      let ok := mayElect s
      let s := { s with clk := { s.clk with forceReq := none } }
      match f with
      | some e => if ok then switchTo s e.1 e.2 else s
      | none => s)

/-- The effect of a write of CLK.SRCn (R45). -/
def writeSource (s : State) (n : Nat) (v : W64) : State :=
  let s := regStore s blkCLK (0x80 + 8 * n) v
  { s with clk := { s.clk with listDirty := true } }

/-- SOURCE_LIST_WRITE (R45). -/
def execSourceListWrite (w : Dom) (n : BitVec 2) (v : W64) (s : State) : Host.Outcome State Fault Refusal :=
  .next (guardedWrite s w blkCLK (0x80 + 8 * n.toNat) {} fun s => writeSource s n.toNat v)

/-- SOURCE_DEMOTION (R45): sources the list no longer names go as if their ticks had stopped; the timekeeper's entry is the
one that now names it. -/
def execSourceDemotion (s : State) : Host.Outcome State Fault Refusal :=
  .next (
    if !(atBoundary s) then s
    else
    let srcs := s.clk.srcs.filter fun e => (entryOf s e.1).isSome
    let tk := s.clk.tk.map fun k =>
      match entryOf s (srcKey k.node) with
      | some n => { k with entry := BitVec.ofNat 2 n }
      | none => k
    { s with clk := { s.clk with srcs := srcs, tk := tk, listDirty := false } })

/-- The effect of a write of CLK.WALLT (R63): the pair is committed and recorded. -/
def writeWallT (s : State) (v : W64) : State :=
  let s := regSet s blkCLK 0xD8 v
  let f := (regGet s blkCLK 0xD0).setWidth 32
  let s := { s with clk := { s.clk with wall := some (f, v) } }
  occur s blkCLK 0x009 f (BitVec.ofNat 32 (v.toNat / 1000000))

/-- WALL_SET (R63): a write of CLK.WALLT. -/
def execWallSet (w : Dom) (v : W64) (s : State) : Host.Outcome State Fault Refusal :=
  .next (guardedWrite s w blkCLK 0xD8 {} fun s => writeWallT s v)

/-! ### The clock at a frame boundary -/

/-- One source at the end of a frame (R41, R44, R51). -/
def endSrcFrame (qual : Nat) (v : Src) : Src :=
  let u := v.usable && decide (v.faulty = 0)
  let ok := u && decide (-(qual * 100 : Nat) ≤ v.offset) && decide (v.offset ≤ (qual * 100 : Nat))
  let silent := if v.heard then 0 else v.silent + 1
  let run := if ok then v.run + 1 else 0
  let st : SrcState :=
    match v.state with
    | .faulty => .faulty
    | .timekeeper => .timekeeper
    | .qualified => if ok then .qualified else if 2 ≤ silent then .absent else .heard
    | x => if 2 ≤ silent then .absent else if x = .absent ∧ v.heard then .heard else x
  { v with
    state := st
    good := if u then min 255 (v.good + 1) else 0
    run := run
    qualFor := if v.state = .qualified ∧ st = .qualified then v.qualFor + 1 else 0
    silent := silent
    faulty := v.faulty - 1
    usable := false
    heard := false }

/-- The step the PLL takes towards the timekeeper (R53, R58). -/
def slewStep (limit : Nat) (off : Int) : Int :=
  if ((limit * 100 : Nat) : Int) < off then (limit * 100 : Nat)
  else if off < -((limit * 100 : Nat) : Int) then -((limit * 100 : Nat) : Int)
  else off

/-- A whole frame of CKI, whose frequency against the core clock was `off`: a listed forwarded clock was heard in it and had a
usable tick (R40, R45, R58). -/
def wholeFrameCki (s : State) (off : Int) : State :=
  let s := { s with clk := { s.clk with cki := true } }
  if srcListed s 64 then
    let v := srcOf s 64
    setSrc s 64 { v with usable := true, heard := true, offset := off, state := if v.state = SrcState.absent then .heard else v.state }
  else s

/-- A usable tick in the frame shows the timekeeper in that state again. -/
def reseat (c : Clk) (key : Nat) : Clk := { c with srcs := tmod c.srcs key fun v => { v with state := .timekeeper } }

/-- The clock's part of a frame's end; `cki`: the frequency of CKI when it toggled throughout the frame (R40, R53, R56, R58).
A frame cut short by a loss of CKI counts as one of the 16 frames of holdover. DESIGN CHOICE: R59 does not say. -/
def endFrameClock (s : State) (cki : Option Int) : State :=
  let s := match cki with
    | some off => wholeFrameCki s off
    | none => s
  let key := (s.clk.tk.map fun k => srcKey k.node).getD 99
  let tkOk := s.clk.tk.isSome && (srcOf s key).usable && decide ((srcOf s key).faulty = 0)
  let c := { s.clk with srcs := s.clk.srcs.map fun e => (e.1, endSrcFrame (cfgQUAL s) e.2), switched := false, gapFrame := false }
  if s.clk.drain then { s with clk := c }
  else
    let c := { c with missed := if tkOk then 0 else c.missed + 1 }
    if tkOk then
      let c := reseat (if c.holdover then endHoldover c else c) key
      let h := c.history ++ [c.pll]
      let c := { c with history := h.drop (h.length - 8) }
      { s with clk := steer c (slewStep (cfgSLEW s) (tgetD c.srcs key {}).offset) }
    else if c.holdover then { s with clk := { c with holdcnt := min 16 (c.holdcnt + 1) } }
    else { s with clk := c }

/-- The count moves to the next frame; a wrap is recorded (R61). -/
def advanceFrame (s : State) : State :=
  let wrap := decide (s.now.frame = 0xFFFFFFFF)
  noteWrap { s with now := { frame := nextFrame s.now.frame, slot := 0, sub := 0 }, frames := s.frames + 1 } wrap

/-- The keeper the frame's beacon names: the one a switch due at this boundary makes (R54, R55). -/
def dueKeeper (s : State) : Option Keeper :=
  match dueSwitch s with
  | some e => some { entry := BitVec.ofNat 2 e.1, node := keyNode s e.2 }
  | none => s.clk.tk

end Sys2Proof.Machine
end

