-- ==== Sys2Proof/Machine/Crypto.lean ====
section
/-! DEFINITION. The external algorithms the manual names: AES-256 (FIPS 197), XTS (IEEE 1619, R311), GCM (R368), SHA-256 and
ECDSA over P-256 (R369). -/

namespace Sys2Proof.Machine

/-! ### AES-256 (FIPS 197) -/

def gfDouble (a : Byte) : Byte := (a <<< 1) ^^^ (if a.getLsbD 7 then 0x1B else 0)

/-- Product in the AES field. -/
def gfMul (a b : Byte) : Byte :=
  ((List.range 8).foldl (fun (x : Byte × Byte) i => (if b.getLsbD i then x.1 ^^^ x.2 else x.1, gfDouble x.2)) (0, a)).1

/-- The multiplicative inverse, a^254. -/
def gfInv (a : Byte) : Byte :=
  let a2 := gfMul a a
  let a4 := gfMul a2 a2
  let a8 := gfMul a4 a4
  let a16 := gfMul a8 a8
  let a32 := gfMul a16 a16
  let a64 := gfMul a32 a32
  let a128 := gfMul a64 a64
  gfMul (gfMul (gfMul a2 a4) (gfMul a8 a16)) (gfMul (gfMul a32 a64) a128)

def rotl8 (a : Byte) (k : Nat) : Byte := a.rotateLeft k

def sboxOf (a : Byte) : Byte :=
  let i := gfInv a
  i ^^^ rotl8 i 1 ^^^ rotl8 i 2 ^^^ rotl8 i 3 ^^^ rotl8 i 4 ^^^ 0x63

def invSboxOf (a : Byte) : Byte := gfInv (rotl8 a 1 ^^^ rotl8 a 3 ^^^ rotl8 a 6 ^^^ 0x05)

def sboxTable : Array Byte := ((List.range 256).map fun i => sboxOf (BitVec.ofNat 8 i)).toArray
def invSboxTable : Array Byte := ((List.range 256).map fun i => invSboxOf (BitVec.ofNat 8 i)).toArray
def sbox (a : Byte) : Byte := sboxTable.getD a.toNat 0
def invSbox (a : Byte) : Byte := invSboxTable.getD a.toNat 0

def xorBytes (a b : List Byte) : List Byte := List.zipWith (· ^^^ ·) a b

/-- Round key words, the latest first. -/
def aesExpand : Nat → Nat → Byte → List (List Byte) → List (List Byte)
  | 0, _, _, ws => ws
  | k + 1, i, rc, ws =>
    let t := ws.getD 0 []
    let u := if i % 8 = 0 then xorBytes ((t.drop 1 ++ t.take 1).map sbox) [rc, 0, 0, 0]
      else if i % 8 = 4 then t.map sbox else t
    aesExpand k (i + 1) (if i % 8 = 0 then gfDouble rc else rc) (xorBytes (ws.getD 7 []) u :: ws)

/-- The 15 round keys of a 32-byte key, in order. -/
def aesKeys (key : List Byte) : List (List Byte) :=
  let ws := (aesExpand 52 8 1 ((List.range 8).map fun i => slice key (4 * i) 4).reverse).reverse
  (List.range 15).map fun r => (slice4 ws (4 * r)).flatten
where
  slice4 (l : List (List Byte)) (i : Nat) : List (List Byte) := (l.drop i).take 4

/-- ShiftRows: row r of column c comes from column c + r. -/
def aesShift (b : List Byte) : List Byte := (List.range 16).map fun i => byteAt b ((i + 4 * (i % 4)) % 16)
def aesUnshift (b : List Byte) : List Byte := (List.range 16).map fun i => byteAt b ((i + 12 * (i % 4)) % 16)

def aesColumn (m : List Byte) (c : List Byte) : List Byte :=
  (List.range 4).map fun r => (List.range 4).foldl (fun x k => x ^^^ gfMul (byteAt m ((k + 4 - r) % 4)) (byteAt c k)) 0

def aesMix (m : List Byte) (b : List Byte) : List Byte := (List.range 4).flatMap fun c => aesColumn m (slice b (4 * c) 4)

/-- AES-256 encryption of one block under expanded keys. -/
def aesEnc (ks : List (List Byte)) (b : List Byte) : List Byte :=
  let b := xorBytes b (ks.getD 0 [])
  let b := (List.range 13).foldl (fun b r => xorBytes (aesMix [2, 3, 1, 1] (aesShift (b.map sbox))) (ks.getD (r + 1) [])) b
  xorBytes (aesShift (b.map sbox)) (ks.getD 14 [])

/-- AES-256 decryption of one block. -/
def aesDec (ks : List (List Byte)) (b : List Byte) : List Byte :=
  let b := (aesUnshift (xorBytes b (ks.getD 14 []))).map invSbox
  let b := (List.range 13).foldl (fun b r =>
    (aesUnshift (aesMix [14, 11, 13, 9] (xorBytes b (ks.getD (13 - r) [])))).map invSbox) b
  xorBytes b (ks.getD 0 [])

/-! ### XTS (IEEE 1619; R311) -/

def xtsDouble (t : Nat) : Nat := if 2 ^ 127 ≤ t then (2 * t - 2 ^ 128) ^^^ 0x87 else 2 * t

def xtsBlocks (f : List Byte → List Byte) : Nat → Nat → List Byte → List Byte
  | 0, _, _ => []
  | n + 1, t, d =>
    let tb := leBytes 16 t
    xorBytes (f (xorBytes (d.take 16) tb)) tb ++ xtsBlocks f n (xtsDouble t) (d.drop 16)

/-- XTS over one data unit of 4096 bytes; the key is key 1 then key 2, the tweak PFA bits [41:0] (R308, R311). -/
def xtsUnit (enc : Bool) (key : List Byte) (pfa : W64) (d : List Byte) : List Byte :=
  let k1 := aesKeys (key.take 32)
  let t := leNat (aesEnc (aesKeys (key.drop 32)) (leBytes 16 (fld pfa 41 0)))
  xtsBlocks (if enc then aesEnc k1 else aesDec k1) 256 t d

/-! ### GCM (NIST SP 800-38D; R368) -/

/-- The number that big-endian bytes spell, and back. -/
def beNat (l : List Byte) : Nat := leNat l.reverse
def beBytes (n v : Nat) : List Byte := (leBytes n v).reverse

/-- Product in the GHASH field, bits taken from the most significant on. -/
def ghashMul (x h : Nat) : Nat :=
  ((List.range 128).foldl (fun (a : Nat × Nat) i =>
    (if x.testBit (127 - i) then a.1 ^^^ a.2 else a.1,
     if a.2.testBit 0 then (a.2 / 2) ^^^ (0xE1 * 2 ^ 120) else a.2 / 2)) (0, h)).1

def ghash (h : Nat) (d : List Byte) : Nat :=
  (List.range ((d.length + 15) / 16)).foldl (fun y i =>
    let b := slice d (16 * i) 16
    ghashMul (y ^^^ beNat (b ++ List.replicate (16 - b.length) 0)) h) 0

def padTo16 (d : List Byte) : List Byte := d ++ List.replicate ((16 - d.length % 16) % 16) 0

/-- GCM decryption with a 96-bit IV: the plaintext when the tag authenticates. -/
def gcmDecrypt (key iv aad ct tag : List Byte) : Option (List Byte) :=
  let ks := aesKeys key
  let h := beNat (aesEnc ks (List.replicate 16 0))
  let s := ghash h (padTo16 aad ++ padTo16 ct ++ beBytes 8 (8 * aad.length) ++ beBytes 8 (8 * ct.length))
  let t := xorBytes (beBytes 16 s) (aesEnc ks (iv ++ beBytes 4 1))
  if t = tag then
    some ((List.range ((ct.length + 15) / 16)).flatMap fun i =>
      xorBytes (slice ct (16 * i) 16) (aesEnc ks (iv ++ beBytes 4 (i + 2))))
  else none

/-! ### SHA-256 (FIPS 180-4) -/

/-- The largest r below 2^bits with r^k at most v. -/
def iroot (k v : Nat) : Nat → Nat → Nat
  | 0, r => r
  | b + 1, r => iroot k v b (if (r + 2 ^ b) ^ k ≤ v then r + 2 ^ b else r)

def firstPrimes : List Nat := (List.range 312).filter fun p => 2 ≤ p && (List.range p).all fun d => d < 2 || p % d != 0

/-- Fraction bits of the square and cube roots of the first primes. -/
def shaInit : List W32 := (firstPrimes.take 8).map fun p => BitVec.ofNat 32 (iroot 2 (p * 2 ^ 64) 40 0)
def shaK : List W32 := (firstPrimes.take 64).map fun p => BitVec.ofNat 32 (iroot 3 (p * 2 ^ 96) 40 0)

def rotr (x : W32) (k : Nat) : W32 := x.rotateRight k

/-- Message schedule, the latest word first. -/
def shaSchedule : Nat → List W32 → List W32
  | 0, ws => ws
  | n + 1, ws =>
    let a := ws.getD 14 0
    let b := ws.getD 1 0
    let s0 := rotr a 7 ^^^ rotr a 18 ^^^ (a >>> 3)
    let s1 := rotr b 17 ^^^ rotr b 19 ^^^ (b >>> 10)
    shaSchedule n ((ws.getD 15 0 + s0 + ws.getD 6 0 + s1) :: ws)

def shaRound (st : List W32) (kw : W32 × W32) : List W32 :=
  match st with
  | [a, b, c, d, e, f, g, h] =>
    let t1 := h + (rotr e 6 ^^^ rotr e 11 ^^^ rotr e 25) + ((e &&& f) ^^^ (~~~ e &&& g)) + kw.1 + kw.2
    let t2 := (rotr a 2 ^^^ rotr a 13 ^^^ rotr a 22) + ((a &&& b) ^^^ (a &&& c) ^^^ (b &&& c))
    [t1 + t2, a, b, c, d + t1, e, f, g]
  | l => l

def shaBlock (h : List W32) (b : List Byte) : List W32 :=
  let ws := (shaSchedule 48 ((List.range 16).map fun i => BitVec.ofNat 32 (beNat (slice b (4 * i) 4))).reverse).reverse
  List.zipWith (· + ·) h ((shaK.zip ws).foldl shaRound h)

def sha256 (m : List Byte) : List Byte :=
  let p := m ++ [0x80] ++ List.replicate ((55 + 64 - m.length % 64) % 64) 0 ++ beBytes 8 (8 * m.length)
  ((List.range (p.length / 64)).foldl (fun h i => shaBlock h (slice p (64 * i) 64)) shaInit).flatMap fun w => beBytes 4 w.toNat

/-! ### ECDSA over P-256 (FIPS 186-4; R369) -/

def ecP : Nat := 2 ^ 256 - 2 ^ 224 + 2 ^ 192 + 2 ^ 96 - 1
def ecN : Nat := 0xFFFFFFFF00000000FFFFFFFFFFFFFFFFBCE6FAADA7179E84F3B9CAC2FC632551
def ecB : Nat := 0x5AC635D8AA3A93E7B3EBBD55769886BC651D06B0CC53B0F63BCE3C3E27D2604B
def ecG : Nat × Nat :=
  (0x6B17D1F2E12C4247F8BCE6E563A440F277037D812DEB33A0F4A13945D898C296,
   0x4FE342E2FE1A7F9B8EE7EB4A7C0F9E162BCE33576B315ECECBB6406837BF51F5)

/-- b^e mod m, by the low `n` bits of e. -/
def powMod (m b e : Nat) : Nat → Nat
  | 0 => 1 % m
  | n + 1 =>
    let r := powMod m b (e / 2) n
    if e % 2 = 1 then r * r % m * b % m else r * r % m

def invMod (m a : Nat) : Nat := powMod m (a % m) (m - 2) 256

/-- A point of the curve; none is the point at infinity. -/
def ecAdd (a b : Option (Nat × Nat)) : Option (Nat × Nat) :=
  match a, b with
  | none, b => b
  | a, none => a
  | some (x1, y1), some (x2, y2) =>
    if x1 = x2 ∧ (y1 + y2) % ecP = 0 then none
    else
      let l := if x1 = x2 then (3 * x1 * x1 + (ecP - 3)) * invMod ecP (2 * y1) % ecP
        else (y2 + ecP - y1) * invMod ecP (x2 + ecP - x1) % ecP
      let x3 := (l * l + 2 * ecP - x1 - x2) % ecP
      some (x3, (l * (x1 + ecP - x3) + ecP - y1) % ecP)

def ecMul (p : Option (Nat × Nat)) (k : Nat) : Nat → Option (Nat × Nat)
  | 0 => none
  | n + 1 =>
    let r := ecMul p (k / 2) n
    let r := ecAdd r r
    if k % 2 = 1 then ecAdd r p else r

/-- A valid point of P-256: coordinates in range and on the curve. -/
def ecValid (x y : Nat) : Bool :=
  decide (x < ecP) && decide (y < ecP) && decide (y * y % ecP = (x * x % ecP * x + (ecP - 3) * x + ecB) % ecP)

/-- The signature (r, s) of a digest verifies under a public key X, Y (R369). -/
def ecdsaVerify (pubkey sig digest : List Byte) : Bool :=
  let x := beNat (pubkey.take 32)
  let y := beNat (pubkey.drop 32)
  let r := beNat (sig.take 32)
  let s := beNat (sig.drop 32)
  ecValid x y && decide (1 ≤ r) && decide (r < ecN) && decide (1 ≤ s) && decide (s < ecN) &&
    let w := invMod ecN s
    match ecAdd (ecMul (some ecG) (beNat digest * w % ecN) 256) (ecMul (some (x, y)) (r * w % ecN) 256) with
    | none => false
    | some q => decide (q.1 % ecN = r)

end Sys2Proof.Machine
end

