-- ==== Sys2Proof/Machine/Operands.lean ====
section
/-! DEFINITION. The fields that commands carry: the physical flash address (R226), the work entry (R190, R215, R228, R241,
R245), the ring registers and the extents. -/

namespace Sys2Proof.Machine

/-! ### The physical flash address (R226) -/

def pfaSector (p : W64) : Nat := fld p 3 0
def pfaPage (p : W64) : Nat := fld p 15 4
def pfaBlock (p : W64) : Nat := fld p 31 16
def pfaPlane (p : W64) : Nat := fld p 33 32
def pfaLunNo (p : W64) : Nat := fld p 35 34
def pfaTarget (p : W64) : Nat := fld p 38 36
def pfaChannel (p : W64) : Nat := fld p 41 39
/-- The global LUN index: channel × 32 + target × 4 + LUN. -/
def pfaLun (p : W64) : Nat := fld p 41 34
/-- The address with another plane and sector. -/
def pfaAt (p : W64) (plane sector : Nat) : W64 :=
  (p &&& ~~~ (put 3 2 32 ||| put 15 4 0)) ||| put plane 2 32 ||| put sector 4 0

/-! ### The work entry (R190) -/

/-- Word i of an entry. -/
def ew (ws : List W64) (i : Nat) : W64 := ws.getD i 0

def weOwn (ws : List W64) : Bool := bit (ew ws 0) 0
def weBatchEnd (ws : List W64) : Bool := bit (ew ws 0) 1
def weEvt (ws : List W64) : Bool := bit (ew ws 0) 2
def weVerify (ws : List W64) : Bool := bit (ew ws 0) 3
def weOpcode (ws : List W64) : Nat := fld (ew ws 0) 15 8
def weCid (ws : List W64) : W16 := BitVec.ofNat 16 (fld (ew ws 0) 31 16)
def weExpiry (ws : List W64) : Nat := fld (ew ws 0) 47 32
def weKey (ws : List W64) : W32 := BitVec.ofNat 32 (fld (ew ws 2) 31 0)
def weOffset (ws : List W64) : Nat := fld (ew ws 2) 54 32
def weCount (ws : List W64) : Nat := fld (ew ws 3) 4 0
def wePlnmask (ws : List W64) : Nat := fld (ew ws 3) 11 8
def weType (ws : List W64) : Nat := fld (ew ws 3) 13 12
def weKeyslot (ws : List W64) : Nat := fld (ew ws 3) 20 16
def weClear (ws : List W64) : Bool := bit (ew ws 3) 21
def weMetakey (ws : List W64) : W32 := BitVec.ofNat 32 (fld (ew ws 4) 31 0)
def weMetaoff (ws : List W64) : Nat := fld (ew ws 4) 54 32

def opNOP := 0x01
def opWAIT := 0x02
def opREAD := 0x10
def opCHECK := 0x11
def opPROGRAM := 0x20
def opMIRROR := 0x21
def opCOPY := 0x22
def opERASE := 0x30
def opPARAM := 0x40
def opGETF := 0x41
def opSETF := 0x42
def opTRESET := 0x43
def opSUSPOL := 0x44
def opEXPORT := 0x50
def opIMPORT := 0x51

/-- The planes operated on (R228): the PFA's own, or those of PLNMASK in ascending order. -/
def planesOf (ws : List W64) : List Nat :=
  if wePlnmask ws = 0 then [pfaPlane (ew ws 1)] else (List.range 4).filter fun i => (wePlnmask ws >>> i) % 2 == 1

/-- Sectors in the areas, and the lengths of the data and metadata areas (R230). -/
def areaSectors (ws : List W64) : Nat := weCount ws * (planesOf ws).length
def dataLen (ws : List W64) : Nat :=
  if weOpcode ws = opPARAM then fld (ew ws 3) 12 0
  else if weOpcode ws = opEXPORT ∨ weOpcode ws = opIMPORT then 512 * (fld (ew ws 1) 15 8 + 1)
  else 4096 * areaSectors ws
def metaLen (ws : List W64) : Nat := 32 * areaSectors ws

/-- The entry names a data area; a metadata area. -/
def hasData (ws : List W64) : Bool :=
  [opREAD, opPROGRAM, opMIRROR, opCOPY, opPARAM, opEXPORT, opIMPORT].contains (weOpcode ws)
def hasMeta (ws : List W64) : Bool :=
  [opREAD, opPROGRAM, opMIRROR, opCOPY].contains (weOpcode ws) && decide (weMetakey ws ≠ 0)

/-- The six reads and writes of flash data that share R228's layout. -/
def isFlashOp (ws : List W64) : Bool :=
  [opREAD, opCHECK, opPROGRAM, opMIRROR, opCOPY, opERASE].contains (weOpcode ws)
def isAdminOp (ws : List W64) : Bool := [opPARAM, opGETF, opSETF, opTRESET, opSUSPOL].contains (weOpcode ws)
def isAbacusOp (ws : List W64) : Bool := decide (weOpcode ws = opEXPORT) || decide (weOpcode ws = opIMPORT)

/-- The sectors of the area in order: plane and sector of each (R230). -/
def areaOrder (ws : List W64) : List (Nat × Nat) :=
  (planesOf ws).flatMap fun p => (List.range (weCount ws)).map fun i => (p, pfaSector (ew ws 1) + i)

/-! ### Rings (R185-R187) -/

def sqCfg (s : State) (n : Nat) : W64 := regGet s blkWQS (0x400 + 8 * n)
def cqCfg (s : State) (n : Nat) : W64 := regGet s blkWQC (0x400 + 8 * n)
def sqBase (s : State) (n : Nat) : W64 := regGet s blkWQS (0x200 + 8 * n)
def cqBase (s : State) (n : Nat) : W64 := regGet s blkWQC (0x200 + 8 * n)
def cfgEnable (v : W64) : Bool := bit v 0
def cfgSize (v : W64) : Nat := fld v 4 1
def ringSize (v : W64) : Nat := 16 * 2 ^ cfgSize v
def cfgClass (v : W64) : Nat := fld v 6 5
def cfgCq (v : W64) : Nat := fld v 13 8
def cfgNmode (v : W64) : Nat := fld v 6 5
def baseKey (v : W64) : W32 := BitVec.ofNat 32 (fld v 31 0)
def baseOffset (v : W64) : Nat := fld v 54 32

/-- A completion status is a success (R206). -/
def isSuccess (st : Byte) : Bool := decide (st.toNat ≤ 2)

def stOK : Byte := 0x00
def stOK_RETRIED : Byte := 0x01
def stOK_SOFT : Byte := 0x02
def stPARTIAL : Byte := 0x03
def stUNCORRECTABLE : Byte := 0x10
def stPROGRAM_FAIL : Byte := 0x11
def stERASE_FAIL : Byte := 0x12
def stTIMEOUT : Byte := 0x13
def stMCHECK : Byte := 0x14
def stBAD_DESCRIPTOR : Byte := 0x15
def stDATA_PARITY : Byte := 0x16
def stSTALE : Byte := 0x17
def stABORTED : Byte := 0x18
def stBASELINE : Byte := 0x19

end Sys2Proof.Machine
end

