-- ==== Sys2Proof/Machine/Profile.lean ====
section
/-! DEFINITION. The loaded personality as the rest reads it (R361, R362), its ROM-baseline counterpart (R381), and the
discovered channels. -/

namespace Sys2Proof.Machine

def fchOf (s : State) (c : Nat) : Fch := tgetD s.fchs c {}
def setFch (s : State) (c : Nat) (f : Fch) : State := { s with fchs := tset s.fchs c f }

def lunOf (s : State) (l : Nat) : LunSt := tgetD (fchOf s (l / 32)).luns (l % 32) {}
def setLun (s : State) (l : Nat) (v : LunSt) : State :=
  let f := fchOf s (l / 32)
  setFch s (l / 32) { f with luns := tset f.luns (l % 32) v }

/-- The profile of a channel, when an image pair is loaded and uses the channel (R360). -/
def profileOf (s : State) (c : Nat) : Option (List Byte) :=
  match s.boot.pair with
  | none => none
  | some p =>
    let i := byteAt p.chanprof c
    if i = 0xFF then none else p.profiles[i.toNat]?

/-- The ROM baseline is active (R379). -/
def baseline (s : State) : Bool := s.boot.baseline

/-! ### Profile fields -/

def pfByte (p : List Byte) (o : Nat) : Nat := (byteAt p o).toNat
def pfHalf (p : List Byte) (o : Nat) : Nat := fieldLE p o 2
/-- Offset of TYPE record t. -/
def tyAt (t : Nat) : Nat := 0x60 + 224 * t
def tyByte (p : List Byte) (t o : Nat) : Nat := pfByte p (tyAt t + o)
def tyTime (p : List Byte) (t i : Nat) : Nat := pfHalf p (tyAt t + 8 + 2 * i)

/-- Index of an operation kind's nominal time among the TYPE record's times: sense 0, program 2, erase 4. -/
def opTime : LunOp → Nat
  | .read => 0
  | .program => 2
  | .erase => 4
  | _ => 0

/-- Nominal time in µs; the baseline gives none (R255, R381). -/
def nominalUs (s : State) (c : Nat) (k : LunOp) (t : Nat) : Nat :=
  match profileOf s c with
  | some p => tyTime p t (opTime k)
  | none => Config.baseNominal (opTime k)

/-- Limit in µs (R262, R381). -/
def limitUs (s : State) (c : Nat) (k : LunOp) (t : Nat) : Nat :=
  match profileOf s c with
  | some p => tyTime p t (opTime k + 1)
  | none => match k with
    | .program => 3000
    | .erase => 25000
    | _ => 200

/-- First-poll time in µs of an operation: after a sense, a program, an erase (R282, R381). -/
def firstPollUs (s : State) (c : Nat) (k : LunOp) (t : Nat) : Nat :=
  match profileOf s c with
  | some p => tyTime p t (6 + opTime k / 2)
  | none => 20

/-- POLLINT in core cycles: 0.5 + 0.5 × code µs. -/
def pollCycles (s : State) (c : Nat) : Nat := 200 * (fld (regGet s (blkFCH + c) 0x80) 8 4 + 1)

/-- The status bit that tells whether a cache program's page failed (R292). -/
def cacheFailBit (s : State) (c : Nat) : Nat := Config.cacheFailBit ((profileOf s c).getD []) % 8

/-- Suspend latency limit in µs: erase or program (R258). -/
def suspendUs (s : State) (c : Nat) (k : LunOp) (t : Nat) : Nat :=
  match profileOf s c with
  | some p => tyTime p t (if k = .erase then 9 else 10)
  | none => 0

def neverMask (s : State) (c : Nat) : Byte :=
  match profileOf s c with
  | some p => byteAt p 0x040
  | none => 0
def suspendBit (s : State) (c : Nat) : Nat :=
  match profileOf s c with
  | some p => pfByte p 0x041
  | none => 0

def psusprog (s : State) (c : Nat) : Bool :=
  match profileOf s c with
  | some p => (byteAt p 4).getLsbD 1
  | none => false

/-- Rate index of a TYPE (R318, R381). -/
def rateIndex (s : State) (c t : Nat) : Nat :=
  match profileOf s c with
  | some p => tyByte p t 0
  | none => 2

/-- Parity and codeword bytes of a rate index (R318). -/
def parityLen (r : Nat) : Nat := 256 + 128 * r
def codewordLen (r : Nat) : Nat := 4160 + parityLen r

def erasedLimit (s : State) (c : Nat) : Nat :=
  match profileOf s c with
  | some p => pfHalf p 0x048
  | none => 64

/-- The verify limit in bits (R338, R381). -/
def verifyLimit (s : State) (c : Nat) : Nat :=
  let v := fld (regGet s blkECC 0x80) 15 8
  if v ≠ 0 then v
  else match profileOf s c with
    | some p => pfHalf p 0x04A
    | none => 40

/-- The retry order and the number of steps of a TYPE; the baseline has step 0 alone (R321, R326). -/
def retryOrder (s : State) (c t : Nat) : List Nat :=
  match profileOf s c with
  | some p => (List.range (tyByte p t 4)).map fun i => tyByte p t (0xA0 + i)
  | none => [0]
def stepCount (s : State) (c t : Nat) : Nat :=
  match profileOf s c with
  | some p => tyByte p t 3
  | none => 1

/-- The personality gives soft steps for the TYPE. -/
def softGiven (s : State) (c t : Nat) : Bool :=
  match profileOf s c with
  | some p => (byteAt p (tyAt t + 1)).getLsbD 5
  | none => false

/-- The step at a signed offset from the centre (R323); past the step table the manual names none. -/
def softStep (s : State) (c t centre i : Nat) : Nat :=
  match profileOf s c with
  | some p =>
    let k : Int := (centre : Int) + sint (tyByte p t (5 + i)) 8
    if 0 ≤ k ∧ k < (stepCount s c t : Nat) then k.toNat else Config.softStep centre (tyByte p t (5 + i))
  | none => 0

/-- Multi-plane (read, program, erase) and cache (read, program) operations allowed for a TYPE (R287, R289). -/
def tyFlag (s : State) (c t i : Nat) : Bool :=
  match profileOf s c with
  | some p => (byteAt p (tyAt t + 1)).getLsbD i
  | none => false

def maxSusOf (s : State) (c : Nat) : Nat :=
  match profileOf s c with
  | some p => pfByte p 0x006
  | none => 0

/-- The device-managed feature addresses (R364); the baseline has no personality to mark any. -/
def managedFeatures (s : State) (c : Nat) : List Nat :=
  match profileOf s c with
  | some p =>
    pfByte p 7 :: (((List.range 4).map fun i => pfByte p (8 + 5 * i)) ++
      ((List.range 4).map fun i => pfByte p (0x01C + i))).filter (· ≠ 0)
  | none => []

def retryFeature (s : State) (c : Nat) : Option Nat := (profileOf s c).map fun p => pfByte p 7

/-- P1-P4 of a retry step. -/
def stepBytes (s : State) (c t k : Nat) : W32 :=
  match profileOf s c with
  | some p => BitVec.ofNat 32 (fieldLE p (tyAt t + 0x20 + 4 * k) 4)
  | none => 0

/-- A LUN's suspend policy: after a reset everything is allowed up to the personality's limit (R244). -/
def policyOf (s : State) (l : Nat) : Policy :=
  let m := maxSusOf s (l / 32)
  match tget s.policies l with
  | some p => { p with maxSus := min p.maxSus m }
  | none => { eraseOk := true, progOk := true, maxSus := m }

/-! ### What discovery found -/

def targetFound (s : State) (c t : Nat) : Bool := (fchOf s c).found.getLsbD t
def lunsOfTarget (s : State) (c t : Nat) : Nat := ((fchOf s c).lunm1.toNat >>> (2 * t)) % 4 + 1
/-- Discovery found the LUN of a global index (R227, R280). -/
def lunFound (s : State) (l : Nat) : Bool :=
  targetFound s (l / 32) (l % 32 / 4) && decide (l % 4 < lunsOfTarget s (l / 32) (l % 32 / 4))

/-- LUNs discovery found on a channel (R254). -/
def lunsOn (s : State) (c : Nat) : Nat := ((List.range 32).filter fun i => lunFound s (32 * c + i)).length

/-- Current bus rate of a channel, units of 4 MT/s. -/
def rateOf (s : State) (c : Nat) : Nat := (fchOf s c).rate.toNat

/-- Bus time in ns of one codeword at the channel's rate (R255, R318). -/
def codewordNs (s : State) (c t : Nat) : Nat :=
  if rateOf s c = 0 then 0 else codewordLen (rateIndex s c t) * 1000 / (4 * rateOf s c)

/-- LUNs with an operation in progress or suspended (FCHn.STAT.BUSYLUNS, R500). -/
def busyLuns (s : State) (c : Nat) : Nat :=
  ((fchOf s c).luns.filter fun e => e.2.cur.isSome || e.2.under.isSome).length

/-- A PFA within the geometry and naming a discovered LUN (R227). -/
def pfaInRange (s : State) (p : W64) : Bool :=
  let g := (fchOf s (pfaChannel p)).geo
  decide (fld p 63 42 = 0) && lunFound s (pfaLun p) && decide (pfaPlane p < g.planes) && decide (pfaBlock p < g.blocks) &&
    decide (pfaPage p < g.pages) && decide (pfaSector p < g.sectors)

/-! ### Settings of a target (R273, R278) -/

/-- Record a mismatched target (R278). -/
def recordMismatch (s : State) (c t item : Nat) : State :=
  occur s (blkFCH + c) 0x403 (put32 t 3 0 ||| put32 item 4 4) 0

/-- SET FEATURES of R273 to a target. -/
def writeFeatures (s : State) (c t : Nat) (jesd : Bool) : State :=
  let l := BitVec.ofNat 8 (32 * c + 4 * t)
  match profileOf s c with
  | some p =>
    (List.range 4).foldl (fun (acc : State × Bool) i =>
      let fa := byteAt p (8 + 5 * i)
      if acc.2 || decide (fa = 0) then (acc.1, true)
      else (emit acc.1 (.flashFeature l false fa (BitVec.ofNat 32 (fieldLE p (9 + 5 * i) 4))), false)) (s, false) |>.1
  | none => emit s (.flashFeature l false (Config.baseTiming jesd).1 (Config.baseTiming jesd).2)

end Sys2Proof.Machine
end

