-- ==== Sys2Proof/Machine/Datapath.lean ====
section
/-! DEFINITION. The data path (chapter 09): keys, the sector's codeword, its checks, the abacus; the commands KEY_LOAD,
KEY_ZERO and SLOT_ASSIGN. -/

namespace Sys2Proof.Machine

/-! ### Key slots (R307-R310, R314) -/

def keySlot (s : State) (k : Nat) : KeySlot := tgetD s.keys k {}
def setKeySlot (s : State) (k : Nat) (v : KeySlot) : State := { s with keys := tset s.keys k v }

/-- An entry in flight encrypts under a slot. -/
def usesSlot (e : Entry) (k : Nat) : Bool :=
  isFlashOp e.words && decide (weOpcode e.words ≠ opERASE) && !(weClear e.words) && decide (weKeyslot e.words = k) && !e.key.isEmpty

/-- A retiring key awaits entries fetched before the change (R309). -/
def slotRetiring (s : State) (k : Nat) : Bool :=
  s.entries.any fun e => usesSlot e k && decide (e.keyGen ≠ (keySlot s k).gen)

/-- The slot's key is zeroed for entries fetched afterwards (R309). -/
def zeroSlot (v : KeySlot) : KeySlot := { v with key := none, gen := v.gen + 1 }

/-- A write of XTS.SLOTk (R307). -/
def writeSlot (s : State) (k : Nat) (v : W64) : State :=
  let old := keySlot s k
  let d : Dom := BitVec.ofNat 4 (fld v 3 0)
  let a := bit v 4
  if d = old.d ∧ a = old.assigned then s
  else
    let s := setKeySlot s k { zeroSlot old with d := d, assigned := a }
    if old.key.isSome then occur s blkXTS 0x505 (put32 k 5 0 ||| put32 old.d.toNat 4 8) 1 else s

/-- SLOT_ASSIGN (R307). -/
def execSlotAssign (w : Dom) (k : BitVec 5) (v : W64) (s : State) : Host.Outcome State Fault Refusal :=
  .next (guardedWrite s w blkXTS (0x100 + 8 * k.toNat) {} fun s => writeSlot s k.toNat v)

/-- XTS.KRESd takes an outcome and the next SEQ. -/
def keyResult (s : State) (d : Dom) (slot result : Nat) : State :=
  regSet s blkXTS (0x280 + 8 * d.toNat)
    (put slot 5 0 ||| put result 3 5 ||| put (fld (regGet s blkXTS (0x280 + 8 * d.toNat)) 63 48 + 1) 16 48)

def keySeqOnly (s : State) (d : Dom) : State :=
  let v := regGet s blkXTS (0x280 + 8 * d.toNat)
  regSet s blkXTS (0x280 + 8 * d.toNat) (put (fld v 47 0) 48 0 ||| put (fld v 63 48 + 1) 16 48)

/-- Key word w of a domain's staging area. -/
def stageWord (s : State) (d : Dom) (w : Nat) : W64 := regGet s blkXTS (0x400 + 0x40 * d.toNat + 8 * w)

/-- The staged key 1 and key 2, 64 bytes (R308). -/
def stagedKey (s : State) (d : Dom) : List Byte := bytesOf ((List.range 8).map (stageWord s d))

/-- Every GO clears the staging area (R308). -/
def clearStage (s : State) (d : Dom) : State :=
  (List.range 8).foldl (fun s w => regSet s blkXTS (0x400 + 0x40 * d.toNat + 8 * w) 0) s

/-- A write of XTS.KCMDd (R308-R310). -/
def writeKeyCmd (s : State) (d : Dom) (v : W64) (og : Origin) : State :=
  if !(bit v 7) then s
  else
    let k := fld v 4 0
    let key := stagedKey s d
    let s := clearStage s d
    let slot := keySlot s k
    if !(slot.assigned && decide (slot.d = d)) then
      violate (keySeqOnly s d) d { kind := 1, p1 := BitVec.ofNat 32 (regAddr blkXTS (0x200 + 8 * d.toNat)) } og
    else if slotRetiring s k then keyResult s d k 2
    else if bit v 5 then
      keyResult (occur (setKeySlot s k (zeroSlot slot)) blkXTS 0x505 (put32 k 5 0 ||| put32 d.toNat 4 8) 0) d k 0
    else if key.take 32 = key.drop 32 then keyResult s d k 1
    else
      let s := setKeySlot s k { slot with key := some key, gen := slot.gen + 1, loads := slot.loads + 1 }
      keyResult (occur s blkXTS 0x504 (put32 k 5 0 ||| put32 d.toNat 4 8) 0) d k 0

/-- KEY_LOAD (R308). -/
def execKeyLoad (w d : Dom) (v : W64) (s : State) : Host.Outcome State Fault Refusal :=
  .next (guardedWrite s w blkXTS (0x200 + 8 * d.toNat) {} fun s => writeKeyCmd s d v {})

/-- KEY_ZERO (R309). -/
def execKeyZero (w d : Dom) (v : W64) (s : State) : Host.Outcome State Fault Refusal :=
  .next (guardedWrite s w blkXTS (0x200 + 8 * d.toNat) {} fun s => writeKeyCmd s d v {})

/-- Every key is destroyed (R314). -/
def destroyKeys (s : State) : State := { s with keys := s.keys.map fun e => (e.1, { zeroSlot e.2 with d := e.2.d }) }

/-! ### The codeword (R301-R304, R311-R318) -/

/-- KEYINFO (R302): key slot and CLEAR. -/
def keyInfo (ws : List W64) : Byte := BitVec.ofNat 8 (weKeyslot ws + 32 * b2n (weClear ws))

/-- The device part of a sector's metadata without its CRC, bytes 32-59 (R302). -/
def deviceMeta (pfa : W64) (ws : List W64) (rate : Nat) (d : Dom) (frame : W32) : List Byte :=
  leBytes 6 (fld pfa 41 0) ++ [keyInfo ws, BitVec.ofNat 8 (rate + 8 * weType ws)] ++ leBytes 4 frame.toNat ++
    [BitVec.ofNat 8 d.toNat] ++ List.replicate 15 0

/-- The data bytes as they leave XTS (R303, R311, R312). -/
def xtsOut (enc : Bool) (ws : List W64) (key : List Byte) (pfa : W64) (data : List Byte) : List Byte :=
  if weClear ws then data else xtsUnit enc key pfa data

/-- The codeword of a sector: data and metadata randomised, then the parity of the rate (R301-R303, R315-R318). -/
def encodeSector (pfa : W64) (ws : List W64) (key : List Byte) (rate : Nat) (d : Dom) (frame : W32) (data hostMeta : List Byte) :
    List Byte :=
  let stored := xtsOut true ws key pfa data
  let md := hostMeta ++ deviceMeta pfa ws rate d frame
  let crc := crc32c (stored ++ md)
  let body := randomise (rndSeed pfa) (stored ++ md ++ leBytes 4 crc.toNat)
  body ++ (List.range (parityLen rate)).map (Config.ldpcParity rate body)

/-- The checks of R304 on a decoded, derandomised sector; 0 passes. -/
def sectorCheck (pfa : W64) (ws : List W64) (data md : List Byte) : Nat :=
  if fieldLE md 60 4 ≠ (crc32c (data ++ md.take 60)).toNat then 1
  else if fieldLE md 32 6 % 2 ^ 42 ≠ fld pfa 41 0 then 2
  else if (byteAt md 38) &&& 0x3F ≠ keyInfo ws then 3
  else 0

/-- Derandomise what the decoder gave: data and metadata (R315). -/
def derandomise (pfa : W64) (r : DecodeResult) : List Byte × List Byte :=
  let b := randomise (rndSeed pfa) (r.data ++ r.md)
  (b.take 4096, (b.drop 4096).take 64)

/-! ### The abacus (R328-R336) -/

/-- The address of a bead: LUN, group of the block, band (R328). -/
def groupOfBlock (s : State) (l block : Nat) : Nat := block * 64 / max 1 (fchOf s (l / 32)).geo.blocks
def beadAddr (l g b : Nat) : Nat := 512 * l + 8 * g + b

def beadAt (s : State) (a : Nat) : Byte := tgetD s.beads a 0
def setBead (s : State) (a : Nat) (v : Byte) : State :=
  { s with beads := if v = 0 then terase s.beads a else tset s.beads a v, badBeads := s.badBeads.erase a }

def beadValid (b : Byte) : Bool := b.getLsbD 7
def beadStep (b : Byte) : Nat := b.toNat % 32
def beadConf (b : Byte) : Nat := b.toNat / 32 % 4
def mkBead (step conf : Nat) : Byte := BitVec.ofNat 8 (128 + 32 * conf + step % 32)

/-- Read a bead; one that fails parity counts as empty, is recorded and is left empty (R334). -/
def readBead (s : State) (a : Nat) : State × Byte :=
  if s.badBeads.contains a then (setBead (occur s blkABA 0x507 (BitVec.ofNat 32 a) 0) a 0, 0) else (s, beadAt s a)

def abacusOn (s : State) : Bool := bit (regGet s blkABA 0x80) 0 && !(baseline s)

/-- ABA.TOFF byte c, limited to ±40 °C. -/
def tempOffset (s : State) (c : Nat) : Int := max (-40) (min 40 (sint (fld (regGet s blkABA 0x88) (8 * c + 7) (8 * c)) 8))

/-- Temperature of a channel in units of 0.25 °C (R329). -/
def channelTemp (s : State) (c : Nat) : Int := sint (s.mon.temps.getD c 0).toNat 16 + 4 * tempOffset s c

/-- The nominal band of a temperature (R329). -/
def nominalBand (t : Int) : Nat := (max 0 (min 7 ((t + 160) / 80))).toNat

/-- The band in use after hysteresis: a change only at least 1 °C inside the new band (R329). -/
def nextBand (cur : Nat) (t : Int) : Nat :=
  let nb := nominalBand t
  let lo : Int := 80 * (nb : Int) - 160
  if nb = cur then cur
  else if cur < nb then (if 4 ≤ t - lo then nb else cur)
  else if 4 ≤ lo + 80 - t then nb else cur

/-- The band in use, from its reset value 0 on (ABA.BAND). -/
def bandOf (s : State) (c : Nat) : Nat := tgetD s.bands c 0
def updateBand (s : State) (c : Nat) : State := { s with bands := tset s.bands c (nextBand (bandOf s c) (channelTemp s c)) }

/-- The start of a plane's read: its step, the band, the own bead and whether a bead gave the step (R330). `count` for a
read, not for a verify (ABA.CNT). -/
def startStep (s : State) (l block : Nat) (count : Bool) : State × Nat × Nat × Byte × Bool :=
  let s := updateBand s (l / 32)
  let b := bandOf s (l / 32)
  if !(abacusOn s) then (s, 0, b, 0, false)
  else
    let g := groupOfBlock s l block
    let (s, own) := readBead s (beadAddr l g b)
    if beadValid own then
      ({ s with abaOwn := if count then s.abaOwn + 1 else s.abaOwn }, beadStep own, b, own, true)
    else
      let (s, below) := if 0 < b then readBead s (beadAddr l g (b - 1)) else (s, 0)
      if beadValid below then
        ({ s with abaBorrow := if count then s.abaBorrow + 1 else s.abaBorrow }, beadStep below, b, own, true)
      else
        let (s, above) := if b < 7 then readBead s (beadAddr l g (b + 1)) else (s, 0)
        if beadValid above then
          ({ s with abaBorrow := if count then s.abaBorrow + 1 else s.abaBorrow }, beadStep above, b, own, true)
        else ({ s with abaNominal := if count then s.abaNominal + 1 else s.abaNominal }, 0, b, own, false)

/-- The own bead after a decided read (R331): `soft` when any sector needed soft decoding. -/
def beadAfter (own : Byte) (step : Nat) (soft : Bool) : Byte :=
  if soft then mkBead step 0
  else if !(beadValid own) then mkBead step 0
  else if beadStep own = step then mkBead step (min 3 (beadConf own + 1))
  else if 2 ≤ beadConf own then mkBead (beadStep own) (beadConf own - 1)
  else mkBead step 0

/-- Every bead is emptied (R335, R366). -/
def emptyAbacus (s : State) : State := { s with beads := [], badBeads := [] }

/-! ### Records of failed sectors (R304, R327, R338) -/

def recordSector (s : State) (code : BitVec 12) (l : Nat) (d : Dom) (ring : BitVec 6) (sector hard block page plane check : Nat) : State :=
  occur s blkECC code
    (put32 l 8 0 ||| put32 d.toNat 4 8 ||| put32 sector 4 12 ||| put32 ring.toNat 6 16 ||| put32 hard 6 22 ||| put32 check 4 28)
    (put32 block 16 0 ||| put32 page 12 16 ||| put32 plane 2 28)

end Sys2Proof.Machine
end

