-- ==== Sys2Proof/Machine/Tenancy.lean ====
section
/-! DEFINITION. Windows, regions and extents (chapter 05): the commands WINDOW_WRITE, REGION_REGISTER, REGION_DEREGISTER,
REGION_FREED and EXTENT_*. -/

namespace Sys2Proof.Machine

/-! ### Pinned regions (R168) -/

/-- An entry in flight names a buffer address in a region (R168): its area's key is the region's. -/
def entryNames (e : Entry) (i : Nat) (r : Region) : Bool :=
  let is (k : W32) : Bool := decide (k.toNat / 2 ^ 24 = i) && decide (k.setWidth 24 = r.tag) && decide (e.d = r.d)
  (hasData e.words && is (weKey e.words)) || (hasMeta e.words && is (weMetakey e.words))

/-- A region is pinned: a ring placed in it is enabled, an entry in flight names it, a mover program is installed with a
descriptor that names it, or a posted buffer lies in it (R168, R189). -/
def regionPinned (s : State) (i : Nat) (r : Region) : Bool :=
  (s.sqs.any fun e => cfgEnable (sqCfg s e.1) && decide ((baseKey (sqBase s e.1)).toNat / 2 ^ 24 = i)) ||
  (s.cqs.any fun e => cfgEnable (cqCfg s e.1) && decide ((baseKey (cqBase s e.1)).toNat / 2 ^ 24 = i)) ||
  (s.entries.any fun e => entryNames e i r) ||
  (s.movers.any fun e => e.2.pins.contains i || ((e.2.job.map (·.pins)).getD []).contains i) ||
  (s.conns.any fun e => e.2.posted.any fun p => decide (fld p 31 24 = i) && decide (fld p 23 0 = r.tag.toNat))

/-! ### Windows (R160-R162) -/

/-- A new window keeps every byte of a domain's wide region, and the place of a pinned one (R162, R168). DEDUCED: a wide
region's bytes are its window's, and a window whose first page moves would move what a pinned region's offsets name. -/
def keepsWide (s : State) (d i : Nat) (r : Region) (base pages : Nat) : Bool :=
  decide (winLen s d = 0) ||
    (decide (base * 4096 ≤ winBase s d) && decide (winBase s d + winLen s d ≤ (base + pages) * 4096) &&
      (!(regionPinned s i r) || decide (base * 4096 = winBase s d)))

/-- Why a window write is refused (DOM.RESULT REASON); 0 accepts. -/
def windowReason (s : State) (d : Nat) (base pages : Nat) : Nat :=
  if 2048 < base + pages then 1
  else if decide (0 < pages) && (List.range 16).any (fun e =>
      decide (e ≠ d) && decide (0 < winLen s e) && decide (base * 4096 < winBase s e + winLen s e) &&
        decide (winBase s e < (base + pages) * 4096)) then 2
  else if s.conns.any (fun e => decide (e.2.d.toNat = d) &&
        (decide (e.2.base < base * 4096) || decide ((base + pages) * 4096 < e.2.base + e.2.len)))
      || s.regions.any (fun e => decide (e.2.d.toNat = d) && !e.2.wide &&
        (decide (e.2.base < base * 4096) || decide ((base + pages) * 4096 < e.2.base + e.2.len)))
      || s.regions.any (fun e => decide (e.2.d.toNat = d) && e.2.wide && !(keepsWide s d e.1 e.2 base pages)) then 3
  else 0

/-- A write of DOM.WINDOWd (R162). -/
def writeWindow (s : State) (d : Dom) (v : W64) : State :=
  match windowReason s d.toNat (fld v 10 0) (fld v 27 16) with
  | 0 => regStore s blkDOM (0x118 + 0x40 * d.toNat) v
  | r => regSet s blkDOM 0x80 (put d.toNat 4 0 ||| put r 3 4)

/-- WINDOW_WRITE (R162). -/
def execWindowWrite (w d : Dom) (v : W64) (s : State) : Host.Outcome State Fault Refusal :=
  .next (guardedWrite s w blkDOM (0x118 + 0x40 * d.toNat) {} fun s => writeWindow s d v)

/-! ### Regions (R164-R171) -/

/-- Regions a domain holds, valid and DYING alike. -/
def regionsOf (s : State) (d : Dom) : Nat := (s.regions.filter fun e => decide (e.2.d = d)).length

/-- RGN.RESd takes an outcome and the next SEQ (R164, R169). -/
def regionResult (s : State) (d : Dom) (index tag result : Nat) : State :=
  regSet s blkRGN (0x100 + 8 * d.toNat)
    (put index 8 0 ||| put tag 24 8 ||| put result 3 32 ||| put (fld (regGet s blkRGN (0x100 + 8 * d.toNat)) 63 48 + 1) 16 48)

/-- SEQ alone advances (R170). -/
def regionSeqOnly (s : State) (d : Dom) : State :=
  let v := regGet s blkRGN (0x100 + 8 * d.toNat)
  regSet s blkRGN (0x100 + 8 * d.toNat) (put (fld v 47 0) 48 0 ||| put (fld v 63 48 + 1) 16 48)

/-- A tag the sequence of R165 may issue next: free, but never zero and never the descriptor's last. -/
def issueTag (s : State) (i : Nat) : BitVec 24 :=
  let last := tgetD s.tags i 0
  let t := Config.freeTag s.freeCtr
  let t := if t = 0 then 1 else t
  if t = last then (if t = 0xFFFFFF then 1 else t + 1) else t

/-- Why a registration is refused (RGN.RESd RESULT); 0 accepts. -/
def registerRefusal (s : State) (d : Dom) (wide : Bool) (base len : Nat) : Nat :=
  let cfg := regGet s blkDOM (0x100 + 0x40 * d.toNat)
  if fld cfg 15 8 ≤ regionsOf s d then 2
  else if (tlowestFree s.regions 256).isNone then 1
  else if wide then
    (if bit cfg 1 && !(s.regions.any fun e => decide (e.2.d = d) && e.2.wide) then 0 else 5)
  else if base < winBase s d.toNat ∨ winBase s d.toNat + winLen s d.toNat < base + len then 3
  else if (chargedIn s base len).isSome then 4
  else 0

/-- Registration (R164-R166). -/
def registerRegion (s : State) (d : Dom) (v : W64) : State :=
  let base := fld v 22 8 * 256
  let len := (fld v 37 23 + 1) * 256
  match registerRefusal s d (bit v 3) base len with
  | 0 =>
    match tlowestFree s.regions 256 with
    | none => s
    | some i =>
      let tag := issueTag s i
      let r : Region := { d := d, tag := tag, rd := bit v 1, wr := bit v 2, wide := bit v 3, base := base, len := len }
      regionResult { s with regions := tset s.regions i r, tags := tset s.tags i tag, freeCtr := s.freeCtr + 1 } d i tag.toNat 0
  | r => regionResult s d 0 0 r

/-- A region's posted buffers leave their posted lists (R169 step 2). -/
def dropPosted (s : State) (i : Nat) (r : Region) : State :=
  { s with conns := s.conns.map fun e =>
      (e.1, { e.2 with posted := e.2.posted.filter fun p => !(decide (fld p 31 24 = i) && decide (fld p 23 0 = r.tag.toNat)) }) }

/-- Deregistration (R169, R170). -/
def deregisterRegion (s : State) (d : Dom) (v : W64) (og : Origin) : State :=
  let i := fld v 55 48
  let foreign (s : State) : State := violate (regionSeqOnly s d) d { kind := 3, p1 := put32 i 8 24 } og
  match tget s.regions i with
  | none => foreign s
  | some r =>
    if r.d ≠ d then foreign s
    else if r.dying then regionResult s d i r.tag.toNat 6
    else
      let s := dropPosted s i r
      if regionPinned s i r then regionResult { s with regions := tset s.regions i { r with dying := true } } d i r.tag.toNat 6
      else regionResult { s with regions := terase s.regions i } d i r.tag.toNat 0

/-- A write of RGN.REGd (R164, R169, R171). -/
def writeRegion (s : State) (d : Dom) (v : W64) (og : Origin) : State :=
  if bit v 0 then deregisterRegion s d v og else registerRegion s d v

/-- REGION_REGISTER (R164). -/
def execRegionRegister (w d : Dom) (v : W64) (s : State) : Host.Outcome State Fault Refusal :=
  .next (guardedWrite s w blkRGN (0x80 + 8 * d.toNat) {} fun s => writeRegion s d v {})

/-- REGION_DEREGISTER (R169). -/
def execRegionDeregister (w d : Dom) (v : W64) (s : State) : Host.Outcome State Fault Refusal :=
  .next (guardedWrite s w blkRGN (0x80 + 8 * d.toNat) {} fun s => writeRegion s d v {})

/-- REGION_FREED (R169 step 4): the last reference to a DYING descriptor has ended. -/
def execRegionFreed (index : Byte) (s : State) : Host.Outcome State Fault Refusal :=
  .next (match tget s.regions index.toNat with
    | none => s
    | some r =>
      if r.dying && !(regionPinned s index.toNat r) then { s with regions := terase s.regions index.toNat } else s)

/-! ### Extents (R172-R176) -/

/-- The staged extent (EXT.STAGE0 and STAGE1). -/
def stagedExtent (s : State) : Extent :=
  let a := regGet s blkEXT 0x80
  let b := regGet s blkEXT 0x88
  { d := BitVec.ofNat 4 (fld a 4 1), rd := bit a 5, pg := bit a 6, er := bit a 7, ad := bit a 8
    ch := BitVec.ofNat 3 (fld a 11 9), tgts := BitVec.ofNat 8 (fld a 19 12), luns := BitVec.ofNat 4 (fld a 23 20)
    plns := BitVec.ofNat 4 (fld a 27 24), first := BitVec.ofNat 16 (fld b 15 0), last := BitVec.ofNat 16 (fld b 31 16) }

/-- An extent as STAGE0 shows it. -/
def extentWord0 (x : Extent) : W64 :=
  putB x.valid 0 ||| put x.d.toNat 4 1 ||| putB x.rd 5 ||| putB x.pg 6 ||| putB x.er 7 ||| putB x.ad 8 |||
    put x.ch.toNat 3 9 ||| put x.tgts.toNat 8 12 ||| put x.luns.toNat 4 20 ||| put x.plns.toNat 4 24
def extentWord1 (x : Extent) : W64 := put x.first.toNat 16 0 ||| put x.last.toNat 16 16

/-- Two extents overlap (R174). -/
def extentsOverlap (x y : Extent) : Bool :=
  decide (x.ch = y.ch) && decide (x.tgts &&& y.tgts ≠ 0) && decide (x.luns &&& y.luns ≠ 0) &&
    decide (x.plns &&& y.plns ≠ 0) && decide (x.first.toNat ≤ y.last.toNat) && decide (y.first.toNat ≤ x.last.toNat)

/-- A common target of which either extent carries ADMIN (R175). -/
def adminShared (x y : Extent) : Bool :=
  decide (x.ch = y.ch) && decide (x.tgts &&& y.tgts ≠ 0) && (x.ad || y.ad)

/-- The first valid extent of another domain that meets a condition, whatever index is being written. -/
def clashWith (s : State) (x : Extent) (p : Extent → Bool) : Option Nat :=
  (s.extents.find? fun e => e.2.valid && decide (e.2.d ≠ x.d) && p e.2).map (·.1)

/-- EXT.RESULT of an install: code and clashing index (R174, R175). -/
def installResult (s : State) (x : Extent) : Nat × Nat :=
  if x.tgts = 0 ∨ x.luns = 0 ∨ x.plns = 0 ∨ x.last.toNat < x.first.toNat then (3, 0)
  else match clashWith s x (extentsOverlap x) with
    | some j => (1, j)
    | none => match clashWith s x (adminShared x) with
      | some j => (2, j)
      | none => (0, 0)

def extentResult (s : State) (r : Nat × Nat) : State := regSet s blkEXT 0x98 (put r.1 3 0 ||| put r.2 9 4)

/-- A write of EXT.CMD (R174-R176). -/
def writeExtCmd (s : State) (v : W64) : State :=
  if !(bit v 11) then s
  else
    let i := fld v 8 0
    match fld v 10 9 with
    | 0 =>
      let x := stagedExtent s
      let r := installResult s x
      extentResult (if r.1 = 0 then { s with extents := tset s.extents i x } else s) r
    | 1 => extentResult { s with extents := tmod s.extents i fun x => { x with valid := false } } (0, 0)
    | 2 =>
      let (a, b) := match tget s.extents i with
        | some x => (extentWord0 x, extentWord1 x)
        | none => (0, 0)
      extentResult (regSet (regSet s blkEXT 0x80 a) blkEXT 0x88 b) (0, 0)
    | _ => extentResult s (3, 0)

/-- EXTENT_INSTALL (R174). -/
def execExtentInstall (w : Dom) (v : W64) (s : State) : Host.Outcome State Fault Refusal :=
  .next (guardedWrite s w blkEXT 0x90 {} fun s => writeExtCmd s v)

/-- EXTENT_REMOVE (R176). -/
def execExtentRemove (w : Dom) (v : W64) (s : State) : Host.Outcome State Fault Refusal :=
  .next (guardedWrite s w blkEXT 0x90 {} fun s => writeExtCmd s v)

/-- EXTENT_READ_BACK (R176). -/
def execExtentReadBack (w : Dom) (v : W64) (s : State) : Host.Outcome State Fault Refusal :=
  .next (guardedWrite s w blkEXT 0x90 {} fun s => writeExtCmd s v)

/-- EXTENT_OP_INVALID (R176). -/
def execExtentOpInvalid (w : Dom) (v : W64) (s : State) : Host.Outcome State Fault Refusal :=
  .next (guardedWrite s w blkEXT 0x90 {} fun s => writeExtCmd s v)

/-- R172, with the parts of the address that the scope compares. -/
def extentHolds (x : Extent) (p : W64) (lunToo blockToo : Bool) : Bool :=
  x.valid && decide (x.ch.toNat = pfaChannel p) && x.tgts.getLsbD (pfaTarget p) &&
    (!lunToo || x.luns.getLsbD (pfaLunNo p)) &&
    (!blockToo || (x.plns.getLsbD (pfaPlane p) && decide (x.first.toNat ≤ pfaBlock p) && decide (pfaBlock p ≤ x.last.toNat)))

inductive Right
  | read | program | erase | admin
deriving DecidableEq, Repr

def extentRight (x : Extent) : Right → Bool
  | .read => x.rd
  | .program => x.pg
  | .erase => x.er
  | .admin => x.ad

/-- A domain's extents. -/
def domExtents (s : State) (d : Dom) : List Extent := (s.extents.map (·.2)).filter fun x => decide (x.d = d)

/-- An address lies in one of the extents that carries the right (R173). -/
def extentsAllow (l : List Extent) (p : W64) (r : Right) (lunToo blockToo : Bool) : Bool :=
  l.any fun x => extentRight x r && extentHolds x p lunToo blockToo

/-- An address lies in an extent of the domain that carries the right (R173). -/
def inExtents (s : State) (d : Dom) (p : W64) (r : Right) (lunToo blockToo : Bool) : Bool :=
  extentsAllow (domExtents s d) p r lunToo blockToo

end Sys2Proof.Machine
end

