-- ==== Sys2Proof/Machine/Rings.lean ====
section
/-! DEFINITION. Rings (chapter 06): claiming, placing, enabling and disabling, completions, batches, waits. Doorbells, the
fetch of an entry and its checks, and the entries that take no flash stand in Fetch.lean. -/

namespace Sys2Proof.Machine

/-! ### Views -/

/-- The entries of a submission ring in flight (R201). -/
def ringEntries (s : State) (n : Nat) : List Entry := s.entries.filter fun e => decide (e.ref.sq.toNat = n)

/-- The completions of a submission ring that a completion ring holds. -/
def ringHeld (s : State) (n : Nat) : Nat :=
  s.cqs.foldl (fun k c => k + (c.2.held.filter fun x => decide (x.sq.toNat = n)).length) 0

/-- IDLE: nothing in flight and no completion held (WQS.PTRn). -/
def sqIdle (s : State) (n : Nat) : Bool := (ringEntries s n).isEmpty && decide (ringHeld s n = 0)

/-- A completion ring holds no completion. -/
def cqIdle (s : State) (n : Nat) : Bool :=
  match tget s.cqs n with
  | none => true
  | some c => c.held.isEmpty

def entryOf? (s : State) (r : EntryRef) : Option Entry := s.entries.find? fun e => decide (e.ref = r)

/-- Replace an entry in flight. -/
def setEntry (s : State) (e : Entry) : State :=
  { s with entries := s.entries.map fun x => if x.ref = e.ref then e else x }

/-- An entry leaves flight (R201). -/
def leaveFlight (s : State) (r : EntryRef) : State := { s with entries := s.entries.filter fun e => decide (e.ref ≠ r) }

/-- An entry's last operation has ended: its completion is due (R207). -/
def endEntry (s : State) (r : EntryRef) (status : Byte) (result : W32) : State :=
  match entryOf? s r with
  | none => s
  | some e =>
    if e.phase = .ended ∨ e.phase = .held then s
    else setEntry s { e with phase := .ended, status := status, result := result }

/-- A WAIT_COUNT of the ring has been fetched and has not ended (R216). -/
def waitPending (s : State) (n : Nat) : Bool :=
  (ringEntries s n).any fun e => decide (weOpcode e.words = opWAIT) && (decide (e.phase = .fetched) || decide (e.phase = .running))

/-- A batch that is closed and all of whose members have ended: its completion is due (R213). -/
def batchDue (b : Batch) : Bool := b.closed && decide (b.folded + b.failed = b.members)

/-- RING_IDLE once a disabled ring has nothing in flight, no completion held and none still to be made (R223). -/
def idleCheck (s : State) (n : Nat) : State :=
  match tget s.sqs n with
  | none => s
  | some q =>
    if cfgEnable (sqCfg s n) = false ∧ q.idleTold = false ∧ sqIdle s n = true ∧ (q.batches.any batchDue) = false then
      occurRing { s with sqs := tset s.sqs n { q with idleTold := true } } blkWQS q.owner 0x302
        (put32 n 6 0 ||| put32 q.owner.toNat 4 8) 0
    else s

/-! ### Waits (R215-R217) -/

/-- The condition of R216. -/
def waitMet (done value : W32) : Bool := decide ((done - value).toNat < 2 ^ 31)

/-- DONE of the ring a WAIT_COUNT of domain d watches; zero where R218 lets the domain see none. -/
def watchedDone (s : State) (d : Dom) (n : Nat) : W32 :=
  match tget s.sqs n with
  | none => 0
  | some q => if q.owner = d then q.done else 0

/-- A pending WAIT_COUNT of ring m ends; its RESULT is the watched ring's DONE (R205, R216). -/
def endWait (s : State) (m : Nat) (q : Sq) (x : Wait) (status : Byte) : State :=
  endEntry { s with sqs := tset s.sqs m { q with wait := none } } ⟨BitVec.ofNat 6 m, x.count⟩ status
    (watchedDone s q.owner x.ring.toNat)

/-- DONE of ring n has changed: every WAIT_COUNT watching it is tested (R216). -/
def testWaits (s : State) (n : Nat) : State :=
  s.sqs.foldl (fun s e =>
    match e.2.wait with
    | none => s
    | some x =>
      let done := ((tget s.sqs n).map (·.done)).getD 0
      if x.ring.toNat = n ∧ waitMet done x.value = true then endWait s e.1 e.2 x stOK else s) s

/-! ### Placement (R185, R189) -/

/-- The placement rule of R185. -/
def placed (s : State) (d : Dom) (base : W64) (bytes align : Nat) : Bool :=
  match keyed s d (baseKey base) with
  | none => false
  | some r => r.rd && r.wr && decide (baseOffset base % align = 0) && decide (baseOffset base + bytes ≤ (regionSpan s r).2)

/-- The buffer address of a ring slot: the ring keeps working in a DYING region (R169). -/
def slotAddr (s : State) (base : W64) (off : Nat) : Option Nat :=
  match tget s.regions ((baseKey base).toNat / 2 ^ 24) with
  | none => none
  | some r => some ((regionSpan s r).1 + baseOffset base + off)

/-! ### Completion entries (R205-R211, R219-R221) -/

/-- µs from doorbell receipt (R249), saturating. -/
def elapsedUs (s : State) (e : Entry) : Nat := sat ((cycles s - e.receipt) / 400) 16

/-- The limit of an URGENT entry in µs (R263). -/
def urgentLimit (ws : List W64) : Nat := if weOpcode ws = opREAD ∨ weOpcode ws = opCHECK then 350 else 2000

/-- RESULT bits [63:32] of a flash or admin entry (R249). -/
def resultHigh (s : State) (e : Entry) : W64 :=
  put (elapsedUs s e) 16 32 ||| putB e.guaranteed 48 |||
    putB (e.guaranteed && decide (urgentLimit e.words < elapsedUs s e)) 49 ||| putB e.suspender 50 ||| putB e.suspended 51

/-- The four words of a completion entry (R205). -/
def complWords (s : State) (x : Compl) (dom : Dom) : List W64 :=
  let sqn := x.sq.toNat
  let head := ((tget s.sqs sqn).map (·.head)).getD 0
  let high : W64 := match x.ref with
    | none => 0
    | some r => match entryOf? s r with
      | none => 0
      | some e => if x.timed then resultHigh s e else 0
  [1 ||| putB x.batch 1 ||| putB x.learning 2 ||| putB x.incomplete 3 ||| put x.status.toNat 8 8 ||| put x.cid.toNat 16 16 |||
     put sqn 6 32 ||| put (epochOf s dom).toNat 16 48,
   put head.toNat 16 0 ||| put x.count.toNat 16 16 ||| put x.failed.toNat 16 32,
   stamp s,
   put x.result.toNat 32 0 ||| high]

/-- An event copy is made for this completion (R219). -/
def copyWanted (nmode : Nat) (x : Compl) : Bool :=
  match nmode with
  | 1 => true
  | 2 => !(isSuccess x.status) || x.evt
  | 3 => !(isSuccess x.status)
  | _ => false

/-- GUARANTEED and LATE are counted, and URGENT_LATE recorded, when the completion is written (R265, SCH.CNT). -/
def countGuarantee (s : State) (x : Compl) (e : Entry) : State :=
  if !(x.timed && e.guaranteed) then s
  else
    let s := { s with guarCnt := s.guarCnt + 1 }
    if urgentLimit e.words < elapsedUs s e then
      occur { s with lateCnt := s.lateCnt + 1 } blkSCH 0x308 (put32 (elapsedUs s e) 16 0)
        (put32 (weCid e.words).toNat 16 0 ||| put32 e.ref.sq.toNat 6 16)
    else s

/-- What follows a written completion: TAIL, DONE, the event copy, flight, waits, idleness (R207, R210, R220, R201). -/
def complWritten (s : State) (q : Nat) (c : Cq) (x : Compl) : State :=
  let n := x.sq.toNat
  let s := { s with
    cqs := tset s.cqs q { c with tail := c.tail + 1, held := c.held.tail }
    sqs := tmod s.sqs n fun r => { r with done := r.done + (if x.batch then x.count.setWidth 32 else 1) } }
  let s := match x.ref with
    | none => s
    | some r => match entryOf? s r with
      | none => s
      | some e => countGuarantee s x e
  let s :=
    if copyWanted (cfgNmode (cqCfg s q)) x then
      copyTo s 0 blkWQC 0x300 (put32 q 6 0 ||| put32 n 6 8 ||| put32 x.cid.toNat 16 16)
        (put32 c.tail.toNat 16 0 ||| put32 x.status.toNat 8 16) (eventConns s c.owner)
    else s
  let s := match x.ref with
    | none => s
    | some r => leaveFlight s r
  idleCheck (testWaits s n) n

/-- RING_FULL is recorded once per episode (R208). -/
def noteFull (s : State) (q : Nat) (c : Cq) (parity : Bool) : State :=
  if c.full then s
  else occurRing { s with cqs := tset s.cqs q { c with full := true } } blkWQC c.owner 0x305
    (put32 q 6 0 ||| put32 c.owner.toNat 4 8 ||| put32 (b2n parity) 1 12) 0

/-- Write the first held completion of a ring, or find the ring full (R207, R208). A retired page takes no write and answers
zeros: the completion counts as made and is lost (R189). -/
def writeFirst (s : State) (q : Nat) : State × Bool :=
  match tget s.cqs q with
  | none => (s, false)
  | some c =>
    match c.held with
    | [] => (s, false)
    | x :: _ =>
      match slotAddr s (cqBase s q) (32 * (c.tail.toNat % ringSize (cqCfg s q))) with
      | none => (complWritten s q c x, true)
      | some a =>
        match retiredIn s a 32 with
        | some y =>
          (complWritten (violate s c.owner { kind := 5, p1 := BitVec.ofNat 32 y } { ring := BitVec.ofNat 6 q }) q c x, true)
        | none =>
          if parityBad s a then (noteFull (noteFailing s 3 [a]) q c true, false)
          else if (memGet s a).getLsbD 0 then (noteFull s q c false, false)
          else
            let ws := complWords s x c.owner
            let s := memWrite s (a + 8) (bytesOf (ws.drop 1))
            let s := memWrite s a (bytesOf (ws.take 1))
            (complWritten s q c x, true)

/-- Write held completions in order until the ring is full or none is left. -/
def drainCq (s : State) (q : Nat) : Nat → State
  | 0 => s
  | k + 1 =>
    match writeFirst s q with
    | (s, true) => drainCq s q k
    | (s, false) =>
      match tget s.cqs q with
      | none => s
      | some c => if c.held.isEmpty then { s with cqs := tset s.cqs q { c with full := false } } else s

/-- The slot is read again (R208). -/
def retryCq (s : State) (q : Nat) : State :=
  match tget s.cqs q with
  | none => s
  | some c => drainCq s q (c.held.length + 1)

/-- Every completion is held back: after a brown-out of R506 none is written before the recovery. -/
def complBlocked (s : State) : Bool := s.pmu.brownWait || decide (s.phase ≠ .running)

/-- A completion has become ready: it goes behind those its ring holds (R208). -/
def readyCompl (s : State) (x : Compl) : State :=
  let q := cfgCq (sqCfg s x.sq.toNat)
  let s := { s with cqs := tmod s.cqs q fun c => { c with held := c.held ++ [x] } }
  if complBlocked s then s else retryCq s q

/-! ### Batches (R212, R213) -/

/-- Change a batch of a ring. -/
def modBatch (q : Sq) (b : Nat) (f : Batch → Batch) : Sq :=
  { q with batches := q.batches.map fun x => if x.id = b then f x else x }

/-- A closed batch all of whose members have ended receives its completion (R213). -/
def batchCheck (s : State) (n : Nat) : State :=
  match tget s.sqs n with
  | none => s
  | some q =>
    match q.batches.find? batchDue with
    | none => s
    | some b =>
      let s := { s with sqs := tset s.sqs n { q with batches := q.batches.filter fun x => decide (x.id ≠ b.id) } }
      readyCompl s
        { ref := none, sq := BitVec.ofNat 6 n, batch := true, learning := b.learning, incomplete := b.incomplete
          status := b.best, cid := b.cid, evt := b.evt, count := BitVec.ofNat 16 b.folded
          failed := BitVec.ofNat 16 b.failed, result := 0, timed := false }

/-- RESULT has the form of R249: a flash or admin entry that passed checks 1 to 3. -/
def isTimed (e : Entry) : Bool :=
  (isFlashOp e.words || isAdminOp e.words || isAbacusOp e.words) && decide (e.status ≠ stBAD_DESCRIPTOR)

/-- The completion of an entry that has ended (R205). -/
def complOf (e : Entry) : Compl :=
  { ref := some e.ref, sq := e.ref.sq, batch := false, learning := e.learning, incomplete := false, status := e.status
    cid := e.cid, evt := weEvt e.words, count := 1, failed := 0, result := e.result, timed := isTimed e }

/-- The completion ring of a submission ring has a free slot (R207, R263). -/
def cqFree (s : State) (n : Nat) : Bool :=
  let q := cfgCq (sqCfg s n)
  match tget s.cqs q with
  | none => false
  | some c => c.held.isEmpty &&
      match slotAddr s (cqBase s q) (32 * (c.tail.toNat % ringSize (cqCfg s q))) with
      | none => true
      | some a => (retiredIn s a 32).isSome || (!(parityBad s a) && !((memGet s a).getLsbD 0))

/-- The conditions of R263 that hold at the end: every sector of a read on the first sense, and a free completion slot. -/
def guaranteeEnds (s : State) (e : Entry) : Entry :=
  { e with guaranteed := e.guaranteed && (decide (weOpcode e.words ≠ opREAD) || decide (e.status = stOK)) && cqFree s e.ref.sq.toNat }

/-- An ended entry receives its completion, or is folded into its batch (R213). -/
def completeEntry (s : State) (e : Entry) : State :=
  let e := guaranteeEnds s e
  let n := e.ref.sq.toNat
  if e.batch = 0 then readyCompl (setEntry s { e with phase := .held }) (complOf e)
  else if isSuccess e.status then
    let s := leaveFlight s e.ref
    let s := { s with sqs := tmod s.sqs n fun q => modBatch q e.batch fun b =>
      { b with folded := b.folded + 1, learning := b.learning || e.learning
               best := if b.best.toNat < e.status.toNat then e.status else b.best } }
    idleCheck (batchCheck s n) n
  else
    let s := { s with sqs := tmod s.sqs n fun q => modBatch q e.batch fun b => { b with failed := b.failed + 1 } }
    batchCheck (readyCompl (setEntry s { e with phase := .held }) (complOf e)) n

/-- Every entry that has ended receives its completion. -/
def completeAll (s : State) : State :=
  (s.entries.filter fun e => decide (e.phase = .ended)).foldl (fun s e => completeEntry s e) s

/-! ### Claims and releases (R182-R184) -/

def oCLAIM := 0x80

/-- CLAIMRESd takes an outcome and the next SEQ. -/
def claimResult (s : State) (b : Nat) (d : Dom) (ring result : Nat) : State :=
  regSet s b (0x100 + 8 * d.toNat)
    (put ring 6 0 ||| put result 2 8 ||| put (fld (regGet s b (0x100 + 8 * d.toNat)) 63 48 + 1) 16 48)

def claimSeqOnly (s : State) (b : Nat) (d : Dom) : State :=
  let v := regGet s b (0x100 + 8 * d.toNat)
  regSet s b (0x100 + 8 * d.toNat) (put (fld v 47 0) 48 0 ||| put (fld v 63 48 + 1) 16 48)

/-- A released ring's registers return to their reset values. -/
def clearRing (s : State) (b n : Nat) : State :=
  { s with regs := terase (terase s.regs (regAddr b (0x200 + 8 * n))) (regAddr b (0x400 + 8 * n)) }

/-- An enabled submission ring names the completion ring. -/
def namedByEnabled (s : State) (q : Nat) : Bool :=
  s.sqs.any fun e => cfgEnable (sqCfg s e.1) && decide (cfgCq (sqCfg s e.1) = q)

/-- A write of WQS.CLAIM (R182, R184). A release returns DONE to 0, a change that the waits watching the ring see (R216). -/
def writeSqClaim (s : State) (d : Dom) (v : W64) (og : Origin) : State :=
  let n := fld v 13 8
  if bit v 0 then
    match tget s.sqs n with
    | none => violate (claimSeqOnly s blkWQS d) d { kind := 1, p1 := BitVec.ofNat 32 (regAddr blkWQS oCLAIM) } og
    | some q =>
      if q.owner ≠ d then
        violate (claimSeqOnly s blkWQS d) d { kind := 1, p1 := BitVec.ofNat 32 (regAddr blkWQS oCLAIM) } og
      else if cfgEnable (sqCfg s n) = true ∨ sqIdle s n = false then claimResult s blkWQS d n 3
      else testWaits (claimResult (clearRing { s with sqs := terase s.sqs n } blkWQS n) blkWQS d n 0) n
  else match tlowestFree s.sqs 64 with
    | none => claimResult s blkWQS d 0 1
    | some k =>
      if 16 ≤ (s.sqs.filter fun e => decide (e.2.owner = d)).length then claimResult s blkWQS d 0 2
      else claimResult { s with sqs := tset s.sqs k { owner := d } } blkWQS d k 0

/-- A write of WQC.CLAIM (R182, R184). -/
def writeCqClaim (s : State) (d : Dom) (v : W64) (og : Origin) : State :=
  let n := fld v 13 8
  if bit v 0 then
    match tget s.cqs n with
    | none => violate (claimSeqOnly s blkWQC d) d { kind := 1, p1 := BitVec.ofNat 32 (regAddr blkWQC oCLAIM) } og
    | some q =>
      if q.owner ≠ d then
        violate (claimSeqOnly s blkWQC d) d { kind := 1, p1 := BitVec.ofNat 32 (regAddr blkWQC oCLAIM) } og
      else if cfgEnable (cqCfg s n) = true ∨ cqIdle s n = false ∨ namedByEnabled s n = true then claimResult s blkWQC d n 3
      else claimResult (clearRing { s with cqs := terase s.cqs n } blkWQC n) blkWQC d n 0
  else match tlowestFree s.cqs 64 with
    | none => claimResult s blkWQC d 0 1
    | some k =>
      if 16 ≤ (s.cqs.filter fun e => decide (e.2.owner = d)).length then claimResult s blkWQC d 0 2
      else claimResult { s with cqs := tset s.cqs k { owner := d } } blkWQC d k 0

/-- SQ_CLAIM (R182). -/
def execSqClaim (w : Dom) (v : W64) (s : State) : Host.Outcome State Fault Refusal :=
  .next (guardedWrite s w blkWQS oCLAIM {} fun s => writeSqClaim s w v {})

/-- SQ_RELEASE (R184). -/
def execSqRelease (w : Dom) (v : W64) (s : State) : Host.Outcome State Fault Refusal :=
  .next (guardedWrite s w blkWQS oCLAIM {} fun s => writeSqClaim s w v {})

/-- CQ_CLAIM (R182). -/
def execCqClaim (w : Dom) (v : W64) (s : State) : Host.Outcome State Fault Refusal :=
  .next (guardedWrite s w blkWQC oCLAIM {} fun s => writeCqClaim s w v {})

/-- CQ_RELEASE (R184). -/
def execCqRelease (w : Dom) (v : W64) (s : State) : Host.Outcome State Fault Refusal :=
  .next (guardedWrite s w blkWQC oCLAIM {} fun s => writeCqClaim s w v {})

/-! ### Enable and disable (R186, R187, R223, R224) -/

/-- The CFG value after a write: other fields only while disabled and idle (R186). -/
def mergedCfg (b o : Nat) (old v : W64) (free : Bool) : W64 :=
  if free then (v &&& regMask b o) ||| (old &&& ~~~ regMask b o) else (old &&& ~~~ (1 : W64)) ||| (v &&& 1)

/-- CFGERR of an enable of a submission ring; 0 succeeds. -/
def sqEnableError (s : State) (d : Dom) (base cfg : W64) : Nat :=
  if 8 < cfgSize cfg ∨ cfgClass cfg = 3 then 2
  else if !(placed s d base (64 * ringSize cfg) 64) then 1
  else match tget s.cqs (cfgCq cfg) with
    | none => 3
    | some c => if c.owner = d ∧ cfgEnable (cqCfg s (cfgCq cfg)) = true then 0 else 3

/-- Disabling a submission ring: a pending wait ends, an unclosed batch is closed incomplete (R223). -/
def disableSq (s : State) (n : Nat) : State :=
  match tget s.sqs n with
  | none => s
  | some q =>
    let s := { s with sqs := tset s.sqs n { q with idleTold := false, batches := q.batches.map fun b =>
      if b.closed then b else { b with closed := true, incomplete := true } } }
    let s := (ringEntries s n).foldl (fun s e =>
      if weOpcode e.words = opWAIT ∧ (e.phase = .fetched ∨ e.phase = .running) then
        match ((tget s.sqs n).bind (·.wait)) with
        | some x => endWait s n ((tget s.sqs n).getD q) x stABORTED
        | none => endEntry s e.ref stABORTED (watchedDone s e.d (fld (ew e.words 1) 5 0))
      else s) s
    idleCheck (batchCheck s n) n

/-- A write of WQS.CFGn (R186, R187, R223). -/
def writeSqCfg (s : State) (n : Nat) (v : W64) : State :=
  match tget s.sqs n with
  | none => s
  | some q =>
    let o := 0x400 + 8 * n
    let old := sqCfg s n
    let new := mergedCfg blkWQS o old v (!(cfgEnable old) && sqIdle s n)
    if cfgEnable new && !(cfgEnable old) then
      let err := sqEnableError s q.owner (sqBase s n) new
      regSet s blkWQS o ((new &&& ~~~ (put 7 3 16 ||| 1)) ||| put err 3 16 ||| putB (decide (err = 0)) 0)
    else if cfgEnable old && !(cfgEnable new) then disableSq (regSet s blkWQS o new) n
    else regSet s blkWQS o new

/-- CFGERR of an enable of a completion ring; 0 succeeds. -/
def cqEnableError (s : State) (d : Dom) (base cfg : W64) : Nat :=
  if 8 < cfgSize cfg then 2 else if !(placed s d base (32 * ringSize cfg) 32) then 1 else 0

/-- An enabled or non-idle submission ring names the completion ring (R224). -/
def namedByBusy (s : State) (q : Nat) : Bool :=
  s.sqs.any fun e => (cfgEnable (sqCfg s e.1) || !(sqIdle s e.1)) && decide (cfgCq (sqCfg s e.1) = q)

/-- A write of WQC.CFGn (R186, R187, R224). -/
def writeCqCfg (s : State) (n : Nat) (v : W64) : State :=
  match tget s.cqs n with
  | none => s
  | some c =>
    let o := 0x400 + 8 * n
    let old := cqCfg s n
    let new := mergedCfg blkWQC o old v (!(cfgEnable old) && cqIdle s n)
    if cfgEnable new && !(cfgEnable old) then
      let err := cqEnableError s c.owner (cqBase s n) new
      regSet s blkWQC o ((new &&& ~~~ (put 3 2 16 ||| 1)) ||| put err 2 16 ||| putB (decide (err = 0)) 0)
    else if cfgEnable old && !(cfgEnable new) then
      if namedByBusy s n then s else regSet s blkWQC o new
    else regSet s blkWQC o new

/-- A write of BASEn: only while disabled and idle (R186). -/
def writeSqBase (s : State) (n : Nat) (v : W64) : State :=
  if !(cfgEnable (sqCfg s n)) && sqIdle s n then regStore s blkWQS (0x200 + 8 * n) v else s
def writeCqBase (s : State) (n : Nat) (v : W64) : State :=
  if !(cfgEnable (cqCfg s n)) && cqIdle s n then regStore s blkWQC (0x200 + 8 * n) v else s

/-- A write of WQS.PTRn (R225). -/
def writeSqPtr (s : State) (n : Nat) (v : W64) : State :=
  if !(cfgEnable (sqCfg s n)) && sqIdle s n then
    { s with sqs := tmod s.sqs n fun q => { q with head := v.setWidth 16, tail := v.setWidth 16, receipts := [], sureCounts := [] } }
  else s

/-- A write of WQC.POKEn (R208). -/
def writePoke (s : State) (n : Nat) : State := if complBlocked s then s else retryCq s n

/-- SQ_ENABLE (R187). -/
def execSqEnable (w : Dom) (n : BitVec 6) (v : W64) (s : State) : Host.Outcome State Fault Refusal :=
  .next (guardedWrite s w blkWQS (0x400 + 8 * n.toNat) {} fun s => writeSqCfg s n.toNat v)

/-- SQ_DISABLE (R223). -/
def execSqDisable (w : Dom) (n : BitVec 6) (v : W64) (s : State) : Host.Outcome State Fault Refusal :=
  .next (guardedWrite s w blkWQS (0x400 + 8 * n.toNat) {} fun s => writeSqCfg s n.toNat v)

/-- CQ_ENABLE (R187). -/
def execCqEnable (w : Dom) (n : BitVec 6) (v : W64) (s : State) : Host.Outcome State Fault Refusal :=
  .next (guardedWrite s w blkWQC (0x400 + 8 * n.toNat) {} fun s => writeCqCfg s n.toNat v)

/-- CQ_DISABLE (R224). -/
def execCqDisable (w : Dom) (n : BitVec 6) (v : W64) (s : State) : Host.Outcome State Fault Refusal :=
  .next (guardedWrite s w blkWQC (0x400 + 8 * n.toNat) {} fun s => writeCqCfg s n.toNat v)

/-- SQ_POINTER_WRITE (R225). -/
def execSqPointerWrite (w : Dom) (n : BitVec 6) (v : W64) (s : State) : Host.Outcome State Fault Refusal :=
  .next (guardedWrite s w blkWQS (0x600 + 8 * n.toNat) {} fun s => writeSqPtr s n.toNat v)

/-- CQ_POKE (R208). -/
def execCqPoke (w : Dom) (n : BitVec 6) (_v : W64) (s : State) : Host.Outcome State Fault Refusal :=
  .next (guardedWrite s w blkWQC (0x800 + 8 * n.toNat) {} fun s => writePoke s n.toNat)

end Sys2Proof.Machine
end

