-- ==== Sys2Proof/Machine/Failsafe.lean ====
section
/-! DEFINITION. How entries end (R237, R238, R250), machine checks (R313, R356) and the harmless state's entry (R504-R507). -/

namespace Sys2Proof.Machine

/-! ### Entry ends -/

/-- Every verify read of a leg has been decided. -/
def verifyDone (l : Leg) : Bool := l.verify.all fun p => p.decided

/-- The status a leg ends with, once it has ended (R235, R237, R338). -/
def legStatus (l : Leg) : Option Byte :=
  if l.skipped then some stOK
  else match l.status with
    | none => none
    | some st => if verifyDone l then some (if isSuccess st && l.vfail then stPROGRAM_FAIL else st) else none

/-- The leg was verified and passed. -/
def legVerified (l : Leg) : Bool := !l.verify.isEmpty && verifyDone l && !l.vfail

def leg0 (e : Entry) : Leg := e.legs.getD 0 { lun := 0 }
def leg1 (e : Entry) : Leg := e.legs.getD 1 { lun := 0 }
def legByte (l : Leg) : Nat := ((legStatus l).getD 0).toNat

/-- RESULT bits [31:0] (R250). -/
def resultLow (e : Entry) : W32 :=
  let op := weOpcode e.words
  let rd := put32 (sat e.senses 6) 6 0 ||| put32 (b2n e.softUsed) 1 6 ||| put32 (b2n e.beadUsed) 1 7 ||| put32 (sat e.corrected 8) 8 8
  if op = opREAD ∨ op = opCHECK then rd ||| put32 e.failmask.toNat 16 16
  else if op = opPROGRAM then
    put32 (b2n (legVerified (leg0 e))) 1 0 ||| put32 (b2n (leg0 e).vfail) 1 1 ||| put32 (sat e.corrected 8) 8 8
  else if op = opMIRROR then
    put32 (legByte (leg0 e)) 8 0 ||| put32 (legByte (leg1 e)) 8 8 ||| put32 (b2n (leg0 e).vfail) 1 16 ||| put32 (b2n (leg1 e).vfail) 1 17
  else if op = opCOPY then
    rd ||| put32 (b2n (decide ((leg0 e).status = some stOK))) 1 16 ||| put32 (b2n (leg0 e).vfail) 1 17
  else e.result

/-- The success status of a read that has been decided (R233). -/
def readSuccess (e : Entry) : Byte :=
  if e.softUsed then stOK_SOFT else if e.planes.any (·.retried) then stOK_RETRIED else stOK

/-- An entry's end: the success statuses of R233, R238 and R239 out of its legs and planes; none while work remains. -/
def finalStatus (e : Entry) : Option Byte :=
  let op := weOpcode e.words
  let readDone := !e.planes.isEmpty && e.planes.all (·.decided)
  let readSt : Byte := if e.failmask = 0 then readSuccess e else stUNCORRECTABLE
  if op = opREAD ∨ op = opCHECK then (if readDone then some readSt else none)
  else if op = opCOPY then
    if !readDone then none
    else if e.failmask ≠ 0 then some stUNCORRECTABLE
    else match legStatus (leg0 e) with
      | none => none
      | some st => some (if isSuccess st then readSt else st)
  else if op = opMIRROR then
    match legStatus (leg0 e), legStatus (leg1 e) with
    | some a, some b =>
      some (if isSuccess a && isSuccess b then (if a.toNat < b.toNat then b else a)
        else if isSuccess a || isSuccess b then stPARTIAL else a)
    | _, _ => none
  else if isAbacusOp e.words then none
  else legStatus (leg0 e)

/-- MIRROR_PARTIAL (R238). -/
def recordPartial (s : State) (e : Entry) : State :=
  let second := isSuccess (BitVec.ofNat 8 (legByte (leg0 e)))
  let l := if second then leg1 e else leg0 e
  occur s blkSCH 0x307 (put32 l.lun 8 0 ||| put32 (b2n second) 1 8 ||| put32 e.d.toNat 4 12)
    (put32 e.cid.toNat 16 0 ||| put32 e.ref.sq.toNat 6 16)

/-- End an entry with its final status when nothing remains of it. -/
def conclude (s : State) (r : EntryRef) : State :=
  match entryOf? s r with
  | none => s
  | some e =>
    if e.phase = .ended ∨ e.phase = .held then s
    else match finalStatus e with
      | none => s
      | some st =>
        let s := if st = stPARTIAL then recordPartial s e else s
        endEntry s r st (resultLow e)

/-- RESULT bits [31:0] of an entry that ends now: a WAIT_COUNT's is the watched ring's DONE (R205, R250). -/
def endResult (s : State) (e : Entry) : W32 :=
  if weOpcode e.words = opWAIT then watchedDone s e.d (fld (ew e.words 1) 5 0) else resultLow e

/-- End an entry from outside: an unfinished mirror leg takes the status. R238 then sets the entry's own status (R506), save
that a machine check gives the entry MCHECK (R357); RESULT carries each leg's status either way. -/
def abortEntry (s : State) (e : Entry) (st : Byte) : State :=
  if e.phase = .ended ∨ e.phase = .held then s
  else if weOpcode e.words = opMIRROR then
    let e := { e with legs := e.legs.map fun l => if (legStatus l).isNone then { l with status := some st, verify := [] } else l }
    if st = stMCHECK then endEntry (setEntry s e) e.ref st (resultLow e) else conclude (setEntry s e) e.ref
  else endEntry s e.ref st (endResult s e)

/-- No guarantee holds any longer (R263, conditions held throughout). -/
def dropGuarantees (s : State) : State :=
  { s with entries := s.entries.map fun e => { e with guaranteed := false }
           sqs := s.sqs.map fun e => (e.1, { e.2 with sureCounts := [] }) }

/-! ### Array operations given up -/

def opsOf (v : LunSt) : List ArrayOp := v.cur.toList ++ v.under.toList

/-- A leg whose operation is given up: a program takes the status, and so does a verify sense after a passed program, as the
PROGRAM it is would (R237). -/
def abortLeg (l : Leg) (verify : Bool) (st : Byte) : Leg :=
  { l with status := some (if verify then st else l.status.getD st), verify := [] }

/-- The array operation of a LUN is given up: its entry, or its mirror leg, ends with the status. -/
def abortOp (s : State) (o : ArrayOp) (st : Byte) : State :=
  match o.owner with
  | none => s
  | some r => match entryOf? s r.ref with
    | none => s
    | some e =>
      if weOpcode e.words = opMIRROR ∧ st ≠ stMCHECK then
        let legs := e.legs.mapIdx fun i l => if i = r.leg then abortLeg l r.verify st else l
        conclude (setEntry s { e with legs := legs }) e.ref
      else abortEntry s e st

/-- Every operation on a channel is given up. -/
def abortChannel (s : State) (c : Nat) (st : Byte) : State :=
  (fchOf s c).luns.foldl (fun s e => (opsOf e.2).foldl (fun s o => abortOp s o st) s) s

/-- A channel goes to the harmless pin state: CE_N high, WP_N low in the next core cycle, no command to the flash; what runs
there is unobserved (R298). -/
def stopChannel (s : State) (c : Nat) : State :=
  let f := fchOf s c
  let s := if f.harmless then s
    else emit (emit s (.flashPins (BitVec.ofNat 3 c) 0xFF .high)) (.flashPins (BitVec.ofNat 3 c) 0xFF .low)
  let s := setFch s c { f with up := false, harmless := true, xfer := none, nextRate := none,
                               luns := f.luns.map fun e => (e.1, { e.2 with
      cur := none, under := none, pollNow := false, seq := none, urgentRun := 0
      state := if e.2.state = LunState.absent then .absent else .idle }) }
  match tget s.seqs c with
  | some q => if q.state = 2 then { s with seqs := tset s.seqs c { q with state := 1 } } else s
  | none => s

/-- Suspended operations are abandoned (R505). -/
def dropSuspended (s : State) : State :=
  (List.range 8).foldl (fun s c => (fchOf s c).luns.foldl (fun s e =>
    match e.2.under with
    | none => s
    | some o => setLun (abortOp s o stABORTED) (32 * c + e.1) { lunOf s (32 * c + e.1) with under := none }) s) s

/-! ### Movers stopped by the system (R424) -/

/-- The mover becomes IDLE and releases what it pinned (R426). -/
def goIdle (m : Mover) : Mover := { m with state := .idle, armed := false, setDone := false, pins := [], draining := false, job := none }

/-- STOP (R423): in RUN with bursts read and not written, those are written first and no other is read; else IDLE at once. -/
def stopMover (m : Mover) : Mover :=
  if m.state = MoverState.error then { m with armed := false }
  else match m.job with
    | some j => if j.kind = .move ∧ j.written < j.read then { m with armed := false, job := some { j with stopping := true } } else goIdle m
    | none => goIdle m

def stopMovers (s : State) : State :=
  { s with movers := s.movers.map fun e => (e.1, { stopMover e.2 with sysstop := true }) }

/-! ### The harmless state (R504-R508) -/

/-- ALERT0_N and ALERT1_N follow their causes (R508). -/
def refreshAlerts (s : State) : State :=
  { s with pins := { s.pins with
      alert0 := s.pmu.harmless
      alert1 := s.pmu.harmless || s.mon.warn || s.mon.throttle || s.mon.supwarn } }

/-- An entry whose slot fails parity leaves flight and receives no completion (R506); a batch counts it no longer. -/
def loseEntry (s : State) (e : Entry) : State :=
  let s := leaveFlight s e.ref
  let s := { s with sqs := tmod s.sqs e.ref.sq.toNat fun q => modBatch q e.batch fun b => { b with members := b.members - 1 } }
  idleCheck (batchCheck s e.ref.sq.toNat) e.ref.sq.toNat

/-- The slot of an entry in flight fails parity and its completion has not been handed over. -/
def slotBad (e : Entry) : Bool := e.storeBad && decide (e.phase ≠ EntryPhase.held)

/-- Every entry still in flight ends ABORTED_BY_RESET; one whose entry-store slot fails parity leaves flight without a
completion (R506). -/
def abortAll (s : State) : State :=
  let s := (s.entries.filter slotBad).foldl loseEntry s
  s.entries.foldl (fun s (e : Entry) =>
    match entryOf? s e.ref with
    | none => s
    | some e => abortEntry s e stABORTED) s

/-- Every channel is harmless and every entry has ended. -/
def closeFinish (s : State) : State :=
  let s := abortAll s
  let s := (List.range 8).foldl stopChannel s
  let s := { s with pmu := { s.pmu with finish := false } }
  if s.pmu.brownWait then s else completeAll s

/-- Enter the harmless state for a cause (bit of PMU.STAT.CAUSES): HARMLESS_ENTER, outputs, fetching and movers stop
(R504). -/
def harmlessEnter (s : State) (cause sub : Nat) (reading : W32) : State :=
  let s := occur s blkPMU 0x012 (put32 (cause + 1) 4 0 ||| put32 sub 4 8) reading
  let s := { s with
    pmu := { s.pmu with
      harm := if s.pmu.harmless then s.pmu.harm else s.pmu.harm + 1
      frames := if s.pmu.harmless then s.pmu.frames else 0
      harmless := true, causes := s.pmu.causes ||| (1#5 <<< cause)
      coolFrames := if cause = 2 then 0 else s.pmu.coolFrames
      brownFrames := if cause = 3 then 0 else s.pmu.brownFrames }
    tag := { s.tag with fault := true }
    segA := { s.segA with tx := none }
    segB := { s.segB with tx := none }
    pins := { s.pins with cko := false } }
  dropGuarantees (stopMovers (refreshAlerts s))

/-- The finish window opens; one already open keeps its trigger's instant (R507). A channel with no operation in progress is
harmless at once (R505). -/
def openFinish (s : State) : State :=
  let s := (List.range 8).foldl (fun s c => if busyLuns s c = 0 then stopChannel s c else s) s
  { s with pmu := { s.pmu with finish := true, finishAt := if s.pmu.finish then s.pmu.finishAt else cycles s } }

/-- The channels that stop at once, then the finish window of the others, if the trigger gives one (R505). -/
def stopFlash (s : State) (atOnce : List Nat) (window : Bool) : State :=
  let s := atOnce.foldl (fun s c => stopChannel (abortChannel s c stABORTED) c) s
  let s := dropSuspended s
  if window && decide (s.phase = .running) then openFinish s else closeFinish s

/-- A machine check: MCHECK is recorded and the harmless state entered (R29, R356, R357, R505). `chan` is the channel it is
attributed to, `parity` a parity error of a control store. -/
def machineCheck (s : State) (blk : Nat) (p0 p1 : W32) (chan : Option Nat) (parity : Bool) : State :=
  let s := if parity then occur s blk 0x601 p0 p1 else s
  let s := occur s blk 0x602 p0 p1
  let s := harmlessEnter s (b2n parity) (chan.getD 0) 0
  match chan with
  | some c => stopFlash (stopChannel (abortChannel s c stMCHECK) c) [] true
  | none => stopFlash s [] true

/-- A slot of the entry store that fails parity has been read: PARITY_STORE, and MCHECK naming the slot by its ring and its
count, the harmless state, and no completion for the entry (R29, R202, R505, R506). DESIGN CHOICE: the manual gives the two
records no layout. -/
def entryStoreFails (s : State) (e : Entry) : State :=
  machineCheck (loseEntry s e) blkWQS (put32 e.ref.sq.toNat 6 0 ||| put32 e.ref.count.toNat 16 16) 0 none true

/-- Work on an entry in flight reads its slot (R202). -/
def withSlot (s : State) (r : EntryRef) (f : State) : State :=
  match entryOf? s r with
  | none => f
  | some e => if slotBad e then entryStoreFails s e else f

end Sys2Proof.Machine
end

