-- ==== Sys2Proof/Machine/Sched.lean ====
section
/-! DEFINITION. The scheduler (chapter 07): which array operation may start on a LUN, reservations, suspend and resume, what a
status byte ends; the commands SCHEDULING_WINDOW and RESERVATION_WRITE. -/

namespace Sys2Proof.Machine

/-! ### What an entry waits for -/

/-- The address a leg works at: leg 1 of a mirror and the program of a COPY at PFA2. -/
def legPfa (e : Entry) (i : Nat) : W64 :=
  if i = 1 ∨ weOpcode e.words = opCOPY then ew e.words 5 else ew e.words 1

/-- The LUNs an entry's operations use. -/
def entryLuns (e : Entry) : List Nat :=
  if weOpcode e.words = opMIRROR ∨ weOpcode e.words = opCOPY then [pfaLun (ew e.words 1), pfaLun (ew e.words 5)]
  else if isFlashOp e.words || isAdminOp e.words then [pfaLun (ew e.words 1)] else []

/-- A sense of the plane is due. -/
def planeDue (p : PlaneRd) : Bool := !p.decided && !p.sensing && !p.ready && !p.todo.isEmpty

def readNeeds (e : Entry) : List Nat :=
  if e.planes.isEmpty then [pfaLun (ew e.words 1)]
  else if e.planes.any (·.sensing) then []
  else if e.planes.any planeDue then [pfaLun (ew e.words 1)] else []

def legNeeds (l : Leg) : List Nat :=
  if l.skipped then []
  else if !l.started then [l.lun]
  else if l.status.isNone || l.verify.any (·.sensing) then []
  else if l.verify.any planeDue then [l.lun] else []

def readDecided (e : Entry) : Bool := !e.planes.isEmpty && e.planes.all (·.decided)

/-- The LUNs on which an operation of the entry is due to start. -/
def needs (e : Entry) : List Nat :=
  if e.phase = .ended ∨ e.phase = .held then []
  else if weOpcode e.words = opREAD ∨ weOpcode e.words = opCHECK then readNeeds e
  else if weOpcode e.words = opCOPY then
    (if readDecided e then (if e.failmask = 0 then e.legs.flatMap legNeeds else []) else readNeeds e)
  else e.legs.flatMap legNeeds

/-- The entry has not ended. -/
def unfinished (e : Entry) : Bool := decide (e.phase ≠ .ended) && decide (e.phase ≠ .held)

/-- A read that is not decided may have retry or soft senses to start still (R323). -/
def mayRetry (e : Entry) (l : Nat) : Bool :=
  [opREAD, opCHECK, opCOPY].contains (weOpcode e.words) && !(readDecided e) && decide (pfaLun (ew e.words 1) = l)

/-- An earlier entry of the ring still has, or may still have, an operation to start on the LUN (R251). -/
def blocksLun (e : Entry) (l : Nat) : Bool :=
  unfinished e &&
    ((needs e).contains l || mayRetry e l ||
      (decide (weOpcode e.words = opCOPY) && e.legs.any fun g => !g.started && decide (g.lun = l)))

def isUrgent (e : Entry) : Bool := decide (e.cls = 0)

/-! ### Cache sequences (R289-R292) -/

/-- An entry names the page after the one that words name, with the same LUN, block, planes, TYPE and sectors (R290). -/
def pageAfter (ws : List W64) (b : Entry) : Bool :=
  decide (weOpcode ws = weOpcode b.words) && decide (weOpcode ws = opREAD ∨ weOpcode ws = opPROGRAM) &&
    decide (fld (ew ws 1) 41 16 = fld (ew b.words 1) 41 16) && decide (pfaSector (ew ws 1) = pfaSector (ew b.words 1)) &&
    decide (pfaPage (ew b.words 1) = pfaPage (ew ws 1) + 1) && decide (wePlnmask ws = wePlnmask b.words) &&
    decide (weType ws = weType b.words) && decide (weCount ws = weCount b.words)

/-- The next entry of the ring for the LUN in fetch order (R290). -/
def nextOnLun (s : State) (r : EntryRef) (l : Nat) : Option Entry :=
  s.entries.find? fun x =>
    decide (x.ref.sq = r.sq) && decide (x.ref ≠ r) && decide ((x.ref.count - r.count).toNat < 32768) && unfinished x &&
      (entryLuns x).contains l

/-- The next entry of the ring for the LUN, already fetched, continues the page sequence. -/
def continuation (s : State) (r : EntryRef) (ws : List W64) (l : Nat) : Option Entry :=
  match nextOnLun s r l with
  | none => none
  | some x => if pageAfter ws x && !x.ordinary then some x else none

/-- The entry is the next page of the sequence open on the LUN. -/
def cacheNext (s : State) (e : Entry) (l : Nat) : Bool :=
  match (lunOf s l).seq with
  | none => false
  | some (r, ws) => match continuation s r ws l with
    | none => false
    | some x => decide (x.ref = e.ref)

/-- An URGENT entry other than this one waits for the LUN. -/
def urgentAt (s : State) (e : Entry) (l : Nat) : Bool :=
  s.entries.any fun x => decide (x.ref ≠ e.ref) && isUrgent x && (needs x).contains l

/-- The LUN's mask and the personality allow the entry's cache operation (R289). -/
def cacheAllowed (s : State) (e : Entry) (l : Nat) : Bool :=
  bit (regGet s (blkFCH + l / 32) 0x88) (l % 32) && tyFlag s (l / 32) (weType e.words) (if weOpcode e.words = opREAD then 3 else 4)

/-- The page is sent with a cache command, so that the sequence goes on after it: the mask governs the start of a sequence, and
a later page only joins one (R289-R291). -/
def cacheMore (s : State) (e : Entry) (l : Nat) : Bool :=
  (cacheNext s e l || cacheAllowed s e l) && !e.ordinary && !(urgentAt s e l) && (continuation s e.ref e.words l).isSome

/-- What starts on the LUN does not continue the sequence open there: the sequence is closed first (R291). -/
def closeSeq (s : State) (e : Entry) (l : Nat) (page : Bool) : State :=
  if (lunOf s l).seq.isSome && !(page && cacheNext s e l) then
    setLun (emit s (.flashCacheEnd (BitVec.ofNat 8 l))) l { lunOf s l with seq := none }
  else s

/-- A page of a cache program has failed: the sequence is closed, and the entries of its ring that are not confirmed run as
ordinary programs (R292). -/
def breakSeq (s : State) (l : Nat) (r : EntryRef) : State :=
  let s := if (lunOf s l).seq.isSome then
      setLun (emit s (.flashCacheEnd (BitVec.ofNat 8 l))) l { lunOf s l with seq := none } else s
  { s with entries := s.entries.map fun x =>
      if decide (x.ref.sq = r.sq) && decide (weOpcode x.words = opPROGRAM) && (entryLuns x).contains l && !x.begun
      then { x with ordinary := true } else x }

/-! ### Order (R251, R252) -/

/-- The order of R251 lets the entry start on the LUN. The next page of a running cache sequence starts before the page
before it is decoded (R290). DEDUCED: R289 lets the sequence run; its retries come after it. -/
def eligible (s : State) (e : Entry) (l : Nat) : Bool :=
  (needs e).contains l &&
    (s.entries.takeWhile fun x => decide (x.ref ≠ e.ref)).all fun x =>
      decide (x.ref.sq ≠ e.ref.sq) || !(blocksLun x l) || (cacheNext s e l && !((needs x).contains l))

/-! ### Reservations (R254-R257) -/

/-- A domain's shares on a channel, in force and as written. -/
def sharesOf (v : W64) (c : Nat) : Nat := fld v (8 * c + 5) (8 * c)

/-- Charges of a domain on a channel in the present window, ns. -/
def chargeNs (s : State) (d c : Nat) : Nat := tgetD s.charges (8 * d + c) 0

/-- Within its reservation: charges below shares times one share (R254, R256). -/
def withinReservation (s : State) (d c : Nat) : Bool :=
  decide (chargeNs s d c * 64 < sharesOf (tgetD s.shares d 0) c * (4000000 * lunsOn s c))

/-- The total of the shares written for a channel (SCH.CHANSUM). -/
def chanSum (s : State) (c : Nat) : Nat :=
  (List.range 16).foldl (fun n d => n + sharesOf (regGet s blkSCH (0x100 + 8 * d)) c) 0

/-- The lowest channel a write of RESVd would raise above 48. -/
def overChannel (s : State) (d : Nat) (v : W64) : Option Nat :=
  (List.range 8).find? fun c =>
    decide (48 < chanSum s c - sharesOf (regGet s blkSCH (0x100 + 8 * d)) c + sharesOf v c)

/-- A write of SCH.RESVd (R257). -/
def writeReservation (s : State) (d : Dom) (v : W64) : State :=
  let o := 0x180 + 8 * d.toNat
  let q := put (fld (regGet s blkSCH o) 63 48 + 1) 16 48
  match overChannel s d.toNat v with
  | none => regSet (regStore s blkSCH (0x100 + 8 * d.toNat) v) blkSCH o q
  | some c => occur (regSet s blkSCH o (1 ||| put c 3 1 ||| q)) blkSCH 0x30A (put32 d.toNat 4 0 ||| put32 c 3 4) 0

/-- RESERVATION_WRITE (R257). -/
def execReservationWrite (w d : Dom) (v : W64) (s : State) : Host.Outcome State Fault Refusal :=
  .next (guardedWrite s w blkSCH (0x100 + 8 * d.toNat) {} fun s => writeReservation s d v)

/-- SCHEDULING_WINDOW (R256): at the boundary of a frame whose count is a multiple of 4. -/
def execSchedulingWindow (s : State) : Host.Outcome State Fault Refusal :=
  .next (if atBoundary s ∧ s.now.frame.toNat % 4 = 0 then beginWindow s else s)

/-! ### Order of execution (R243, R251-R253, R258-R260, R287, R500) -/

/-- The kind of the next operation of an entry on a LUN. -/
def nextKind (e : Entry) (l : Nat) : LunOp :=
  let op := weOpcode e.words
  if op = opREAD ∨ op = opCHECK then .read
  else if op = opCOPY ∧ readDecided e = false then .read
  else if isAdminOp e.words then .admin
  else match e.legs.find? fun g => decide (g.lun = l) && !(legNeeds g).isEmpty with
    | some g => if g.started then .read else if op = opERASE then .erase else .program
    | none => .none

/-- Deadline or receipt order (R252); the next page of an open cache sequence goes before other work that is not URGENT. -/
def rank (s : State) (e : Entry) (l : Nat) : Nat × Nat :=
  if isUrgent e then (0, e.receipt + 400 * urgentLimit e.words)
  else if cacheNext s e l then (1, 0)
  else if e.cls = 1 ∧ withinReservation s e.d.toNat (l / 32) = true then (1, e.receipt)
  else (2, e.receipt)

def before (a b : Nat × Nat) : Bool := decide (a.1 < b.1) || (decide (a.1 = b.1) && decide (a.2 < b.2))

/-- Fetching and flash work go on: READY, no drain, no harmless state (R23, R504, R523). -/
def serving (s : State) : Bool :=
  live s && s.glb.ready && !s.clk.drain && !s.pmu.harmless

/-- A suspended operation admits the waiting kind (R258). -/
def admitted (s : State) (c : Nat) (under waiting : LunOp) : Bool :=
  match under, waiting with
  | .erase, .read => true
  | .erase, .program => true
  | .program, .read => true
  | .program, .program => psusprog s c
  | _, _ => false

/-- The LUN can take the operation now: idle, or suspended for urgent work that the suspend admits (R251, R259). -/
def lunFree (s : State) (e : Entry) (l : Nat) : Bool :=
  let v := lunOf s l
  v.cur.isNone &&
    (match v.under with
     | none => decide (v.state = .idle)
     | some u => decide (v.state = .suspended) && isUrgent e && admitted s (l / 32) u.kind (nextKind e l) && decide (v.urgentRun < 8))

/-- The LUNs of the target of a LUN. -/
def targetLuns (l : Nat) : List Nat := (List.range 4).map fun i => l / 4 * 4 + i

def lunBusy (s : State) (l : Nat) : Bool := (lunOf s l).cur.isSome || (lunOf s l).under.isSome

/-- A target without independent LUN operation keeps one LUN busy at a time (R287). -/
def independent (s : State) (l : Nat) : Bool :=
  (fchOf s (l / 32)).indep.getLsbD (l % 32 / 4) || (targetLuns l).all fun k => decide (k = l) || !(lunBusy s k)

/-- While throttling no operation starts on a channel with ARRMAX busy LUNs (R500). -/
def throttled (s : State) (c : Nat) : Bool :=
  s.mon.throttle && decide (fld (regGet s blkMON 0x80) 27 24 ≤ busyLuns s c)

/-- The entry whose operation runs on a LUN. -/
def ownerEntry (s : State) (o : ArrayOp) : Option Entry :=
  match o.owner with
  | none => none
  | some r => entryOf? s r.ref

/-- URGENT work waits for or runs on the target, from its fetch to its end, or an operation there is suspended (R243). -/
def targetClaimed (s : State) (e : Entry) (l : Nat) : Bool :=
  (s.entries.any fun x => decide (x.ref ≠ e.ref) && isUrgent x && unfinished x && (entryLuns x).any fun k => decide (k / 4 = l / 4)) ||
  (targetLuns l).any fun k => (lunOf s k).under.isSome

/-- The entry waits for the LUN as it now stands: over a suspended operation only what the suspend admits does (R259). -/
def contends (s : State) (e : Entry) (l : Nat) : Bool :=
  eligible s e l &&
    match (lunOf s l).under with
    | none => true
    | some u => admitted s (l / 32) u.kind (nextKind e l)

/-- No other waiting entry goes before this one on the LUN (R252, R259). -/
def firstInLine (s : State) (e : Entry) (l : Nat) : Bool :=
  s.entries.all fun x => decide (x.ref = e.ref) ||
    (!(contends s x l && before (rank s x l) (rank s e l)) && (isUrgent e || !(isUrgent x && (needs x).contains l)))

/-- The next operation of the entry may start on the LUN now. -/
def mayStart (s : State) (e : Entry) (l : Nat) : Bool :=
  serving s && (fchOf s (l / 32)).up && eligible s e l && firstInLine s e l && lunFree s e l && independent s l &&
    !(throttled s (l / 32)) && (!(isAdminOp e.words) || !(targetClaimed s e l))

/-- An admin entry that takes no LUN time may start (R243). -/
def mayAdmin (s : State) (e : Entry) (l : Nat) : Bool :=
  serving s && (fchOf s (l / 32)).up && eligible s e l && firstInLine s e l && !(targetClaimed s e l) &&
    decide ((lunOf s l).cur.isNone) && decide ((lunOf s l).under.isNone) && independent s l

/-! ### Starting (R255) -/

/-- The domain of a STREAM entry is charged for an operation: nominal time and bus time (R255). -/
def chargeStream (s : State) (e : Entry) (l t : Nat) (k : LunOp) (sectors : Nat) : State :=
  if e.cls = 1 then
    let i := 8 * e.d.toNat + l / 32
    { s with charges := tset s.charges i (tgetD s.charges i 0 + 1000 * nominalUs s (l / 32) k t + sectors * codewordNs s (l / 32) t) }
  else s

/-- An array operation starts on a LUN; `page` where it is the whole of a page that a cache sequence can hold. The first poll
falls due after the personality's time (R282). -/
def startArray (s : State) (e : Entry) (l : Nat) (k : LunOp) (o : OpRef) (sectors : Nat) (page : Bool) : State :=
  let v := lunOf s l
  let joined := page && cacheNext s e l
  let more := page && cacheMore s e l
  let f := fchOf s (l / 32)
  let s := if more && !joined then setFch s (l / 32) { f with cacheSeqs := f.cacheSeqs + 1 } else s
  let s := setLun s l { v with state := if joined || more then .cacheSeq else .busy, cur := some { kind := k, owner := some o }
                               seq := if more then some (e.ref, e.words) else none
                               since := cycles s, badRun := 0, suspendFailed := false, pollNow := false
                               pollAt := cycles s + 400 * firstPollUs s (l / 32) k o.type }
  chargeStream s e l o.type k sectors

/-- A job reports ARRAY_STARTED: the busy time of R262 runs from there, and so does the first-poll time (R282, R350). -/
def arrayStarted (s : State) (l : Nat) : State :=
  let v := lunOf s l
  match v.cur with
  | none => s
  | some o =>
    if o.busy = 0 ∧ o.kind ≠ LunOp.reset ∧ (v.state = LunState.busy ∨ v.state = LunState.cacheSeq) then
      setLun s l { v with since := cycles s
                          pollAt := cycles s + 400 * firstPollUs s (l / 32) o.kind ((o.owner.map (·.type)).getD 0) }
    else s

/-! ### Polls (R281, R282) -/

/-- READ STATUS ENHANCED where the target has more than one LUN, READ STATUS otherwise (R281). -/
def pollCommand (s : State) (l : Nat) : Byte := if 1 < lunsOfTarget s (l / 32) (l % 32 / 4) then 0x78 else 0x70

/-- A status poll goes to the LUN; the next falls due POLLINT later (R282). -/
def sendPoll (s : State) (l : Nat) : State :=
  let v := lunOf s l
  let s := setLun (emit s (.flashPoll (BitVec.ofNat 8 l) (pollCommand s l))) l
    { v with pollNow := false, pollAt := max (cycles s) v.pollAt + pollCycles s (l / 32) }
  let f := fchOf s (l / 32)
  setFch s (l / 32) { f with polls := f.polls + 1 }

/-! ### The bus (R253, R287) -/

/-- The sectors of a plane that have been sensed and not yet decoded in this round. -/
def allSectors (p : PlaneRd) (st : SecState) : List SecRd := p.sectors.filter fun x => decide (x.state = st)

/-- The step of the plane's last hard sense. -/
def curStep (p : PlaneRd) : Nat := p.tried.getLastD 0

/-- A pending sector has been decoded after the present sense. -/
def roundDone (p : PlaneRd) (x : SecRd) : Bool :=
  if p.soft then x.softDone else x.unsats.any fun u => decide (u.1 = curStep p)

/-- The lowest sector of a sensed plane that waits for the bus. -/
def sectorDue (p : PlaneRd) : Option Nat :=
  if p.ready then ((allSectors p .pending).find? fun x => !(roundDone p x)).map (·.sector) else none

/-- The transfers of an entry that wait for a channel's bus. -/
def entryDue (e : Entry) (c : Nat) : List Xfer :=
  (if pfaChannel (ew e.words 1) = c then
    e.planes.filterMap fun p => (sectorDue p).map fun n => { ref := e.ref, plane := p.plane, sector := n } else []) ++
  (e.legs.mapIdx fun i g => if g.lun / 32 = c then
    g.verify.filterMap fun p => (sectorDue p).map fun n => { ref := e.ref, leg := i, verify := true, plane := p.plane, sector := n }
    else []).flatten

/-- The transfers that wait for a channel's bus, with their entries. -/
def busDue (s : State) (c : Nat) : List (Entry × Xfer) :=
  (s.entries.filter unfinished).flatMap fun e => (entryDue e c).map fun x => (e, x)

/-- The sector on a channel's bus. -/
def xferOn (s : State) (c : Nat) : Option Xfer :=
  match (fchOf s c).xfer with
  | none => none
  | some x => if (busDue s c).any (fun y => decide (y.2.ref = x.ref) && decide (y.2.leg = x.leg) && decide (y.2.verify = x.verify) &&
      decide (y.2.plane = x.plane)) then some x else none

/-- The deadline of an URGENT entry (R252). -/
def deadline (e : Entry) : Nat := e.receipt + 400 * urgentLimit e.words

/-- No URGENT transfer goes before one of this entry: among URGENT transfers the earliest deadline is first (R253). -/
def busAllows (s : State) (e : Entry) (c : Nat) : Bool :=
  (busDue s c).all fun x => decide (x.1.ref = e.ref) || !(isUrgent x.1) || (isUrgent e && decide (deadline e ≤ deadline x.1))

/-- The next sector for the bus at a boundary: URGENT by deadline, then the plane already under way, then fetch order. -/
def nextXfer (s : State) (c : Nat) : Option (Entry × Xfer) :=
  let l := busDue s c
  match l.filter fun x => isUrgent x.1 with
  | x :: t => some (t.foldl (fun b y => if deadline y.1 < deadline b.1 then y else b) x)
  | [] => match (fchOf s c).xfer with
    | none => l.head?
    | some o => match l.find? fun x => decide (x.2.ref = o.ref) && decide (x.2.leg = o.leg) && decide (x.2.plane = o.plane) with
      | some x => some x
      | none => l.head?

/-- The sector's column address: its index times the codeword's length (R301). -/
def columnOf (s : State) (c t sector : Nat) : Nat := sector * codewordLen (rateIndex s c t)

/-- A sector is put on the bus for its transfer to the decoder. -/
def putOnBus (s : State) (c : Nat) (e : Entry) (x : Xfer) : State :=
  let l := if x.verify then ((e.legs[x.leg]?).map (·.lun)).getD 0 else pfaLun (ew e.words 1)
  let t := weType e.words
  setFch (emit s (.flashColumn (BitVec.ofNat 8 l) (BitVec.ofNat 2 x.plane) (columnOf s c t x.sector)
    (codewordLen (rateIndex s c t)))) c { fchOf s c with xfer := some x, xferAt := cycles s }

/-- A sector boundary: the polls that waited for it, then the next sector (R253, R282). -/
def sectorBoundary (s : State) (c : Nat) : State :=
  let s := (fchOf s c).luns.foldl (fun s e => if e.2.pollNow && e.2.cur.isSome then sendPoll s (32 * c + e.1) else s) s
  match nextXfer s c with
  | none => setFch s c { fchOf s c with xfer := none }
  | some x => putOnBus s c x.1 x.2

/-- A free bus takes the next sector at once. -/
def wakeBus (s : State) (c : Nat) : State := if (xferOn s c).isSome then s else sectorBoundary s c

/-! ### Suspend (R258) -/

/-- µs an operation has been busy up to an instant, suspended time apart. -/
def busyBy (v : LunSt) (o : ArrayOp) (t : Nat) : Nat := o.busy + (t - v.since) / 400

/-- µs an operation has been busy, suspended time apart. -/
def busySoFar (s : State) (v : LunSt) (o : ArrayOp) : Nat := busyBy v o (cycles s)

/-- The operation in progress on a LUN can be suspended for a waiting kind (R258, R260, R291). -/
def suspendable (s : State) (l : Nat) (waiting : LunOp) : Bool :=
  let v := lunOf s l
  match v.cur with
  | none => false
  | some o =>
    let c := l / 32
    let t := (o.owner.map (·.type)).getD 0
    let p := policyOf s l
    decide (v.state = .busy) && v.under.isNone && !v.suspendFailed && !(baseline s) &&
      (match ownerEntry s o with
       | some x => !(isUrgent x)
       | none => false) &&
      (match o.kind with
       | .erase => p.eraseOk
       | .program => p.progOk
       | _ => false) &&
      decide (o.suscnt < p.maxSus) && decide (suspendUs s c o.kind t < nominalUs s c o.kind t - busySoFar s v o) &&
      admitted s c o.kind waiting

/-- Mark the owner of an operation. -/
def markOwner (s : State) (o : ArrayOp) (f : Entry → Entry) : State :=
  match ownerEntry s o with
  | none => s
  | some e => setEntry s (f e)

/-- One status poll, then the suspend command, go to the LUN for an urgent entry: SUSPEND_USED (R258). -/
def issueSuspend (s : State) (e : Entry) (l : Nat) : State :=
  let v := lunOf s l
  match v.cur with
  | none => s
  | some o =>
    let s := emit (sendPoll s l) (.flashSuspend (BitVec.ofNat 8 l))
    let s := setLun s l { v with state := .suspending, cur := some { o with suscnt := o.suscnt + 1 }, susAt := cycles s
                                 pollNow := false, pollAt := cycles s + pollCycles s (l / 32) }
    let f := fchOf s (l / 32)
    let s := setFch s (l / 32) { f with suspends := f.suspends + 1 }
    let s := markOwner s o fun x => { x with suspended := true }
    let s := setEntry s { e with suspender := true }
    occur { s with susCnt := s.susCnt + 1 } blkSCH 0x306
      (put32 l 8 0 ||| put32 e.d.toNat 4 8 ||| put32 (b2n (decide (o.kind = .program))) 1 12)
      (put32 e.cid.toNat 16 0 ||| put32 e.ref.sq.toNat 6 16)

/-- An urgent entry that cannot start has the operation in progress suspended when R258 allows. -/
def trySuspend (s : State) (e : Entry) (l : Nat) : State :=
  if serving s && isUrgent e && eligible s e l && suspendable s l (nextKind e l) then issueSuspend s e l else s

/-- Resume: before any other operation on the LUN (R259); polling from the remaining-time estimate. -/
def resumeLun (s : State) (l : Nat) : State :=
  let v := lunOf s l
  match v.under with
  | none => s
  | some o =>
    setLun (emit s (.flashResume (BitVec.ofNat 8 l))) l
      { v with state := .busy, cur := some o, under := none, urgentRun := 0, since := cycles s
               pollAt := cycles s + 400 * (nominalUs s (l / 32) o.kind ((o.owner.map (·.type)).getD 0) - o.busy) }

/-- An urgent entry that the suspend admits waits for the LUN. -/
def urgentWaits (s : State) (l : Nat) (u : ArrayOp) : Bool :=
  s.entries.any fun e => isUrgent e && eligible s e l && admitted s (l / 32) u.kind (nextKind e l)

/-- Resume is issued once no admitted urgent entry waits or the eighth operation has ended (R259). -/
def resumeIfDue (s : State) (l : Nat) : State :=
  let v := lunOf s l
  match v.under with
  | none => s
  | some u => if v.cur.isNone && (decide (8 ≤ v.urgentRun) || !(urgentWaits s l u)) then resumeLun s l else s

/-- Every suspended operation is resumed at the start of a drain (R261). -/
def resumeAll (s : State) : State :=
  (List.range 256).foldl (fun s l => if (lunOf s l).under.isSome && (lunOf s l).cur.isNone then resumeLun s l else s) s

/-! ### Status (R283, R348) -/

/-- Positions of the ready, array-ready and fail bits of a status byte, as ONFI 4.2 and JESD230 give them (R348).
PRESUMED. -/
def srReady (sr : Byte) : Bool := sr.getLsbD 6
def srArray (sr : Byte) : Bool := sr.getLsbD 5
def srFail (sr : Byte) : Bool := sr.getLsbD 0

/-- Change the planes an operation reads: an entry's own or a leg's verify. -/
def modPlanes (e : Entry) (o : OpRef) (f : PlaneRd → PlaneRd) : Entry :=
  if o.verify then
    { e with legs := e.legs.mapIdx fun i g => if i = o.leg then { g with verify := g.verify.map fun p => if p.plane = o.plane then f p else p } else g }
  else { e with planes := e.planes.map fun p => if p.plane = o.plane then f p else p }

/-- Change one leg. -/
def modLeg (e : Entry) (i : Nat) (f : Leg → Leg) : Entry := { e with legs := e.legs.mapIdx fun j g => if j = i then f g else g }

/-- The sectors of a plane of an entry, all to be decoded. -/
def sectorList (e : Entry) (first : Nat) : List SecRd := (List.range (weCount e.words)).map fun i => { sector := first + i }

/-- The planes a leg programs: PLNMASK's, or its own address's. -/
def legPlanes (e : Entry) (i : Nat) : List Nat :=
  if wePlnmask e.words = 0 then [pfaPlane (legPfa e i)] else planesOf e.words

/-- The verify reads a passed program begins: one sense per plane at the abacus start step (R338). -/
def beginVerify (s : State) (e : Entry) (i : Nat) : State × List PlaneRd :=
  let p := legPfa e i
  (legPlanes e i).foldl (fun (acc : State × List PlaneRd) pl =>
    let x := startStep acc.1 (pfaLun p) (pfaBlock p) false
    (x.1, acc.2 ++ [{ plane := pl, todo := [x.2.1], sectors := sectorList e (pfaSector p), band := x.2.2.1 }])) (s, [])

/-- A sense has ended: its sectors are decoded, or a further soft sense is due. -/
def senseEnded (p : PlaneRd) : PlaneRd := { p with sensing := false, ready := p.todo.isEmpty }

/-- What the end of an array operation means for its entry. -/
def opEnded (s : State) (o : ArrayOp) (failed : Bool) : State :=
  match o.owner with
  | none => s
  | some r => match entryOf? s r.ref with
    | none => s
    | some e =>
      match o.kind with
      | .read => wakeBus (setEntry s (modPlanes e r senseEnded)) (pfaLun (if r.verify then legPfa e r.leg else ew e.words 1) / 32)
      | .program =>
        if failed then conclude (setEntry s (modLeg e r.leg fun g => { g with status := some stPROGRAM_FAIL })) r.ref
        else if weVerify e.words then
          let x := beginVerify s e r.leg
          conclude (setEntry x.1 (modLeg e r.leg fun g => { g with status := some stOK, verify := x.2 })) r.ref
        else conclude (setEntry s (modLeg e r.leg fun g => { g with status := some stOK })) r.ref
      | .erase =>
        conclude (setEntry s (modLeg e r.leg fun g => { g with status := some (if failed then stERASE_FAIL else stOK) })) r.ref
      | _ => conclude (setEntry s (modLeg e r.leg fun g => { g with status := some stOK })) r.ref

/-- A target fails R278 after a reset: it is marked, its LUNs count as undiscovered, and what waits for it ends
ABORTED_BY_RESET (R295). -/
def loseTarget (s : State) (c t item : Nat) : State :=
  let f := fchOf s c
  let s := recordMismatch s c t item
  let s := setFch s c { f with found := f.found &&& ~~~(1#8 <<< t), mismatch := f.mismatch ||| (1#8 <<< t)
                               luns := f.luns.filter fun x => decide (x.1 / 4 ≠ t) }
  (s.entries.filter unfinished).foldl (fun s e =>
    (entryLuns e).foldl (fun s l =>
      if l / 4 = 8 * c + t then
        match entryOf? s e.ref with
        | none => s
        | some e =>
          if weOpcode e.words = opMIRROR then
            conclude (setEntry s { e with legs := e.legs.map fun g =>
              if g.lun = l ∧ (legStatus g).isNone then abortLeg g (!g.verify.isEmpty) stABORTED else g }) e.ref
          else abortEntry s e stABORTED
      else s) s) s

/-- After a reset the discovery settings go to the target again, and R278 is judged on it once none of its LUNs is in its
reset any longer (R295). What the target answers is free. -/
def afterReset (s : State) (l : Nat) : State :=
  let c := l / 32
  let t := l % 32 / 4
  let s := writeFeatures s c t (fchOf s c).jesd
  if (targetLuns l).any fun k => decide ((lunOf s k).state = .resetting) then s
  else
    let item := Config.resetCheck s.freeCtr % 6
    let s := { s with freeCtr := s.freeCtr + 1 }
    if item = 0 then s else loseTarget s c t item

/-- Whether the operation's page, program or erase failed: within a cache program by the bit the personality names (R292). -/
def opFailed (s : State) (l : Nat) (v : LunSt) (sr : Byte) : Bool :=
  if v.seq.isSome then sr.getLsbD (cacheFailBit s (l / 32)) else srFail sr

/-- The LUN has ended its operation: it is free for the next, or for the resume that is due. -/
def endLunOp (s : State) (l : Nat) (o : ArrayOp) (sr : Byte) : State :=
  let v := lunOf s l
  let reset := decide (v.state = .resetting)
  let s := setLun s l { v with
    state := if v.under.isSome then .suspended else .idle, cur := none, pollNow := false
    urgentRun := if v.under.isSome then v.urgentRun + 1 else 0
    step := if reset then 0 else v.step, seq := if reset then none else v.seq }
  let failed := opFailed s l v sr
  let s := if decide (o.kind = .program) && decide (v.state = .cacheSeq) && failed then
      match o.owner with
      | some r => breakSeq s l r.ref
      | none => s
    else s
  let s := opEnded s o failed
  let s := if reset then afterReset s l else s
  let s := if s.pmu.harmless then s else if s.clk.drain then resumeLun s l else resumeIfDue s l
  if s.pmu.finish && decide (busyLuns s (l / 32) = 0) then stopChannel s (l / 32) else s

/-- The operation has become suspended (suspend step 5, R294). -/
def lunSuspended (s : State) (l : Nat) (o : ArrayOp) : State :=
  let v := lunOf s l
  let s := setLun s l { v with state := .suspended, cur := none, urgentRun := 0, pollNow := false
                               under := some { o with busy := busySoFar s v o } }
  if s.clk.drain then resumeLun s l else resumeIfDue s l

/-- A bad status byte: polled again at once, up to three times, then STATUS_ERROR and the LUN counts as busy (R283). -/
def badStatus (s : State) (l : Nat) (sr : Byte) : State :=
  let v := lunOf s l
  if v.badRun < 3 then sendPoll (setLun s l { v with lastsr := sr, badRun := v.badRun + 1 }) l
  else occur (setLun s l { v with lastsr := sr, badRun := 0, pollNow := false }) (blkFCH + l / 32) 0x405
    (put32 (l % 32) 5 0 ||| put32 sr.toNat 8 8) 0

/-- A status byte of a LUN has been read. An operation has ended when the LUN and its array are ready; a page inside a cache
sequence when the LUN is, since its array goes on (R281, R290). DEDUCED. -/
def statusArrives (s : State) (l : Nat) (sr : Byte) : State :=
  if sr &&& neverMask s (l / 32) ≠ 0 then badStatus s l sr
  else
    let v := { lunOf s l with lastsr := sr, badRun := 0, pollNow := false }
    let s := setLun s l v
    match v.cur with
    | none => s
    | some o =>
      if !(srReady sr) then s
      else if v.state = .suspending ∧ sr.getLsbD (suspendBit s (l / 32)) = true then lunSuspended s l o
      else if srArray sr || v.seq.isSome then endLunOp s l o sr
      else s

/-! ### The URGENT guarantee (R263, R339) -/

/-- The time in which the operation in progress can be ended or suspended is at most `limit` µs. Over a suspended operation
that does not admit the work the wait is unbounded. -/
def lunWaitOk (s : State) (l limit : Nat) (waiting : LunOp) : Bool :=
  let v := lunOf s l
  (match v.under with
   | none => true
   | some u => admitted s (l / 32) u.kind waiting) &&
  match v.cur with
  | none => decide (v.state = .idle) || decide (v.state = .suspended)
  | some o =>
    let t := (o.owner.map (·.type)).getD 0
    if decide (o.kind = .read) && decide (v.state = .busy) then decide (limitUs s (l / 32) .read t ≤ limit)
    else suspendable s l waiting && decide (suspendUs s (l / 32) o.kind t ≤ limit)

/-- The entry a slot of a ring holds as buffer memory stands, before its fetch. -/
def slotEntry (s : State) (n : Nat) (q : Sq) (k : W16) : Entry :=
  let ws := match slotAddr s (sqBase s n) (64 * (k.toNat % ringSize (sqCfg s n))) with
    | some a => wordsOf 8 (memRead s a 64)
    | none => List.replicate 8 0
  { ref := ⟨BitVec.ofNat 6 n, k⟩, d := q.owner, cls := cfgClass (sqCfg s n), words := ws, receipt := cycles s
    fetchedAt := s.frames, cid := weCid ws, batch := 0, legs := [] }

/-- The counts a ring has committed and not fetched. -/
def committedCounts (q : Sq) : List W16 := (List.range (q.tail - q.head).toNat).map fun i => q.head + BitVec.ofNat 16 i

/-- Every entry committed to a ring and not yet fetched. -/
def committed (s : State) : List Entry :=
  s.sqs.flatMap fun e => (committedCounts e.2).map (slotEntry s e.1 e.2)

/-- The other URGENT entries not yet ended, fetched or not, that use a LUN of a kind. -/
def urgentOthers (s : State) (e : Entry) (p : Nat → Bool) : Nat :=
  ((s.entries ++ committed s).filter fun x =>
    decide (x.ref ≠ e.ref) && isUrgent x && unfinished x && (entryLuns x).any p).length

/-- What must hold throughout the entry: loaded images, no throttling, no fail-safe, no drain, 400 MT/s on its channels. -/
def keptThroughout (s : State) (e : Entry) : Bool :=
  !(baseline s) && decide (s.boot.loadEnd ≤ e.receipt) && !s.mon.throttle && !s.pmu.harmless && !s.clk.drain &&
    (entryLuns e).all fun l => decide (100 ≤ rateOf s (l / 32))

/-- The entry kinds of R263. An entry with VERIFY is none of them (R339). -/
def guaranteedKind (e : Entry) : Bool :=
  let op := weOpcode e.words
  isUrgent e && (decide (op = opREAD) || ((decide (op = opPROGRAM) || decide (op = opMIRROR)) && !(weVerify e.words))) &&
    decide ((planesOf e.words).length = 1) && decide (weCount e.words ≤ 4)

/-- The conditions of R263 on one LUN of the entry at the doorbell. -/
def lunSure (s : State) (e : Entry) (l : Nat) : Bool :=
  let read := decide (weOpcode e.words = opREAD)
  let kind : LunOp := if read then .read else .program
  let c := l / 32
  decide (limitUs s c kind (weType e.words) ≤ (if read then 100 else 600)) && lunWaitOk s l (if read then 150 else 400) kind &&
    (if read then decide (urgentOthers s e (fun k => decide (k / 32 = c)) = 0)
     else decide (urgentOthers s e (fun k => decide (k = l)) ≤ 1) && decide (urgentOthers s e (fun k => decide (k / 32 = c)) ≤ 2)) &&
    (s.entries.all fun x => !(isAdminOp x.words && decide (x.phase = .running) && (entryLuns x).any fun k => decide (k / 4 = l / 4)))

/-- Every condition of R263 that is judged at the doorbell, with those that must hold from it on. -/
def sureAtDoorbell (s : State) (e : Entry) : Bool :=
  let n := e.ref.sq.toNat
  guaranteedKind e && keptThroughout s e && decide ((ringEntries s n).length < 64) && !(waitPending s n) &&
    (entryLuns e).all (lunSure s e)

end Sys2Proof.Machine
end

