-- ==== Sys2Proof/Machine/Channels.lean ====
section
/-! DEFINITION. Discovery of a channel and its rate (R267-R280): the commands CHANNEL_DISCOVERY, DISCOVERY_RB_TIMEOUT and
RATE_CHANGE. -/

namespace Sys2Proof.Machine

/-! ### Mode, rate, timing (R267, R270, R272, R276) -/

/-- The double-rate bus rates of R267, in units of 4 MT/s rounded down. -/
def busRates : List Nat := [200, 166, 133, 100, 83, 66, 50]

/-- VCCQ class (R269): 1.8 V, 1.2 V, or neither. -/
def vccqClass (mv : Nat) : Option Bool :=
  if 1080 ≤ mv ∧ mv ≤ 1320 then some false
  else if 1620 ≤ mv ∧ mv ≤ 1980 then some true
  else none

/-- The interface a channel runs: JESD230 or not. The baseline takes target 0's (R278). -/
def wantJesd (s : State) (c : Nat) (t0 : Option TargetReport) : Bool :=
  match profileOf s c with
  | some p => decide (pfByte p 0 = 1)
  | none => match t0 with
    | some r => r.jesd
    | none => false

/-- Mode code (R361, R270). -/
def wantMode (s : State) (c : Nat) (v18 : Bool) (t0 : Option TargetReport) : Nat :=
  match profileOf s c with
  | some p => pfByte p (if v18 then 2 else 1)
  | none => if wantJesd s c t0 then 3 else 1

/-- Items 1 to 3 of R278 and the mode of item 4: the first that fails, 0 when none does. -/
def firstFailed (s : State) (c m : Nat) (t0 : Option TargetReport) (r : TargetReport) : Nat :=
  match profileOf s c, t0 with
  | some p, _ =>
    if r.jesd ≠ decide (pfByte p 0 = 1) then 1
    else if !((List.range 4).any fun i => decide (fieldLE p (0x20 + 4 * i) 4 ≠ 0) && decide (r.ids.toNat = fieldLE p (0x20 + 4 * i) 4)) then 2
    else if r.luns ≠ pfByte p 0x30 ∨ r.planes ≠ pfByte p 0x31 ∨ r.sectors ≠ pfByte p 0x32 ∨ r.blocks ≠ pfHalf p 0x34 ∨
        r.pages ≠ pfHalf p 0x36 then 3
    else if r.modes.getLsbD m = false ∨ r.maxRate.toNat < 50 ∨ m = 0 then 4
    else 0
  | none, some z =>
    if r.jesd ≠ z.jesd then 1
    else if r.ids ≠ z.ids then 2
    else if r.luns ≠ z.luns ∨ r.planes ≠ z.planes ∨ r.sectors ≠ z.sectors ∨ r.blocks ≠ z.blocks ∨ r.pages ≠ z.pages then 3
    else if r.modes.getLsbD m = false ∨ r.maxRate.toNat < 50 then 4
    else 0
  | none, none => 1

/-- The rate of R270: the highest that the personality and every target allow. -/
def wantRate (s : State) (c : Nat) (rs : List TargetReport) : Nat :=
  match profileOf s c with
  | some p =>
    let lim := rs.foldl (fun n r => min n r.maxRate.toNat) (pfByte p 3)
    (busRates.find? fun k => decide (k ≤ lim)).getD 50
  | none => 50

/-- A time of R276 in core cycles: the larger of the personality's and every target's, rounded up. -/
def timingCycles (s : State) (c i : Nat) (rs : List TargetReport) : Nat :=
  let own := match profileOf s c with
    | some p => pfHalf p (0x38 + 2 * i)
    | none => 0
  let ns := rs.foldl (fun n r => max n (r.timing.getD i 0)) own
  min 255 ((2 * ns + 4) / 5)

/-! ### Read capture (R275) -/

/-- The runs of passing capture positions: first and last of each. -/
def captureRuns (w : W32) : List (Nat × Nat) :=
  (List.range 32).foldl (fun acc i =>
    if w.getLsbD i then
      match acc with
      | (a, b) :: t => if b + 1 = i then (a, i) :: t else (i, i) :: acc
      | [] => [(i, i)]
    else acc) []

/-- The middle of the longest run; the lowest on a tie. -/
def captureCentre (w : W32) : Option Nat :=
  match (captureRuns w).reverse with
  | [] => none
  | r :: t =>
    let x := t.foldl (fun (b : Nat × Nat) (y : Nat × Nat) => if b.2 - b.1 < y.2 - y.1 then y else b) r
    some ((x.1 + x.2) / 2)

/-! ### Discovery (R277-R280, R365) -/

/-- A channel may be discovered: the boot's step 6, or step 4 of a flash reset or reload, outside the harmless state (R541). -/
def mayDiscover (s : State) (c : Nat) : Bool :=
  live s && !((fchOf s c).ended) && !s.pmu.harmless && (decide (s.glb.phase = 5) || (s.boot.busy && s.boot.loaded))

/-- The channel ends discovery in the harmless state. -/
def leaveHarmless (f : Fch) : Fch :=
  { f with up := false, harmless := true, ended := true, rate := 0, iface := 0, found := 0, lunm1 := 0, mismatch := 0, trim := 0
           luns := [], nextRate := none, xfer := none, rbFallback := false }

/-- The reports of the present targets, numbered. -/
def presentTargets (ts : List TargetReport) : List (Nat × TargetReport) :=
  ((List.range 8).zip ts).filter fun x => x.2.present

/-- FCHn.TGT (R278). -/
def tgtWord (f : Fch) : W64 := put f.found.toNat 8 0 ||| put f.lunm1.toNat 16 8 ||| put f.mismatch.toNat 8 24

/-- The LUN by which a target is addressed before its LUNs are known. -/
def targetLun (c t : Nat) : Byte := BitVec.ofNat 8 (32 * c + 4 * t)

/-- Steps 1 and 2 of R277: the pins leave the harmless state with WP_N low, and every CE_N gets a RESET. -/
def openBus (s : State) (c : Nat) : State :=
  (List.range 8).foldl (fun s t => emit s (.flashReset (BitVec.ofNat 3 c) t none)) (emit s (.flashPins (BitVec.ofNat 3 c) 0xFF .low))

/-- Steps 4 and 5 of R277 for one target: READ ID at 20h, at 40h where the ONFI signature is missing, and for a present target
READ ID at 00h and its parameter page. -/
def identify (s : State) (c t : Nat) (r : TargetReport) : State :=
  let l := targetLun c t
  let s := emit s (.flashReadId l 0x20)
  let s := if r.present && !r.jesd then s else emit s (.flashReadId l 0x40)
  if r.present then emit (emit s (.flashReadId l 0x00)) (.flashParam l) else s

/-- Step 7 of R277 for a target that passed step 6: its settings, and ZQ calibration once where its parameter page declares it
required (R273, R274). -/
def configure (s : State) (c t : Nat) (r : TargetReport) : State :=
  let s := writeFeatures s c t r.jesd
  if r.zq then emit s (.flashZq (targetLun c t)) else s

/-- Step 8 of R277 for such a target: its parameter page is sensed once and read at each of the 32 capture positions (R275). -/
def capture (s : State) (c t : Nat) : State :=
  (List.range 32).foldl (fun s i => emit s (.flashCapture (targetLun c t) i)) (emit s (.flashParam (targetLun c t)))

/-- The targets as a mask. -/
def targetMask (l : List (Nat × TargetReport)) : Byte := l.foldl (fun (b : Byte) x => b ||| (1#8 <<< x.1)) 0

/-- The personality leaves the channel unused: it is not discovered (R365). -/
def channelUnused (s : State) (c : Nat) : Bool := s.boot.pair.isSome && (profileOf s c).isNone

/-- The other channel of the pair has measured the pair's supply in this discovery. -/
def pairMeasured (s : State) (c : Nat) : Bool :=
  let p := if c % 2 = 0 then c + 1 else c - 1
  (fchOf s p).ended && !(channelUnused s p)

/-- The reading of the pair's supply: measured once for both channels of a discovery (R269). -/
def pairReading (s : State) (c mv : Nat) : Nat :=
  if pairMeasured s c then (fchOf s (if c % 2 = 0 then c + 1 else c - 1)).vccqMv else mv

/-- What a channel shows once discovery has found targets on it (R270-R280). -/
def channelUp (s : State) (c : Nat) (f0 : Fch) (mv : Nat) (v18 : Bool) (m : Nat) (t0 : Option TargetReport)
    (good bad : List (Nat × TargetReport)) (zq : Bool) : Fch :=
  let rs := good.map (·.2)
  let rate := wantRate s c rs
  let drive := match profileOf s c with
    | some p => pfByte p 5 % 8
    | none => 4
  let odt := match profileOf s c with
    | some p => pfByte p 5 / 8 % 16
    | none => 0
  { f0 with
    up := true, harmless := false, ended := true, baseline := baseline s, iface := BitVec.ofNat 2 m
    jesd := wantJesd s c t0, vccq18 := v18, vccqBad := false, vccqMv := mv, rbFallback := false
    rate := BitVec.ofNat 8 rate, nextRate := none, xfer := none, maxRate := BitVec.ofNat 8 rate
    diff := (match profileOf s c with
      | some p => (byteAt p 4).getLsbD 0 && rs.all (·.diff)
      | none => false)
    drive := BitVec.ofNat 3 drive, odt := BitVec.ofNat 4 odt, zqDone := zq
    found := targetMask good, mismatch := targetMask bad
    lunm1 := good.foldl (fun (w : W16) x => w ||| (BitVec.ofNat 16 ((x.2.luns - 1) % 4) <<< (2 * x.1))) 0
    indep := targetMask (good.filter fun x => x.2.indep)
    timing := (List.range 4).foldl (fun (w : W32) i => w ||| put32 (timingCycles s c i rs) 8 (8 * i)) 0
    trim := good.foldl (fun (w : W64) x => w ||| put (((captureCentre x.2.capture).getD 0) + 32) 6 (8 * x.1)) 0
    geo := match rs with
      | r :: _ => { planes := r.planes, blocks := r.blocks, pages := r.pages, sectors := r.sectors }
      | [] => { planes := 1, blocks := 1, pages := 1, sectors := 1 }
    luns := good.flatMap fun x => (List.range (min 4 x.2.luns)).map fun i => (4 * x.1 + i, { state := LunState.idle }) }

/-- The first item of R278 that a target fails, 0 when none does. -/
def verdict (s : State) (c m : Nat) (t0 : Option TargetReport) (r : TargetReport) : Nat :=
  let k := firstFailed s c m t0 r
  if k ≠ 0 then k else if (captureCentre r.capture).isNone then 5 else 0

/-- Steps 1 to 9 of R277 on a channel whose supply reads well and which the personality uses; `statusRead` where RB_N did not
rise and READ STATUS goes to each target. -/
def probe (s : State) (c mv : Nat) (v18 : Bool) (targets : List TargetReport) (statusRead : Bool) : State :=
  let f0 := fchOf s c
  let ts := presentTargets targets
  let t0 := (ts.find? fun x => decide (x.1 = 0)).map (·.2)
  let m := wantMode s c v18 t0
  let s := openBus s c
  let s := if statusRead then (List.range 8).foldl (fun s t => emit s (.flashPoll (targetLun c t) 0x70)) s else s
  let s := ((List.range 8).zip targets).foldl (fun s x => identify s c x.1 x.2) s
  let chosen := ts.filter fun x => decide (firstFailed s c m t0 x.2 = 0)
  let s := chosen.foldl (fun s x => configure s c x.1 x.2) s
  let s := chosen.foldl (fun s x => capture s c x.1) s
  let s := ts.foldl (fun s x => if verdict s c m t0 x.2 = 0 then s else recordMismatch s c x.1 (verdict s c m t0 x.2)) s
  let good := ts.filter fun x => decide (verdict s c m t0 x.2 = 0)
  let bad := ts.filter fun x => decide (verdict s c m t0 x.2 ≠ 0)
  if good.isEmpty then
    setFch s c { leaveHarmless f0 with
      vccqBad := false, vccq18 := v18, vccqMv := mv, mismatch := targetMask bad, baseline := baseline s }
  else
    let f := channelUp s c f0 mv v18 m t0 good bad (chosen.any fun x => x.2.zq)
    occur (setFch (emit s (.flashPins (BitVec.ofNat 3 c) 0xFF .high)) c f) (blkFCH + c) 0x401
      (put32 m 2 3 ||| put32 f.rate.toNat 8 8) ((tgtWord f).setWidth 32)

/-- A channel is reset, identified, configured and brought up, or left harmless: without a profile, or with a supply outside
both classes, as both channels of its pair then are. -/
def discover (s : State) (c : Nat) (mv : Nat) (targets : List TargetReport) (statusRead : Bool) : State :=
  let f0 := fchOf s c
  if channelUnused s c then setFch s c { leaveHarmless f0 with vccqBad := false, baseline := baseline s }
  else
    let mv := pairReading s c mv
    match vccqClass mv with
    | none =>
      let s' := setFch s c { leaveHarmless f0 with vccqBad := true, vccqMv := mv, baseline := baseline s }
      if pairMeasured s c then s' else occur s' (blkFCH + c) 0x402 (put32 (c / 2) 2 0) (BitVec.ofNat 32 mv)
    | some v18 => probe s c mv v18 targets statusRead

/-- CHANNEL_DISCOVERY (R277). -/
def execChannelDiscovery (c : BitVec 3) (mv : Nat) (targets : List TargetReport) (s : State) : Host.Outcome State Fault Refusal :=
  .next (if mayDiscover s c.toNat then discover s c.toNat mv targets false else s)

/-- DISCOVERY_RB_TIMEOUT (R277): a target whose status does not show ready by C0+10 ms counts as absent. -/
def execDiscoveryRbTimeout (c : BitVec 3) (mv : Nat) (targets : List TargetReport) (ready : Byte) (s : State) :
    Host.Outcome State Fault Refusal :=
  .next (if mayDiscover s c.toNat then
      discover s c.toNat mv (targets.mapIdx fun i r => { r with present := r.present && ready.getLsbD i }) true
    else s)

/-! ### Rate (R271) -/

/-- Entries that use a channel below 400 MT/s lose their guarantee (R263). -/
def dropSlowChannel (s : State) (c : Nat) : State :=
  if 100 ≤ rateOf s c then s
  else
    let uses (e : Entry) : Bool := (entryLuns e).any fun l => decide (l / 32 = c)
    { s with entries := s.entries.map fun (e : Entry) => if uses e then { e with guaranteed := false } else e
             sqs := s.sqs.map fun q => (q.1, { q.2 with sureCounts := q.2.sureCounts.filter fun k => !(uses (slotEntry s q.1 q.2 k)) }) }

/-- RATE_CHANGE (R271): the ordered rate takes effect at the sector boundary. -/
def execRateChange (c : BitVec 3) (s : State) : Host.Outcome State Fault Refusal :=
  let f := fchOf s c.toNat
  .next (match f.nextRate with
    | none => s
    | some r => dropSlowChannel (setFch s c.toNat { f with rate := r, nextRate := none }) c.toNat)

end Sys2Proof.Machine
end

