-- ==== Sys2Proof/Machine/Images.lean ====
section
/-! DEFINITION. Containers, the content checks, the pair outcome, flash reset, reload and READY (chapters 10 and 15): the
commands CONTAINER_CHECK, PAIR_OUTCOME, FLASH_RESET, RELOAD, FLASH_RESET_DONE and BOOT_READY. -/

namespace Sys2Proof.Machine

/-! ### Content checks (R359, R363) -/

/-- Bytes [o, o+n) are zero. -/
def zeros (b : List Byte) (o n : Nat) : Bool := (slice b o n).all fun x => decide (x = 0)

/-- A nano-word has no reserved bit and no reserved code set (R350, R359). -/
def nanoOk (w : W64) : Bool :=
  decide (fld w 63 30 = 0) && decide (fld w 10 8 ≤ 2) && decide (fld w 24 22 ≤ 4) && decide (fld w 28 25 ≤ 7)

/-- A sequencer image's body as stores (R358). -/
def parseImage (b : List Byte) : Image :=
  let m := fieldLE b 2 2
  let n := fieldLE b 4 2
  { vertical := decide (byteAt b 0 = 1), micro := wordsOf m (b.drop 0x40), nano := wordsOf n (b.drop (0x40 + 8 * m))
    cyc := (List.range 4).map fun i => fieldLE b (8 + 2 * i) 2
    entries := (List.range 16).map fun i => fieldLE b (0x10 + 2 * i) 2 }

/-- R359. -/
def imageOk (b : List Byte) : Bool :=
  let m := fieldLE b 2 2
  let n := fieldLE b 4 2
  let i := parseImage b
  decide ((byteAt b 0).toNat ≤ 1) && decide (1 ≤ m) && decide (m ≤ 4096) && decide (n ≤ 512) &&
    decide (b.length = 64 + 8 * (m + n)) && i.cyc.all (fun c => decide (1 ≤ c) && decide (c ≤ 1023)) &&
    i.entries.all (fun e => decide (e < (if i.vertical then 4 * m else 2 * m))) && i.nano.all nanoOk &&
    zeros b 1 1 && zeros b 6 2 && zeros b 0x30 16

/-- The ORDER of a TYPE record: begins with 0, distinct, below NSTEPS (R363). -/
def orderOk (l : List Nat) (n : Nat) : Bool := decide (l.head? = some 0) && decide (l.eraseDups = l) && l.all fun k => decide (k < n)

/-- A TYPE record in range (R362, R363). -/
def typeOk (p : List Byte) (t : Nat) : Bool :=
  decide (tyByte p t 0 ≤ 4) && decide (tyByte p t 1 < 64) && decide (1 ≤ tyByte p t 3) && decide (tyByte p t 3 ≤ 32) &&
    decide (1 ≤ tyByte p t 4) && decide (tyByte p t 4 ≤ tyByte p t 3) &&
    orderOk ((List.range (tyByte p t 4)).map fun i => tyByte p t (0xA0 + i)) (tyByte p t 3) &&
    (decide (tyByte p t 1 / 32 % 2 = 0) || (List.range 3).all fun i => decide (tyByte p t (5 + i) ≠ 0)) &&
    zeros p (tyAt t + 0x1E) 2 && zeros p (tyAt t + 0xC8) 24

/-- A mode value suits the interface (R363). -/
def modeOk (iface m : Nat) : Bool := decide (m = 0) || (if iface = 0 then decide (m = 1) || decide (m = 2) else decide (m = 3))

/-- A profile in range (R361, R363). -/
def profileOk (p : List Byte) : Bool :=
  decide (pfByte p 0 ≤ 1) && modeOk (pfByte p 0) (pfByte p 1) && modeOk (pfByte p 0) (pfByte p 2) &&
    decide (pfByte p 1 ≠ 0 ∨ pfByte p 2 ≠ 0) && decide (50 ≤ pfByte p 3) && decide (pfByte p 3 ≤ 200) && decide (pfByte p 4 < 4) &&
    decide (pfByte p 5 / 8 ≤ 6) && decide (1 ≤ pfByte p 6) && decide (pfByte p 6 ≤ 15) &&
    decide (1 ≤ pfByte p 0x30) && decide (pfByte p 0x30 ≤ 4) && decide (1 ≤ pfByte p 0x31) && decide (pfByte p 0x31 ≤ 4) &&
    decide (1 ≤ pfByte p 0x32) && decide (pfByte p 0x32 ≤ 16) && zeros p 0x33 1 && decide (64 ≤ pfHalf p 0x34) &&
    decide (1 ≤ pfHalf p 0x36) && decide (pfHalf p 0x36 ≤ 4096) && decide (pfByte p 0x41 ≤ 7) && zeros p 0x42 2 &&
    decide (pfHalf p 0x48 ≤ 4095) && zeros p 0x4C 20 && zeros p 0x3E0 32 && (List.range 4).all (typeOk p)

/-- The profiles of a personality's body (R360). -/
def parseProfiles (b : List Byte) : List (List Byte) := (List.range (byteAt b 8).toNat).map fun i => slice b (0x40 + 1024 * i) 1024

/-- R363. -/
def personalityOk (b : List Byte) : Bool :=
  let n := (byteAt b 8).toNat
  decide (1 ≤ n) && decide (n ≤ 8) && decide (b.length = 64 + 1024 * n) &&
    (b.take 8).all (fun c => decide (c = 0xFF) || decide (c.toNat < n)) && zeros b 9 55 && (parseProfiles b).all profileOk

/-! ### The Bruen container (R367-R371) -/

def cMagic : List Byte := [0x42, 0x52, 0x4E, 0x31]
def cBodyLen (b : List Byte) : Nat := fieldLE b 0x14 4
def cSvn (b : List Byte) : Nat := fieldLE b 0x10 2
def cEncrypted (b : List Byte) : Bool := (byteAt b 7).getLsbD 0
/-- The body as stored. -/
def cBody (b : List Byte) : List Byte := slice b 0x100 (cBodyLen b)

/-- PTYPE of a container (R367). -/
def ptypeOf (personality : Bool) : Nat := if personality then 2 else 1

/-- Check 1 of R371. -/
def headerOk (personality : Bool) (b : List Byte) : Bool :=
  decide (b.take 4 = cMagic) && decide (fieldLE b 4 2 = 1) && decide ((byteAt b 6).toNat = ptypeOf personality) &&
    decide ((byteAt b 7).toNat < 2) && zeros b 0x12 2 && zeros b 0x1C 4 && zeros b 0x2C 4 && zeros b 0xE0 32 &&
    decide (cBodyLen b % 8 = 0) && decide (cBodyLen b ≤ (if personality then 8256 else 36928))

/-- The programmed, unrevoked, whole key-hash slots whose digest is the public key's (R371 check 2). -/
def keySlotsOf (s : State) (b : List Byte) : BitVec 4 :=
  let h := sha256 (slice b 0x60 64)
  (List.range 4).foldl (fun (m : BitVec 4) k =>
    match tgetD s.fus.hash k .blank with
    | .programmed d => if d = h ∧ s.fus.revoked.getLsbD k = false then m ||| (1#4 <<< k) else m
    | _ => m) 0

/-- The plaintext body: check 8 of R371 (R368). -/
def plainBody (s : State) (b : List Byte) : Option (List Byte) :=
  if cEncrypted b then
    match s.fus.imageKey with
    | .programmed k =>
      gcmDecrypt k (slice b 0x20 12) (patch (b.take 0xA0) 0x30 (List.replicate 16 0)) (cBody b) (slice b 0x30 16)
    | _ => none
  else if s.fus.encreq then none else some (cBody b)

/-- The verdict of R371, and what an accepted container hands over. -/
def checkContainer (s : State) (personality : Bool) (b : List Byte) : Nat × Option Container :=
  if !(headerOk personality b) then (2, none)
  else if b.length < 256 + cBodyLen b then (2, none)
  else
    let slots := keySlotsOf s b
    if slots = 0 then (3, none)
    else if !(ecdsaVerify (slice b 0x60 64) (slice b 0xA0 64) (sha256 (b.take 0xA0))) then (4, none)
    else if sha256 (cBody b) ≠ slice b 0x40 32 then (5, none)
    else if cSvn b < s.fus.arb then (6, none)
    else if (BitVec.ofNat 16 (fieldLE b 0xA 2)).getLsbD Config.stepping.toNat = false then (7, none)
    else if Config.romRev.toNat < fieldLE b 0xC 2 ∨ fieldLE b 0xE 2 < Config.romRev.toNat then (8, none)
    else match plainBody s b with
      | none => (9, none)
      | some body =>
        if (if personality then personalityOk body else imageOk body) then
          (1, some { ifMaj := byteAt b 8, ifMin := byteAt b 9, svn := BitVec.ofNat 16 (cSvn b), slots := slots
                     hash := slice b 0x40 32, body := body })
        else (10, none)

/-- IMAGE_REJECTED for a verdict other than NONE and OK (R371). -/
def recordRejected (s : State) (code ptype src : Nat) (b : List Byte) : State :=
  if code ≤ 1 then s
  else occur s blkBOOT 0xF01
    (put32 code 4 0 ||| put32 ptype 2 4 ||| put32 src 2 6 ||| put32 (byteAt b 8).toNat 8 8 ||| put32 (byteAt b 9).toNat 8 16)
    (put32 (cSvn b) 16 0)

/-- A load is under way and the stores have not been loaded yet: the boot's steps 2 to 5, or steps 1 to 3 of R539. -/
def loading (s : State) : Bool :=
  live s && ((s.boot.busy && !s.boot.loaded) || (decide (1 ≤ s.glb.phase.toNat) && decide (s.glb.phase.toNat ≤ 3)))

/-- A pushed container (R539): a domain 0 read under checks 2 to 6 of R178. -/
def readPush (s : State) (personality : Bool) : State × Nat × Option Container × List Byte :=
  let w := regGet s blkBOOT (if personality then 0x90 else 0x88)
  let key := baseKey w
  let off := baseOffset w
  if key = 0 then (s, 0, none, [])
  else match checkRegion s 0 key off 256 false with
    | .error v => (violate s 0 v {}, 0, none, [])
    | .ok a =>
      let hd := memReadZeroed s a 256
      if !(headerOk personality hd) then
        (noteFailing s 1 (failing s a 256), 2, none, hd)
      else
        let n := 256 + cBodyLen hd
        match checkRegion s 0 key off n false with
        | .error v => (violate s 0 v {}, 0, none, hd)
        | .ok a =>
          let bad := failing s a n
          if !bad.isEmpty then (noteFailing s 1 bad, 2, none, hd)
          else
            let b := memRead s a n
            let r := checkContainer s personality b
            (s, r.1, r.2, b)

/-- The records of the sectors of a boot-area copy that did not read (R529): domain 0, ring field 0x3F. -/
def recordCopyFaults (s : State) (src : Nat) (block : Nat) (fs : List CopyFault) : State :=
  fs.foldl (fun s f =>
    recordSector s (if f.check = 0 then 0x501 else 0x502) (32 * src) 0 0x3F f.sector.toNat 1 block f.page.toNat 0 f.check.toNat) s

/-- A boot-area copy (R529, R530). -/
def readCopy (s : State) (personality : Bool) (src : Nat) (secondary : Bool) (bytes : Option (List Byte)) (fs : List CopyFault) :
    State × Nat × Option Container × List Byte :=
  match bytes with
  | none => (s, 0, none, [])
  | some b =>
    if !fs.isEmpty then (recordCopyFaults s src (b2n secondary + 2 * b2n personality) fs, 2, none, b)
    else
      let r := checkContainer s personality b
      (s, r.1, r.2, b)

/-- The probe of a boot area's channel before its first copy: steps 1 to 5 of R277 on target 0 alone, and the read-capture
delay (R528). -/
def bootProbe (s : State) (c : Nat) : State :=
  let l := targetLun c 0
  let s := emit (emit s (.flashPins (BitVec.ofNat 3 c) 0xFF .low)) (.flashReset (BitVec.ofNat 3 c) 0 none)
  let s := emit (emit (emit s (.flashReadId l 0x20)) (.flashReadId l 0x40)) (.flashReadId l 0x00)
  capture (emit s (.flashParam l)) c 0

/-- The turn of a copy has come: the primary first, then, unless it was taken, the secondary; a pushed container has one copy
(R530, R539). -/
def copyTurn (v : Verdict) (src : BitVec 2) (secondary : Bool) : Bool :=
  decide (v.code ≠ 1) && decide (v.tried = b2n secondary) && !(decide (src = 2) && secondary)

/-- A container's verdict stands: a copy was taken, or every copy of its source has been tried (R530). -/
def settled (s : State) (v : Verdict) : Bool :=
  decide (v.code = 1) || decide (s.boot.from_ = 3) || decide ((if s.boot.from_ = 2 then 1 else 2) ≤ v.tried)

/-- CONTAINER_CHECK (R371): one copy is judged, in its turn; a copy after one that was taken is not read (R530). -/
def execContainerCheck (personality : Bool) (src : BitVec 2) (secondary : Bool) (bytes : Option (List Byte)) (faults : List CopyFault)
    (s : State) : Host.Outcome State Fault Refusal :=
  .next (
    let v := if personality then s.boot.pv else s.boot.sv
    if !(loading s) || decide (s.boot.from_ ≠ src) || decide (src = 3) || !(copyTurn v src secondary) then s
    else
      let s := if src ≠ 2 ∧ s.boot.sv.tried = 0 ∧ s.boot.pv.tried = 0 then bootProbe s src.toNat else s
      let (s, code, taken, b) := if src = 2 then readPush s personality else readCopy s personality src.toNat secondary bytes faults
      let s := recordRejected s code (ptypeOf personality) src.toNat b
      let v : Verdict := { code := BitVec.ofNat 4 code, tried := v.tried + 1, sec := secondary && decide (code = 1), taken := taken }
      let s := if s.boot.busy then s else { s with glb := { s.glb with phase := 3 } }
      if personality then { s with boot := { s.boot with pv := v } } else { s with boot := { s.boot with sv := v } })

/-! ### The pair (R378-R381, R365, R366) -/

/-- The outcome of R378. -/
def pairCode (a b : Verdict) : Nat :=
  if a.code = 0 ∨ b.code = 0 then 1
  else match a.taken, b.taken with
    | some x, some y => if x.ifMaj ≠ y.ifMaj then 3 else if x.ifMin.toNat < y.ifMin.toNat then 4 else 0
    | _, _ => 2

/-- The LLR tables take the personality's defaults (R325, R365). -/
def loadLlr (s : State) : State :=
  (List.range 32).foldl (fun s i =>
    match profileOf s (i / 4) with
    | some p => regSet s blkECC (0x100 + 8 * i) (BitVec.ofNat 64 (fieldLE p (tyAt (i % 4) + 0xC0) 8))
    | none => s) s

/-- The sequencers' stores are loaded, image or ROM baseline: idle, with good parity. -/
def loadSeqs (s : State) : State :=
  { s with seqs := (List.range 8).map fun n =>
      (n, { tgetD s.seqs n {} with state := 1, job := 0, jobLun := 0, pc := 0, stack := [], k0 := 0, k1 := 0, bad := false
                                   microBad := [], nanoBad := [] }) }

/-- The channels leave the idle pins for discovery (R277 step 1). -/
def openDiscovery (s : State) : State :=
  { s with fchs := (List.range 8).map fun c => (c, { fchOf s c with up := false, ended := false, xfer := none, nextRate := none }) }

/-- The end of the load step: causes of machine check and control-store parity that arose during a flash reset or reload end
(R541). -/
def endLoadCauses (s : State) : State :=
  if s.boot.busy then { s with pmu := endCause (endCause s.pmu 0) 1 } else s

/-- The pair is loaded (R365, R366, R379). -/
def loadPair (s : State) (x y : Container) : State :=
  let p : Pair := { image := parseImage x.body, profiles := parseProfiles y.body, chanprof := y.body.take 8, simg := x, pers := y }
  let s := if s.boot.lastHash = y.hash then s else emptyAbacus s
  let s := { s with boot := { s.boot with pair := some p, baseline := false, outcome := 0, source := s.boot.from_, lastHash := y.hash } }
  occur (loadLlr s) blkBOOT 0xF03
    (put32 x.ifMaj.toNat 8 0 ||| put32 x.ifMin.toNat 8 8 ||| put32 y.ifMaj.toNat 8 16 ||| put32 y.ifMin.toNat 8 24)
    (put32 x.svn.toNat 16 0 ||| put32 y.svn.toNat 16 16)

/-- The ROM baseline runs (R379, R366). -/
def runBaseline (s : State) (code : Nat) : State :=
  let s := emptyAbacus s
  occur { s with boot := { s.boot with pair := none, baseline := true, outcome := BitVec.ofNat 3 code, source := 3 } }
    blkBOOT 0xF02 (BitVec.ofNat 32 code) 0

/-- What follows the outcome: stores loaded, discovery begins. -/
def afterOutcome (s : State) : State :=
  let s := endLoadCauses (openDiscovery (loadSeqs s))
  if s.boot.busy then { s with boot := { s.boot with loaded := true } } else { s with glb := { s.glb with phase := 5 } }

/-- The loader writes the stores only while no sequencer runs a job (R343). -/
def storesFree (s : State) : Bool := s.seqs.all fun q => decide (q.2.state ≠ 2)

/-- PAIR_OUTCOME (R378, R531): under BOOTSEL 0b10 a pair of FCH0 that does not load gives way to FCH1's. -/
def execPairOutcome (s : State) : Host.Outcome State Fault Refusal :=
  .next (
    if !(loading s) || !(storesFree s) || !(settled s s.boot.sv && settled s s.boot.pv) then s
    else
      let code := pairCode s.boot.sv s.boot.pv
      if code ≠ 0 ∧ s.boot.from_ = 0 ∧ s.glb.bootsel = 2 then
        { s with boot := { s.boot with sv := {}, pv := {}, from_ := 1 } }
      else
        match code, s.boot.sv.taken, s.boot.pv.taken with
        | 0, some x, some y => afterOutcome (loadPair s x y)
        | _, _, _ => afterOutcome (runBaseline s code))

/-! ### Flash reset, reload, READY (R523, R538-R540) -/

/-- Entries in flight on a channel: fetched flash and admin entries that have not ended (R380, R538). -/
def inFlightOnChannels (s : State) : Nat :=
  (s.entries.filter fun e => (isFlashOp e.words || isAdminOp e.words) && (decide (e.phase = .fetched) || decide (e.phase = .running))).length

/-- The first source of a boot or of a flash reset (R525, R539). -/
def bootSource (bootsel : BitVec 2) (flash : Bool) : BitVec 2 :=
  if bootsel = 3 then (if flash then 2 else 3) else if bootsel = 1 then 1 else 0

/-- BOOT.CRES takes a result and the next SEQ. -/
def commandResult (s : State) (result kind : Nat) : State :=
  { s with boot := { s.boot with cres := put result 2 0 ||| put kind 2 2 ||| put (fld s.boot.cres 63 48 + 1) 16 48 } }

/-- A flash reset (kind code 5) or reload (6) is ordered (R538, R539). -/
def orderLoad (s : State) (kind : Nat) : State :=
  let n := inFlightOnChannels s
  if !s.glb.ready || s.glb.flashrst || decide (n ≠ 0) then
    occur (commandResult s (if s.glb.ready then 1 else 2) (kind - 4)) blkBOOT 0xF04 (put32 kind 4 0) (put32 (sat n 16) 16 0)
  else
    let s := commandResult s 0 (kind - 4)
    let s := { s with
      glb := { s.glb with flashrst := true, last := BitVec.ofNat 4 kind, flashcnt := s.glb.flashcnt + 1 }
      boot := { s.boot with busy := true, loaded := false, sv := {}, pv := {}, startedAt := cycles s
                            from_ := if kind = 6 then 2 else bootSource s.glb.bootsel true } }
    occur (dropGuarantees s) blkGLB 0x002 (put32 kind 4 0) (put32 s.conns.length 16 0)

/-- A write of GLB.RST (R535, R538). -/
def writeRst (s : State) (d : Dom) (v : W64) : State :=
  if fld v 15 8 ≠ 0x5A then s
  else if fld v 1 0 = 1 then { s with glb := { s.glb with sysReq := some (s.glb.sysReq.getD d) } }
  else if fld v 1 0 = 2 then orderLoad s 5
  else s

/-- A write of BOOT.CMD (R538). -/
def writeBootCmd (s : State) (v : W64) : State := if bit v 0 then orderLoad s 6 else s

/-- FLASH_RESET (R538). -/
def execFlashReset (w : Dom) (v : W64) (s : State) : Host.Outcome State Fault Refusal :=
  .next (guardedWrite s w blkGLB 0x88 {} fun s => writeRst s w v)

/-- RELOAD (R539). -/
def execReload (w : Dom) (v : W64) (s : State) : Host.Outcome State Fault Refusal :=
  .next (guardedWrite s w blkBOOT 0x98 {} fun s => writeBootCmd s v)

/-- Every channel has ended discovery. -/
def allEnded (s : State) : Bool := (List.range 8).all fun c => (fchOf s c).ended

/-- Whole milliseconds since a load or a boot began. -/
def msSince (s : State) : Nat := (cycles s - s.boot.startedAt) / 400000

/-- LUNs discovery found on every channel. -/
def lunTotal (s : State) : Nat := (List.range 8).foldl (fun n c => n + lunsOn s c) 0

/-- FLASH_RESET_DONE (R539 step 5). -/
def execFlashResetDone (s : State) : Host.Outcome State Fault Refusal :=
  .next (if s.boot.busy && s.boot.loaded && allEnded s then
      { s with
        glb := { s.glb with flashrst := false }
        boot := { s.boot with busy := false, loaded := false, loadEnd := cycles s
                              time := (s.boot.time &&& 0xFFFF) ||| put32 (sat (msSince s) 16) 16 16 } }
    else s)

/-- BOOT_READY (R523). -/
def execBootReady (s : State) : Host.Outcome State Fault Refusal :=
  .next (if live s && decide (s.glb.phase = 5) && allEnded s then
      let ms := sat (msSince s) 16
      let s := { s with
        glb := { s.glb with ready := true, phase := 6 }
        boot := { s.boot with time := (s.boot.time &&& 0xFFFF0000) ||| put32 ms 16 0 } }
      occur s blkGLB 0xF08 (put32 ms 16 0) (put32 (lunTotal s) 9 0 ||| put32 (b2n (baseline s)) 1 9)
    else s)

end Sys2Proof.Machine
end

