-- ==== Sys2Proof/Machine/Recorder.lean ====
section
/-! DEFINITION. Reading, freezing, exporting and flushing the recorder (R455-R459): the commands FREEZE, THAW, FREEZE_EXPIRY,
RECORDER_EXPORT and REC_FLUSH. -/

namespace Sys2Proof.Machine

/-- The core runs from the release of a reset on: CLK, MON, PMU, REC and TAG work (R518). -/
def coreOn (s : State) : Bool := decide (s.phase = .acquiring) || decide (s.phase = .running)

/-! ### Records as words (R447, R455, R459) -/

/-- Word 0 of a record. -/
def recWord0 (e : Rec) : W64 :=
  put e.code.toNat 12 0 ||| put e.source.toNat 7 12 ||| putB e.noTime 19 ||| put e.tally.toNat 12 20 |||
    put e.frame.toNat 26 32 ||| put e.slot.toNat 6 58

/-- Word 1 of a record. -/
def recWord1 (e : Rec) : W64 := put e.p0.toNat 32 0 ||| put e.p1.toNat 32 32

/-- The record numbered q, with its recorder index: not zero, not above SEQ, not overwritten (R455). -/
def recordOf (s : State) (q : W32) : Option (Nat × Rec) :=
  let i := recIndex q
  match tget s.recorder.recs i with
  | some e => if q ≠ 0 ∧ e.seq = q then some (i, e) else none
  | none => none

/-- The failing bytes of the record at an index: bit k for byte k of its two words. -/
def recBad (s : State) (i : Nat) : W16 := tgetD s.recorder.bad i 0

/-- Failing bytes read as zero. -/
def zeroBad (bad : W16) (l : List Byte) : List Byte := l.mapIdx fun k b => if bad.getLsbD k then 0 else b

/-- The 16 bytes a reader receives of record q; zeros when it does not exist. -/
def recBytes (s : State) (q : W32) : List Byte :=
  match recordOf s q with
  | none => List.replicate 16 (0 : Byte)
  | some (i, e) => zeroBad (recBad s i) (leBytes 8 (recWord0 e).toNat ++ leBytes 8 (recWord1 e).toNat)

/-- REC_PARITY for a record that was read and fails parity (R459). -/
def noteRecord (s : State) (q : W32) : State :=
  match recordOf s q with
  | none => s
  | some (i, _) =>
    if recBad s i = 0 then s else occur s blkREC 0x903 (put32 i 13 0) (put32 (recBad s i).toNat 16 0)

/-! ### The window (R455) -/

/-- The records of the window, from WBASE on. -/
def windowSeqs (s : State) : List W32 :=
  (List.range 16).map fun k => (regGet s blkREC 0xA8).setWidth 32 + BitVec.ofNat 32 k

/-- WIN0 to WIN31 and WSTAT. -/
def windowWords (s : State) : List W64 :=
  let qs := windowSeqs s
  let valid := qs.mapIdx fun k q => putB (recordOf s q).isSome k
  let perr := qs.mapIdx fun k q =>
    match recordOf s q with
    | some (i, _) => putB (decide (recBad s i ≠ 0)) (16 + k)
    | none => 0
  (qs.flatMap fun q => wordsOf 2 (recBytes s q)) ++ [(valid ++ perr).foldl (· ||| ·) 0]

/-- Latching the window reads its records. -/
def noteWindow (s : State) : State := (windowSeqs s).foldl noteRecord s

/-! ### Freezing (R456) -/

/-- A freeze begins or is latched again. -/
def freezeNow (s : State) : State :=
  let q := s.recorder.seq
  let max := fld (regGet s blkREC 0x80) 15 0
  let f : Freeze := { fseq := q, left := if max = 0 then none else some max }
  occur { s with recorder := { s.recorder with fseq := q, frozen := some f } } blkREC 0x901 (put32 max 16 0) q

/-- A write of REC.FREEZE. -/
def writeFreeze (s : State) (v : W64) : State :=
  if bit v 1 then { s with recorder := { s.recorder with frozen := none } }
  else if bit v 0 then freezeNow s
  else s

/-- FREEZE (R456). -/
def execFreeze (w : Dom) (v : W64) (s : State) : Host.Outcome State Fault Refusal :=
  .next (guardedWrite s w blkREC 0x88 {} fun s => writeFreeze s v)

/-- THAW (R456). -/
def execThaw (w : Dom) (v : W64) (s : State) : Host.Outcome State Fault Refusal :=
  .next (guardedWrite s w blkREC 0x88 {} fun s => writeFreeze s v)

/-- A frame boundary passes for a freeze. -/
def countFreeze (r : Recorder) : Recorder :=
  { r with frozen := r.frozen.map fun f => { f with left := f.left.map (· - 1) } }

/-- FREEZE_EXPIRY (R456): the FRZMAX-th frame boundary has come. -/
def execFreezeExpiry (s : State) : Host.Outcome State Fault Refusal :=
  .next (match s.recorder.frozen with
    | some f => if f.left = some 0 then { s with recorder := { s.recorder with frozen := none } } else s
    | none => s)

/-! ### Exporting (R457) -/

/-- The records of an export, each read whole. -/
def exportBytes (s : State) (first : W32) (n : Nat) : List Byte :=
  (List.range n).flatMap fun i => recBytes s (first + BitVec.ofNat 32 i)

/-- A write of REC.XCMD: checks 2 to 6 of R178 as a domain 0 write, then the export waits for the service lane (R386). -/
def writeXcmd (s : State) (v : W64) : State :=
  if !(bit v 63) || s.recorder.xjob.isSome then s
  else
    let n := fld v 39 32 + 1
    let first := BitVec.ofNat 32 (fld v 31 0)
    let dst := regGet s blkREC 0xB0
    let s := { s with recorder := { s.recorder with xseq := s.recorder.xseq + 1, xcount := 0 } }
    match checkRegion s 0 (baseKey dst) (baseOffset dst) (16 * n) true with
    | .error x => violate s 0 x {}
    | .ok a => { s with recorder := { s.recorder with xjob := some { next := first, left := n, addr := a } } }

/-- A burst of the service lane: up to 16 records of the export in progress, 256 bytes (R386, R457). -/
def exportBurst (s : State) : State :=
  match s.recorder.xjob with
  | none => s
  | some j =>
    let k := min 16 j.left
    let t := memWrite s j.addr (exportBytes s j.next k)
    let t := (List.range k).foldl (fun t i => noteRecord t (j.next + BitVec.ofNat 32 i)) t
    { t with recorder := { t.recorder with
        xcount := t.recorder.xcount + BitVec.ofNat 9 k
        xjob := if j.left ≤ 16 then none else some { next := j.next + BitVec.ofNat 32 k, left := j.left - k, addr := j.addr + 16 * k } } }

/-- RECORDER_EXPORT (R457). -/
def execRecorderExport (w : Dom) (v : W64) (s : State) : Host.Outcome State Fault Refusal :=
  .next (guardedWrite s w blkREC 0xB8 {} fun s => writeXcmd s v)

/-! ### Flushing (R458) -/

/-- A write of REC.FLUSHSEQ. -/
def writeFlush (s : State) (v : W64) : State :=
  let old := s.recorder.flushSeq
  let new : W32 := v.setWidth 32
  if old.toNat ≤ new.toNat ∧ new.toNat ≤ s.recorder.seq.toNat then
    occur { s with recorder := { s.recorder with flushSeq := new } } blkREC 0x902 old new
  else s

/-- REC_FLUSH (R458). -/
def execRecFlush (w : Dom) (v : W64) (s : State) : Host.Outcome State Fault Refusal :=
  .next (guardedWrite s w blkREC 0x98 {} fun s => writeFlush s v)

end Sys2Proof.Machine
end

