-- ==== Sys2Proof/Machine/Tag.lean ====
section
/-! DEFINITION. The service tag (R460-R480): field commands, tiles, commits and flips, the device tiles, the password. A field
command is one step; it lasts until TILE_FLIP or the next field command, which is the boundary of R472. -/

namespace Sys2Proof.Machine

/-! ### Tiles (R466, R470) -/

/-- Written by domain 0 through the TAG registers. -/
def isWired (t : Nat) : Bool := decide (t = 1) || (decide (28 ≤ t) && decide (t ≤ 59))

/-- A tile as shipped. -/
def freshTile (t : Nat) : Tile :=
  { comm := List.replicate 64 (0 : Byte), shadow := List.replicate 64 (0 : Byte), fieldread := !(decide (28 ≤ t) && decide (t ≤ 59)) }

def tileOf (s : State) (t : Nat) : Tile := tgetD s.tag.tiles t (freshTile t)
def setTile (s : State) (t : Nat) (x : Tile) : State := { s with tag := { s.tag with tiles := tset s.tag.tiles t x } }

/-- The committed bytes as every reader sees them: bit 0 of the health tile's byte 4 is ORed with the FAULT latch (R476). -/
def tileBytes (s : State) (t : Nat) : List Byte :=
  let l := (tileOf s t).comm
  if t = 2 ∧ s.tag.fault = true then patch l 4 [byteAt l 4 ||| 1] else l

/-- The device's own write of a tile: its latest content, whole or in part, is put in the shadow and committed (R471). -/
def composeTile (s : State) (t i : Nat) (d : List Byte) : State :=
  let x := tileOf s t
  let base := if x.pending then x.shadow else x.comm
  setTile s t { x with shadow := patch base i d, pending := true }

/-- A record or event of the tag, while the recorder is live. -/
def tagOccur (s : State) (c : BitVec 12) (p0 p1 : W32) : State := if coreOn s then occur s blkTAG c p0 p1 else s

/-- The boundary between field commands for one tile: a pending commit flips, a new FIELDREAD takes effect (R472-R474). -/
def flipTile (s : State) (t : Nat) : State :=
  let x := tileOf s t
  let x : Tile := { x with fieldread := x.nextRead.getD x.fieldread, nextRead := none }
  if x.pending then
    let s := setTile s t { x with comm := x.shadow, shadow := x.comm, version := x.version + 1, pending := false, fieldWrite := none }
    let s := match x.fieldWrite with
      | some (b, d) => tagOccur s 0x906 (put32 b 10 0) d
      | none => s
    tagOccur s 0x907 (put32 t 6 0 ||| put32 (x.version + 1).toNat 8 8) 0
  else if (tileOf s t).nextRead.isSome then setTile s t x
  else s

/-- TILE_FLIP (R472). -/
def execTileFlip (t : BitVec 6) (s : State) : Host.Outcome State Fault Refusal := .next (flipTile s t.toNat)

/-- No commit is pending (R477). -/
def noCommit (s : State) : Bool := s.tag.tiles.all fun e => !e.2.pending

/-- Every pending commit flips: the boundary before a field command. -/
def flipAll (s : State) : State := (s.tag.tiles.map (·.1)).foldl flipTile s

/-! ### Field commands (R460-R465) -/

def answerTag (s : State) (l : List Byte) : State := emit s (.tagAnswer l)
def tagError (s : State) (code : Byte) : State := answerTag s [1, code]
def tagOk (s : State) (d : List Byte) : State := answerTag s (0 :: d)

/-- The request names this tag: by UID in any state, as selected, or as every tag that is not quiet. -/
def named (s : State) : TagAddr → Bool
  | .addressed u => decide (u = Config.uid)
  | .selected => s.tag.selected
  | .all => !s.tag.quiet

/-- A field command that the tag answers: a field is present and the request names the tag. -/
def fieldCommand (s : State) (a : TagAddr) (go : State → State) : State :=
  if s.tag.field && named s a then go (flipAll s) else s

/-- The block a request names: two bytes with the extension flag, one without (R462). -/
def blockNo (ext : Bool) (b : W16) : Nat := if ext then b.toNat else b.toNat % 256

/-- The four committed bytes of a block. -/
def blockBytes (s : State) (b : Nat) : List Byte := slice (tileBytes s (b / 16)) (4 * (b % 16)) 4

/-- A tile may be read by the field (R472, R479). -/
def fieldMayRead (s : State) (b : Nat) : Bool := (tileOf s (b / 16)).fieldread || s.tag.unlocked

/-- A block in an answer; with the Option flag its status byte, always zero, goes first (R460). -/
def blockAnswer (s : State) (opt : Bool) (b : Nat) : List Byte := (if opt then [0] else []) ++ blockBytes s b

def readBlock (s : State) (ext opt : Bool) (block : W16) : State :=
  let b := blockNo ext block
  if 1023 < b then tagError s 0x10
  else if !(fieldMayRead s b) then tagError s 0xA1
  else tagOk s (blockAnswer s opt b)

/-- READ_SINGLE_BLOCK (R460, R472). -/
def execReadSingleBlock (a : TagAddr) (ext opt : Bool) (block : W16) (s : State) : Host.Outcome State Fault Refusal :=
  .next (fieldCommand s a fun s => readBlock s ext opt block)

def readBlocks (s : State) (ext opt : Bool) (first : W16) (n : Nat) : State :=
  let b := blockNo ext first
  if (if ext then 1024 else 256) < b + n then tagError s 0x10
  else
    let bs := (List.range n).map (b + ·)
    if !(bs.all (fieldMayRead s)) then tagError s 0xA1 else tagOk s (bs.flatMap (blockAnswer s opt))

/-- READ_MULTIPLE_BLOCKS (R460, R462, R472). -/
def execReadMultipleBlocks (a : TagAddr) (ext opt : Bool) (first : W16) (countM1 : Byte) (s : State) :
    Host.Outcome State Fault Refusal :=
  .next (fieldCommand s a fun s => readBlocks s ext opt first (countM1.toNat + 1))

/-- R474, R464: the depot-note tile's shadow takes the committed copy and the block; it flips at the end of the command. -/
def writeBlock (s : State) (ext : Bool) (block : W16) (data : W32) : State :=
  let b := blockNo ext block
  if 1023 < b then tagError s 0x10
  else if b < 960 then tagError s 0x12
  else if !s.tag.unlocked then tagError s 0xA1
  else
    let x := tileOf s (b / 16)
    tagOk (setTile s (b / 16) { x with shadow := patch x.comm (4 * (b % 16)) (leBytes 4 data.toNat), pending := true
                                       fieldWrite := some (b, data) }) []

/-- WRITE_SINGLE_BLOCK (R474). -/
def execWriteSingleBlock (a : TagAddr) (ext : Bool) (block : W16) (data : W32) (s : State) : Host.Outcome State Fault Refusal :=
  .next (fieldCommand s a fun s => writeBlock s ext block data)

/-- A mask matches the UID from its least significant bit on. -/
def maskMatches (mask : List Bool) : Bool :=
  (mask.mapIdx fun i m => decide (m = Config.uid.getLsbD i)).all id

/-- The slot of a 16-slot inventory in which the tag answers: the four UID bits above the mask (ISO/IEC 15693-3). -/
def inventorySlot (mask : List Bool) : Nat := Config.uid.toNat / 2 ^ mask.length % 16

/-- INVENTORY (R460): AFI is 0x00 (R463), so only a request without AFI or with AFI 0x00 finds the tag. -/
def execInventory (slots16 : Bool) (afi : Option Byte) (mask : List Bool) (s : State) : Host.Outcome State Fault Refusal :=
  .next (
    if s.tag.field && !s.tag.quiet && decide (afi.getD 0 = 0) && maskMatches mask then
      emit (flipAll s) (.tagInventory (if slots16 then some (inventorySlot mask) else none) (0 :: 0 :: leBytes 8 Config.uid.toNat))
    else s)

/-- STAY_QUIET (R460): no answer. -/
def execStayQuiet (uid : W64) (s : State) : Host.Outcome State Fault Refusal :=
  .next (
    if s.tag.field && decide (uid = Config.uid) then
      let s := flipAll s
      { s with tag := { s.tag with quiet := true, selected := false } }
    else s)

/-- SELECT (R460): the selected tag answers; a tag selected before goes back to ready. -/
def execSelect (uid : W64) (s : State) : Host.Outcome State Fault Refusal :=
  .next (
    if !s.tag.field then s
    else if uid = Config.uid then
      let s := flipAll s
      tagOk { s with tag := { s.tag with selected := true, quiet := false } } []
    else { s with tag := { s.tag with selected := false } })

/-- RESET_TO_READY (R460). -/
def execResetToReady (a : TagAddr) (s : State) : Host.Outcome State Fault Refusal :=
  .next (fieldCommand s a fun s => tagOk { s with tag := { s.tag with selected := false, quiet := false } } [])

/-- GET_SYSTEM_INFORMATION (R463): information flags, UID, DSFID, AFI, block count and size, IC reference. -/
def execGetSystemInformation (a : TagAddr) (ext : Bool) (s : State) : Host.Outcome State Fault Refusal :=
  .next (fieldCommand s a fun s =>
    tagOk s ([0x0F] ++ leBytes 8 Config.uid.toNat ++ [0, 0] ++ (if ext then leBytes 2 1023 else [0xFF]) ++
      [3, BitVec.ofNat 8 Config.stepping.toNat]))

/-- R479, R480. -/
def tryUnlock (s : State) (password : W32) : State :=
  let g := s.tag
  if decide (g.pwd = 0) || decide (3 ≤ g.session.toNat) || decide (16 ≤ g.total.toNat) then tagError s 0xA2
  else if password = g.pwd then
    tagOk (tagOccur { s with tag := { g with unlocked := true, session := 0 } } 0x908 0 0) []
  else
    let s := { s with tag := { g with session := g.session + 1, total := g.total + 1 }, freeCtr := s.freeCtr + 1 }
    tagError (tagOccur s 0x905 (put32 (g.session + 1).toNat 8 0 ||| put32 (g.total + 1).toNat 8 8) 0)
      (Config.wrongPassword s.freeCtr)

/-- UNLOCK (R465, R479). -/
def execUnlock (a : TagAddr) (password : W32) (s : State) : Host.Outcome State Fault Refusal :=
  .next (fieldCommand s a fun s => tryUnlock s password)

/-- TILE_VERSION (R465). -/
def execTileVersion (a : TagAddr) (first : Byte) (countM1 : Byte) (s : State) : Host.Outcome State Fault Refusal :=
  .next (fieldCommand s a fun s =>
    if 64 < first.toNat + countM1.toNat + 1 then tagError s 0x10
    else tagOk s ((List.range (countM1.toNat + 1)).map fun i => (tileOf s (first.toNat + i)).version))

/-- TAG_UNSUPPORTED_COMMAND (R464). -/
def execTagUnsupportedCommand (a : TagAddr) (malformed : Bool) (s : State) : Host.Outcome State Fault Refusal :=
  .next (fieldCommand s a fun s => tagError s (if malformed then 0x02 else 0x01))

/-- A field session begins: ready, locked, no failures yet. -/
def openField (s : State) : State :=
  { s with tag := { s.tag with field := true, unlocked := false, selected := false, quiet := false, session := 0 } }

/-- A wake event in Deep Hold from an enabled source: its source is latched and PWRON rises; the core then starts from the
power-on reset (R492, R496). Bits of `src`: A, B, C, tag. -/
def wakeFrom (s : State) (src : BitVec 4) : State :=
  let on := src &&& (BitVec.ofNat 4 (s.pmu.seglatch.toNat + 8 * b2n s.pmu.tagwake))
  if s.phase = .deepHold ∧ on ≠ 0 then
    { s with phase := .porHeld
             pmu := { s.pmu with lastsrc := on }
             clk := { s.clk with dhExit := true }
             pins := { s.pins with pwron := true } }
  else s

/-- TAG_FIELD_ON (R478). -/
def execTagFieldOn (s : State) : Host.Outcome State Fault Refusal :=
  .next (if s.tag.field then s else wakeFrom (tagOccur (openField s) 0x904 0 0) 8)

/-- TAG_FIELD_LOST (R479): the session ends; what was pending flips. -/
def execTagFieldLost (s : State) : Host.Outcome State Fault Refusal :=
  .next (
    let s := flipAll s
    { s with tag := { s.tag with field := false, unlocked := false, selected := false, quiet := false } })

/-! ### The wired side (R473, R475) -/

/-- A write of TAG.TDATAw goes to the selected tile's shadow. -/
def writeTdata (s : State) (k : Nat) (v : W64) : State :=
  let t := fld (regGet s blkTAG 0x88) 5 0
  let x := tileOf s t
  if isWired t && !x.pending then setTile s t { x with shadow := patch x.shadow (8 * k) (leBytes 8 v.toNat) } else s

/-- A write of TAG.TCMD. -/
def writeTcmd (s : State) (v : W64) : State :=
  let t := fld v 5 0
  let x := tileOf s t
  let own := isWired t && !x.pending
  if !(bit v 15) then s
  else match fld v 9 8 with
    | 0 => if own then setTile s t { x with pending := true } else s
    | 1 => if own then setTile s t { x with shadow := x.comm } else s
    | 2 => setTile s t { x with nextRead := some (bit v 12) }
    | _ => s

/-- COMMIT (R473). -/
def execCommit (w : Dom) (v : W64) (s : State) : Host.Outcome State Fault Refusal :=
  .next (guardedWrite s w blkTAG 0xE0 {} fun s => writeTcmd s v)

/-- LOAD (R473). -/
def execLoad (w : Dom) (v : W64) (s : State) : Host.Outcome State Fault Refusal :=
  .next (guardedWrite s w blkTAG 0xE0 {} fun s => writeTcmd s v)

/-- SET_FIELDREAD (R473). -/
def execSetFieldread (w : Dom) (v : W64) (s : State) : Host.Outcome State Fault Refusal :=
  .next (guardedWrite s w blkTAG 0xE0 {} fun s => writeTcmd s v)

/-! ### Device tiles (R467-R469, R471) -/

/-- SEQ0.IMG's interface versions, SSVN and PSVN, as the identity tile shows them; zero under the baseline. -/
def imageVersions (s : State) : List Byte :=
  match s.boot.pair with
  | some p => [p.simg.ifMaj, p.simg.ifMin, p.pers.ifMaj, p.pers.ifMin] ++ leBytes 2 p.simg.svn.toNat ++ leBytes 2 p.pers.svn.toNat
  | none => List.replicate 8 (0 : Byte)

def imageKeySet (s : State) : Bool :=
  match s.fus.imageKey with
  | .programmed _ => true
  | _ => false

/-- The identity tile (R467). -/
def identBytes (s : State) : List Byte :=
  [0x4D, 0x42, 0x38, 0x37, 0x32, 0, 0, 0] ++ [BitVec.ofNat 8 Config.stepping.toNat, 0] ++ leBytes 2 Config.romRev.toNat ++
    imageVersions s ++
    [BitVec.ofNat 8 s.fus.arb, BitVec.ofNat 8 (b2n s.fus.debuglock + 2 * b2n s.fus.encreq + 4 * b2n (imageKeySet s))] ++
    leBytes 8 Config.uid.toNat ++ List.replicate 34 (0 : Byte)

/-- A MON temperature in whole degrees, rounded down and limited (MON.TEXT). -/
def wholeDegrees (t : W16) : Byte := BitVec.ofInt 8 (max (-128) (min 127 (t.toInt / 4)))

/-- Wall time at composition (R468). -/
def wallBytes (s : State) : List Byte :=
  match s.clk.wall with
  | none => List.replicate 8 (0 : Byte)
  | some (f, t) => leBytes 8 (ofSint ((t.toNat : Int) + 1000 * ((s.now.frame.toNat : Int) - (f.toNat : Int))) 64)

/-- The health tile (R468). -/
def healthBytes (s : State) (power : Nat) : List Byte :=
  leBytes 4 s.now.frame.toNat ++
    [BitVec.ofNat 8 (b2n s.pmu.harmless + 2 * b2n s.boot.baseline + 4 * b2n s.mon.throttle + 8 * b2n s.clk.holdover +
      16 * b2n s.clk.noTime + 32 * b2n s.recorder.overwrote + 64 * b2n s.recorder.frozen.isSome),
     BitVec.ofNat 8 power, wholeDegrees s.mon.now, wholeDegrees s.mon.hi, wholeDegrees s.mon.lo, 0] ++
    leBytes 2 s.retired.length ++ leBytes 4 s.recorder.seq.toNat ++ leBytes 4 s.recorder.flushSeq.toNat ++
    leBytes 4 s.recorder.lost.toNat ++ wallBytes s ++
    ((List.range 16).flatMap fun d => leBytes 2 (tgetD s.epochs d 0).toNat)

/-- A HEALTH composition; outside the harmless state it clears the FAULT latch (R471, R476). -/
def composeHealth (s : State) (power : Nat) : State :=
  let s := composeTile s 2 0 (healthBytes s power)
  if s.pmu.harmless then s else { s with tag := { s.tag with fault := false } }

/-- The 16 bytes of a mirror slot as last written. -/
def slotBytes (s : State) (i : Nat) : List Byte :=
  let x := tileOf s (4 + i / 4)
  slice (if x.pending then x.shadow else x.comm) (16 * (i % 4)) 16

def writeMirrorSlot (s : State) (i : Nat) (d : List Byte) : State := composeTile s (4 + i / 4) (16 * (i % 4)) d

/-- One record goes to the next slot (R469). -/
def mirrorOne (s : State) (q : W32) : State :=
  let i := if s.tag.count = 0 then 0 else (s.tag.newest + 1) % 96
  let s := noteRecord (writeMirrorSlot s i (recBytes s q)) q
  { s with tag := { s.tag with newest := i, count := min 96 (s.tag.count + 1), mirrored := q, inSlots := tset s.tag.inSlots i q } }

/-- The numbers of the records newer than the last one mirrored, at most the newest 96. -/
def newSeqs (s : State) : List W32 :=
  let q := s.recorder.seq.toNat
  let n := min 96 (q - s.tag.mirrored.toNat)
  (List.range n).map fun i => BitVec.ofNat 32 (q - n + 1 + i)

/-- A mirrored record whose tally has risen since. -/
def staleSlots (s : State) : List (Nat × W32) :=
  s.tag.inSlots.filter fun x => (recordOf s x.2).isSome && decide (recBytes s x.2 ≠ slotBytes s x.1)

/-- The mirror header (R469). -/
def mirrorHeader (s : State) : List Byte :=
  let wall : W32 × W64 := s.clk.wall.getD (0, 0)
  leBytes 4 s.tag.mirrored.toNat ++ [BitVec.ofNat 8 s.tag.newest, BitVec.ofNat 8 s.tag.count, 0, 0] ++
    leBytes 4 s.now.frame.toNat ++ leBytes 4 wall.1.toNat ++ leBytes 8 wall.2.toNat ++ List.replicate 40 (0 : Byte)

/-- MIRROR: rewritten slots, new records, header (R471). -/
def composeMirror (s : State) : State :=
  let s := (staleSlots s).foldl (fun s x => noteRecord (writeMirrorSlot s x.1 (recBytes s x.2)) x.2) s
  let s := (newSeqs s).foldl mirrorOne s
  composeTile s 3 0 (mirrorHeader s)

/-- The standing mirror request (R471): at most one commit of a tile per frame, none before the first tick lock. -/
def autoMirror (s : State) : State :=
  if bit (regGet s blkTAG 0x80) 0 && !s.clk.noTime && (!(newSeqs s).isEmpty || !(staleSlots s).isEmpty) then
    composeHealth (composeMirror s) s.pmu.state.toNat
  else s

/-- A write of TAG.GEN: MIRROR, HEALTH, IDENT and PWRESET in the order of their bits. -/
def writeGen (s : State) (v : W64) : State :=
  let s := if bit v 0 then composeMirror s else s
  let s := if bit v 1 then composeHealth s s.pmu.state.toNat else s
  let s := if bit v 2 then composeTile s 0 0 (identBytes s) else s
  if bit v 3 then { s with tag := { s.tag with total := 0 } } else s

/-- MIRROR (R471). -/
def execMirror (w : Dom) (v : W64) (s : State) : Host.Outcome State Fault Refusal :=
  .next (guardedWrite s w blkTAG 0xE8 {} fun s => writeGen s v)

/-- HEALTH (R471, R476). -/
def execHealth (w : Dom) (v : W64) (s : State) : Host.Outcome State Fault Refusal :=
  .next (guardedWrite s w blkTAG 0xE8 {} fun s => writeGen s v)

/-- IDENT (R471). -/
def execIdent (w : Dom) (v : W64) (s : State) : Host.Outcome State Fault Refusal :=
  .next (guardedWrite s w blkTAG 0xE8 {} fun s => writeGen s v)

/-- PWRESET (R480). -/
def execPwreset (w : Dom) (v : W64) (s : State) : Host.Outcome State Fault Refusal :=
  .next (guardedWrite s w blkTAG 0xE8 {} fun s => writeGen s v)

/-- PASSWORD_WRITE (R479). -/
def execPasswordWrite (w : Dom) (v : W64) (s : State) : Host.Outcome State Fault Refusal :=
  .next (guardedWrite s w blkTAG 0xF0 {} fun s => { s with tag := { s.tag with pwd := v.setWidth 32 } })

end Sys2Proof.Machine
end

