-- ==== Sys2Proof/Machine/Power.lean ====
section
/-! DEFINITION. Power states, monitors, the harmless state's end and the clock-loss drain (chapters 02 and 14). -/

namespace Sys2Proof.Machine

/-! ### Busy and rest (R486-R489) -/

/-- The MB872 is busy (R486). -/
def busyNow (s : State) : Bool :=
  (s.links.any fun e => !e.2.queue.isEmpty || (!e.2.lost && !e.2.unacked.isEmpty)) ||
  !s.entries.isEmpty || (s.cqs.any fun e => !e.2.held.isEmpty) ||
  (s.movers.any fun e => decide (e.2.state ≠ MoverState.idle) && decide (e.2.state ≠ MoverState.error)) ||
  s.recorder.xjob.isSome || (s.conns.any fun e => !e.2.held.isEmpty && reachable s e.2.node) ||
  s.fus.busy.isSome || (s.clk.drain && !s.clk.stopped) || s.pmu.finish

/-- The state the part is in: Run while it is busy, else the rest state it has taken (R486, R487). -/
def restNow (s : State) : Nat := if busyNow s then 0 else s.pmu.state.toNat

/-- Back to Run. -/
def wakeRun (s : State) : State := { s with pmu := { s.pmu with state := 0 } }

/-- The part takes a rest state; PMU.CNT counts the entry. -/
def enterRest (p : Pmu) (n : BitVec 3) : Pmu :=
  if p.state = n then p
  else
    { p with
      state := n
      doze := if n = 1 then p.doze + 1 else p.doze
      nap := if n = 2 then p.nap + 1 else p.nap
      hold := if n = 3 then p.hold + 1 else p.hold }

/-- POWER_STATE (R487): not busy, the part rests; busy, it runs (R486). -/
def execPowerState (s : State) : Host.Outcome State Fault Refusal :=
  .next (
    if !(live s) then s
    else if busyNow s then wakeRun s
    else { s with pmu := enterRest s.pmu s.pmu.rest })

/-- LATENCY_BUDGET (R487): a write of DOM.LATd. -/
def execLatencyBudget (w d : Dom) (v : W64) (s : State) : Host.Outcome State Fault Refusal :=
  .next (guardedWrite s w blkDOM (0x130 + 0x40 * d.toNat) {} fun s => refreshRest (regStore s blkDOM (0x130 + 0x40 * d.toNat) v))

/-! ### Deep Hold (R490-R496) -/

/-- A write of PMU.DEEP. -/
def writeDeep (s : State) (v : W64) : State :=
  if bit v 1 then { s with pmu := { s.pmu with armed := false } }
  else if bit v 0 then { s with pmu := { s.pmu with armed := true } }
  else s

/-- DEEP_HOLD_ARM (R490). -/
def execDeepHoldArm (w : Dom) (v : W64) (s : State) : Host.Outcome State Fault Refusal :=
  .next (guardedWrite s w blkPMU 0x88 {} fun s => writeDeep s v)

/-- DEEP_HOLD_DISARM (R490). -/
def execDeepHoldDisarm (w : Dom) (v : W64) (s : State) : Host.Outcome State Fault Refusal :=
  .next (guardedWrite s w blkPMU 0x88 {} fun s => writeDeep s v)

/-- The state that a core without power keeps: fuses, tag memory and the VBAT domain (R493, R537). The queue, the model's own
counters and the field at the tag are not the core's. -/
def coreLost (s : State) : State :=
  { State.reset with
    pending := s.pending
    out := s.out
    frames := s.frames
    freeCtr := s.freeCtr
    powers := s.powers
    fus := s.fus
    tag := { s.tag with mirrored := 0, inSlots := [] }
    pmu := { tagwake := s.pmu.tagwake, seglatch := s.pmu.seglatch, lastsrc := s.pmu.lastsrc, dhcount := s.pmu.dhcount
             wakeA := s.pmu.wakeA, wakeB := s.pmu.wakeB } }

/-- VBAT is below its warn threshold: a dip of rail 8 whose warning lasts (R490, R501). -/
def vbatLow (s : State) : Bool := s.mon.supwarn && decide ((tgetD s.mon.volts 8 {}).mv.toNat < 2000) && (tget s.mon.volts 8).isSome

/-- The last three conditions of R490. -/
def deepClear (s : State) : Bool := !s.pmu.packetPrev && !(vbatLow s) && noCommit s

/-- The conditions of R490 at a frame boundary. -/
def deepReady (s : State) : Bool := atBoundary s && s.pmu.armed && s.conns.isEmpty && !(busyNow s) && deepClear s

/-- PMU.STAT.DHBLOCK. -/
def deepBlocked (s : State) : Bool := s.pmu.armed && s.conns.isEmpty && !(busyNow s) && !(deepClear s)

/-- Wake enables of A, B and C, as SEGx.CFG holds them (R492). -/
def wakeEnables (s : State) : BitVec 3 :=
  BitVec.ofNat 3 (b2n (bit (regGet s blkSEGA 0x80) 16) + 2 * b2n (bit (regGet s blkSEGB 0x80) 16) + 4 * b2n (bit (regGet s blkSEGC 0x80) 16))

/-- Deep Hold entry (R491). -/
def deepEnter (s : State) : State :=
  let we := wakeEnables s
  let s := occur s blkPMU 0x010 s.now.frame (put32 we.toNat 3 0)
  let s := if bit (regGet s blkTAG 0x80) 0 then flipAll (composeHealth (composeMirror s) 4) else s
  let s := (List.range 8).foldl stopChannel s
  let t := coreLost s
  { t with
    phase := .deepHold
    pmu := { t.pmu with
      seglatch := we, dhcount := s.pmu.dhcount + 1
      wakeA := BitVec.ofNat 4 (fld (regGet s blkSEGA 0x80) 15 12), wakeB := BitVec.ofNat 4 (fld (regGet s blkSEGB 0x80) 15 12) }
    pins := { t.pins with resetN := s.pins.resetN, pgood := s.pins.pgood, pwron := false } }

/-- DEEP_HOLD_ENTER (R490, R491). -/
def execDeepHoldEnter (s : State) : Host.Outcome State Fault Refusal := .next (if deepReady s then deepEnter s else s)

/-- DEEP_HOLD_WAKE (R496). -/
def execDeepHoldWake (src : BitVec 4) (s : State) : Host.Outcome State Fault Refusal := .next (wakeFrom s src)

/-- A threshold code of SEGx.CFG in millivolts (R67, R107). -/
def thrMv (code : Nat) : Nat := 100 + 50 * code

/-- Carrier on A or B: SIG above SIGTHR for 20 ns or longer (R67). -/
def seeCarrier (s : State) (g : Seg) (mv ns : Nat) : State :=
  let thr := thrMv (fld (regGet s (segBlk g) 0x80) 11 8)
  if g = .c ∨ ns < 20 then s else setSegAB s g { segAB s g with carrier := decide (thr < mv) }

/-- What wakes a sleeping receiver: SIG above the latched WAKETHR, or CKI toggling, for 1 µs (R107). -/
def wakeSeen (s : State) (g : Seg) (mv ns : Nat) : Bool :=
  decide (1000 ≤ ns) && decide ((match g with
    | .a => thrMv s.pmu.wakeA.toNat
    | .b => thrMv s.pmu.wakeB.toNat
    | .c => 0) < mv)

/-- SEG_WAKE (R67, R107): the signal of a segment, judged for wake in Deep Hold, where alone its receiver sleeps (R492), and for
carrier while its receiver is powered. -/
def execSegWake (x : SegSignal) (s : State) : Host.Outcome State Fault Refusal :=
  .next (
    if s.phase = .deepHold then (if wakeSeen s x.seg x.mv x.ns then wakeFrom s (1#4 <<< segNum x.seg) else s)
    else if coreOn s then seeCarrier s x.seg x.mv x.ns
    else s)

/-! ### Temperature (R498-R500) -/

/-- WARN, THROTTLE in units of 0.25 °C. -/
def warnAt (s : State) : Int := 4 * (fld (regGet s blkMON 0x80) 7 0 : Int)
def throttleAt (s : State) : Int := 4 * (fld (regGet s blkMON 0x80) 15 8 : Int)

/-- A condition changes on the second conversion in a row that asks for it: its new value, and whether this conversion
asked (R499). -/
def crossing (inForce seen want : Bool) : Bool × Bool :=
  if want = inForce then (inForce, false) else if seen then (want, false) else (inForce, true)

/-- The hottest sensor and its reading. -/
def hottest (ts : List W16) : Nat × W16 :=
  ts.zipIdx.foldl (fun (b : Nat × W16) (x : W16 × Nat) => if b.2.toInt < x.1.toInt then (x.2, x.1) else b) (0, ts.headD 0)

/-- Every channel's rate is ordered down to THRRATE, or back (R271, R500). -/
def orderRates (s : State) (on : Bool) : State :=
  let lim := fld (regGet s blkMON 0x80) 23 16
  { s with fchs := s.fchs.map fun e =>
      if e.2.up then
        let r := if on then min e.2.maxRate.toNat lim else e.2.maxRate.toNat
        (e.1, { e.2 with nextRate := if r = e.2.rate.toNat then none else some (BitVec.ofNat 8 r) })
      else e }

/-- A record of a temperature condition. -/
def tempRecord (s : State) (on : Bool) (c : BitVec 12) (h : Nat × W16) : State :=
  if on then occur s blkMON c (put32 h.1 4 0) (put32 h.2.toNat 16 0) else s

/-- The readings of one conversion: MON.TEMPi and MON.TEXT; the bands follow (R329, R498). -/
def takeReadings (s : State) (ts : List W16) : State :=
  let h := hottest ts
  let m := s.mon
  let s := { s with mon := { m with
    temps := ts, now := h.2, measured := true
    hi := if m.measured && decide (h.2.toInt ≤ m.hi.toInt) then m.hi else h.2
    lo := if m.measured && decide (m.lo.toInt ≤ h.2.toInt) then m.lo else h.2 } }
  (List.range 8).foldl updateBand s

/-- The conditions after a conversion (R499, R500). -/
def judgeTemps (s : State) : State :=
  let h := hottest s.mon.temps
  let t := h.2.toInt
  let m := s.mon
  let w := crossing m.warn m.prevWarn (decide ((if m.warn then warnAt s - 20 else warnAt s) ≤ t))
  let r := crossing m.throttle m.prevThr (decide ((if m.throttle then throttleAt s - 20 else throttleAt s) ≤ t))
  let f := crossing m.hot m.prevFail (decide (560 ≤ t))
  let s := { s with
    mon := { m with warn := w.1, throttle := r.1, hot := f.1, prevWarn := w.2, prevThr := r.2, prevFail := f.2 }
    pmu := { s.pmu with coolFrames := if throttleAt s - 20 ≤ t then 0 else s.pmu.coolFrames } }
  let s := tempRecord s (w.1 && !m.warn) 0xA01 h
  let s := tempRecord s (r.1 && !m.throttle) 0xA02 h
  let s := tempRecord s ((m.warn || m.throttle) && !w.1 && !r.1) 0xA03 h
  let s := if r.1 = m.throttle then s else orderRates s r.1
  let s := refreshAlerts (if r.1 then dropGuarantees s else s)
  if f.1 && !m.hot then
    let s := tempRecord s true 0xA04 h
    stopFlash (harmlessEnter s 2 h.1 (put32 h.2.toNat 16 0)) (List.range 8) false
  else s

/-- TEMPERATURE_CONVERSION (R498, R499): nine readings; a missing one reads as the last given. -/
def execTemperatureConversion (readings : List W16) (s : State) : Host.Outcome State Fault Refusal :=
  .next (
    if coreOn s then
      judgeTemps (takeReadings s ((List.range 9).map fun i => readings.getD i (readings.getLastD 0)))
    else s)

/-! ### Supplies (R501, R502) -/

/-- Warn and brown-out thresholds of a rail in millivolts; 0 where R501 gives none. -/
def railLimits (s : State) (r : Nat) : Nat × Nat :=
  match r with
  | 0 => (760, 740)
  | 1 => (if s.mon.vddio33 then 3000 else 1620, 0)
  | 6 => (1710, 1620)
  | 7 => (1710, 0)
  | 8 => (2000, 0)
  | _ =>
    if r ≤ 5 then
      let f := fchOf s (2 * (r - 2))
      if f.vccqBad then (0, 0) else if f.vccq18 then (1710, 1620) else (1140, 1100)
    else (0, 0)

/-- A dip that counts: SUPPLY_WARN, and BROWNOUT with the harmless state (R502, R504, R505). -/
def countDip (s : State) (r mv us : Nat) : State :=
  let lim := railLimits s r
  let v := tgetD s.mon.volts r {}
  let low : W16 := BitVec.ofNat 16 mv
  let v : Volt := { v with mv := low, lowest := if (tget s.mon.volts r).isSome && decide (v.lowest.toNat ≤ mv) && decide (v.lowest ≠ 0) then v.lowest else low }
  let s := { s with mon := { s.mon with volts := tset s.mon.volts r v } }
  if lim.1 ≤ mv then s
  else
    let p1 := put32 mv 16 0 ||| put32 (sat us 16) 16 16
    let brown := decide (mv < lim.2)
    let s := { s with
      mon := { s.mon with supwarn := true, dipAt := cycles s, brown := if brown then s.mon.brown ||| (1#9 <<< r) else s.mon.brown }
      pmu := { s.pmu with brownFrames := if lim.2 = 0 then s.pmu.brownFrames else 0 } }
    let s := if brown then occur s blkMON 0xA05 (put32 r 4 0) p1 else s
    let s := refreshAlerts (occur s blkMON 0xA06 (put32 r 4 0) p1)
    if brown then
      let core := decide (r = 0) || decide (r = 6)
      let s := harmlessEnter s 3 r (put32 mv 16 0)
      let s := if core then { s with pmu := { s.pmu with brownWait := true } } else s
      stopFlash s (if core then List.range 8 else [2 * (r - 2), 2 * (r - 2) + 1]) (!core)
    else s

/-- SUPPLY_DIP (R501): a dip below the warn threshold; a shorter one than 2 µs is counted and has no other effect. -/
def execSupplyDip (rail : BitVec 4) (mv : W16) (us : Nat) (s : State) : Host.Outcome State Fault Refusal :=
  .next (
    let r := rail.toNat
    if !(coreOn s) || decide (8 < r) || decide ((railLimits s r).1 ≤ mv.toNat) then s
    else if us < 2 then
      let v := tgetD s.mon.volts r {}
      { s with mon := { s.mon with volts := tset s.mon.volts r { v with glitch := v.glitch + 1 } } }
    else countDip s r mv.toNat us)

/-- `n` core cycles have passed since an instant, at the latest within the present frame. While frame time does not run the
command itself says so. -/
def elapsed (s : State) (since n : Nat) : Bool :=
  decide (s.phase ≠ .running) || s.clk.stopped || decide (since + n ≤ latest s)

/-- SUPPLY_WARN_END (R502): every rail has been back above its warn threshold for 1 ms. -/
def execSupplyWarnEnd (s : State) : Host.Outcome State Fault Refusal :=
  .next (if coreOn s && elapsed s s.mon.dipAt 400000 then refreshAlerts { s with mon := { s.mon with supwarn := false } } else s)

/-- BROWNOUT_RECOVERY (R506): the rail has been above its warn threshold for 100 µs; the completions that waited are written. -/
def execBrownoutRecovery (s : State) : Host.Outcome State Fault Refusal :=
  .next (
    if coreOn s && s.pmu.brownWait && elapsed s s.mon.dipAt 40000 then
      let s := { s with pmu := { s.pmu with brownWait := false } }
      if s.pmu.finish then s else completeAll s
    else s)

/-! ### The harmless state's end (R505, R509, R510) -/

/-- FINISH_WINDOW_END (R505, R506): 2 ms after the trigger, or when no operation is in progress any more. -/
def execFinishWindowEnd (s : State) : Host.Outcome State Fault Refusal :=
  .next (if live s && s.pmu.finish &&
      (elapsed s s.pmu.finishAt 800000 || (List.range 8).all fun c => decide (busyLuns s c = 0)) then closeFinish s else s)

/-- The frames that the harmless state, cooling and recovery have lasted; they count while the PLL is locked (R509, R510). -/
def harmlessFrame (s : State) : State :=
  if !s.pmu.harmless then s
  else
    let p := { s.pmu with frames := s.pmu.frames + 1 }
    let p := if s.clk.locked && p.causes.getLsbD 2 && decide ((hottest s.mon.temps).2.toInt < throttleAt s - 20) then
        { p with coolFrames := p.coolFrames + 1 } else p
    let p := if s.clk.locked && p.causes.getLsbD 3 && !p.brownWait then { p with brownFrames := p.brownFrames + 1 } else p
    let heat := p.causes.getLsbD 2 && decide (64 ≤ p.coolFrames)
    let rail := p.causes.getLsbD 3 && decide (64 ≤ p.brownFrames)
    let p := if heat then endCause p 2 else p
    { s with pmu := if rail then endCause p 3 else p
             mon := if rail then { s.mon with brown := 0 } else s.mon }

/-- R278 judged anew on a target that has been reset (R295). What the target answers is free. -/
def judgeReset (s : State) (c t : Nat) : State :=
  let item := Config.resetCheck s.freeCtr % 6
  let s := { s with freeCtr := s.freeCtr + 1 }
  if item = 0 then s else loseTarget s c t item

/-- Step 3 of R510 for one channel: FFh to every found target, the settings again under R295, WP_N high, UP. A channel left
with no found target stays harmless (R279). -/
def restartChannel (s : State) (c : Nat) : State :=
  let f := fchOf s c
  if f.ended && decide (f.found ≠ 0) && !f.vccqBad then
    let ts := (List.range 8).filter fun t => f.found.getLsbD t
    let s := ts.foldl (fun s t => emit s (.flashReset (BitVec.ofNat 3 c) t none)) (emit s (.flashPins (BitVec.ofNat 3 c) 0xFF .low))
    let s := ts.foldl (fun s t => writeFeatures s c t f.jesd) s
    let s := ts.foldl (fun s t => judgeReset s c t) s
    let f := fchOf s c
    if f.found = 0 then s
    else
      let s := setFch (emit s (.flashPins (BitVec.ofNat 3 c) 0xFF .high)) c
        { f with up := true, harmless := false, luns := f.luns.map fun e => (e.1, { e.2 with step := 0 }) }
      if s.mon.throttle then orderRates s true else s
  else s

/-- HARMLESS_EXIT (R510): no cause remains at a frame boundary. -/
def execHarmlessExit (s : State) : Host.Outcome State Fault Refusal :=
  .next (
    if atBoundary s && s.pmu.harmless && decide (s.pmu.causes = 0) then
      let s := if s.pmu.finish then closeFinish s else s
      let s := refreshAlerts { s with pmu := { s.pmu with harmless := false } }
      let s := occur s blkPMU 0x013 (put32 s.pmu.lastCause.toNat 4 0) (BitVec.ofNat 32 s.pmu.frames)
      let s := { s with segA := rerangeAll s.segA, segB := rerangeAll s.segB, pins := { s.pins with cko := true } }
      let s := sendBeacon (sendBeacon (sendBeacon s .a) .b) .c
      (List.range 8).foldl restartChannel s
    else s)

/-! ### Holdover's end (R59, R60, R23) -/

/-- The frame before f (R61). -/
def prevFrame (f : W32) : W32 := if f = 1 then 0xFFFFFFFF else f - 1

/-- HOLDOVER_EXPIRED (R59): 16 frames of holdover at a frame boundary with no switch; the drain begins, and every mover stops
(R424). CLK.STAT.HOLDOVER and HOLDCNT keep their values until the relock. DESIGN CHOICE: the manual does not say. -/
def execHoldoverExpired (s : State) : Host.Outcome State Fault Refusal :=
  .next (
    if atBoundary s && s.clk.holdover && !s.clk.drain && decide (16 ≤ s.clk.holdcnt) && !(switchDue s) then
      let entry := (s.clk.tk.map (·.entry.toNat)).getD 0
      let s := occur s blkCLK 0x006 (put32 entry 2 0) 0
      resumeAll (dropGuarantees (stopMovers { s with
        clk := { s.clk with drain := true, drainAt := cycles s, drainFrame := prevFrame s.now.frame } }))
    else s)

/-- Where counting stops: the last slot that has completed, at its last cycle (R60). -/
def stopTime (t : Time) : Time :=
  if t.slot = 0 then { frame := prevFrame t.frame, slot := 63, sub := 6249 }
  else { t with slot := t.slot - 1, sub := 6249 }

/-- Acquisition begins anew, with the source list unchanged (R47, R60). -/
def restartClock (c : Clk) : Clk :=
  { c with locked := false, stopped := true, window := false, chosen := none, tk := none, forceReq := none, missed := 0
           srcs := (c.srcs.filter fun e => decide (e.1 = 64) && c.cki).map fun e => (e.1, { e.2 with state := .heard, run := 0, comps := [] }) }

/-- DRAIN_TIMEOUT (R23): 2 ms into the drain; the frame that is cut short ends on the segments. -/
def execDrainTimeout (s : State) : Host.Outcome State Fault Refusal :=
  .next (
    if live s && s.clk.drain && !s.clk.stopped && decide (s.clk.drainAt + 800000 ≤ cycles s) then
      let s := endFrameAB (endFrameAB s .a) .b
      let s := completeAll ((List.range 8).foldl (fun s c => stopChannel (abortChannel s c stABORTED) c) (abortAll s))
      let s := harmlessEnter s 4 0 0
      { s with clk := restartClock s.clk, now := stopTime s.now }
    else s)

end Sys2Proof.Machine
end

