-- ==== Sys2Proof/Machine/Fetch.lean ====
section
/-! DEFINITION. Doorbells (R195-R198), the fetch of a work entry and its checks (R192-R194, R200-R203, R226-R229, R241, R242,
R245, R246), and what needs no flash: NOP, WAIT_COUNT, expiry, completion. -/

namespace Sys2Proof.Machine

/-! ### Which ring is served (R199, R201, R203, R216, R223) -/

/-- Nothing is fetched: not READY, draining, harmless, a flash reset or an image load in progress. -/
def fetchHeld (s : State) : Bool := !(serving s) || s.glb.flashrst || s.boot.busy

/-- The ring has a committed entry and may fetch it. -/
def fetchable (s : State) (n : Nat) : Bool :=
  match tget s.sqs n with
  | none => false
  | some q =>
    cfgEnable (sqCfg s n) && decide (q.head ≠ q.tail) && decide ((ringEntries s n).length < 64) && !(waitPending s n)

/-- The rings of a class that have an entry to fetch. -/
def fetchable? (s : State) (c : Nat) : List Nat :=
  (List.range 64).filter fun n => decide (cfgClass (sqCfg s n) = c) && fetchable s n

/-- The ring served next: URGENT, STREAM, BULK, and within a class in turn (R203). -/
def nextRing (s : State) : Option Nat :=
  [0, 1, 2].foldl (fun acc c =>
    match acc with
    | some n => some n
    | none =>
      let l := fetchable? s c
      match tget s.fetchLast c with
      | some k => match l.find? fun n => decide (k < n) with
        | some n => some n
        | none => l.head?
      | none => l.head?) none

/-! ### Format (R194 check 3) -/

/-- No bit outside the mask is set. -/
def within (w m : W64) : Bool := decide (w &&& ~~~ m = 0)

/-- Words from `i` on are zero. -/
def zeroFrom (ws : List W64) (i : Nat) : Bool := (ws.drop i).all fun w => decide (w = 0)

/-- OWN, BATCH_END, EVT, OPCODE and CID (R190). -/
def w0Common : W64 := 0xFFFFFF07

/-- R227 and R229 for one address. -/
def addressOk (s : State) (ws : List W64) (p : W64) : Bool :=
  let g := (fchOf s (pfaChannel p)).geo
  pfaInRange s p && decide (pfaSector p + weCount ws ≤ g.sectors) && (decide (wePlnmask ws = 0) || decide (pfaPlane p = 0)) &&
    decide (wePlnmask ws < 2 ^ g.planes)

/-- Multi-plane operation is allowed for the TYPE (R287); the ROM baseline is left to R246. -/
def multiOk (s : State) (ws : List W64) (p : W64) (kind : Nat) : Bool :=
  decide ((planesOf ws).length ≤ 1) || baseline s || tyFlag s (pfaChannel p) (weType ws) kind

/-- R310 and R312. -/
def keyOk (s : State) (d : Dom) (ws : List W64) : Bool :=
  if weClear ws then !((regGet s blkXTS 0x80).getLsbD d.toNat)
  else
    let k := keySlot s (weKeyslot ws)
    k.assigned && decide (k.d = d) && k.key.isSome

/-- The data area's word, with an offset that is a multiple of 64 (R228). -/
def areaWordOk (w : W64) : Bool := within w 0x007FFFFFFFFFFFFF && decide (fld w 54 32 % 64 = 0)

/-- The six flash opcodes (R226-R229). -/
def flashFormat (s : State) (d : Dom) (ws : List W64) : Bool :=
  let op := weOpcode ws
  let prog := decide (op = opPROGRAM) || decide (op = opMIRROR) || decide (op = opCOPY)
  let two := decide (op = opMIRROR) || decide (op = opCOPY)
  within (ew ws 0) (w0Common ||| 0xFFFF00000000 ||| (if prog then 0x8 else 0)) &&
  within (ew ws 3) (if op = opERASE then 0x3F00 else 0x3F3F1F) && zeroFrom ws 6 &&
  (if op = opERASE then
    decide (weCount ws = 0) && decide (ew ws 2 = 0) && decide (ew ws 4 = 0) && decide (pfaPage (ew ws 1) = 0) &&
      decide (pfaSector (ew ws 1) = 0)
   else decide (1 ≤ weCount ws) && decide (weCount ws ≤ 16)) &&
  (if op = opCHECK then decide (ew ws 2 = 0) && decide (ew ws 4 = 0)
   else areaWordOk (ew ws 2) && within (ew ws 4) 0x007FFFFFFFFFFFFF && decide (weMetaoff ws % 32 = 0)) &&
  decide (areaSectors ws ≤ 16) && addressOk s ws (ew ws 1) &&
  (if two then addressOk s ws (ew ws 5) else decide (ew ws 5 = 0)) &&
  (if op = opMIRROR then
    decide (pfaChannel (ew ws 1) ≠ pfaChannel (ew ws 5)) && decide (pfaSector (ew ws 1) = pfaSector (ew ws 5))
   else true) &&
  multiOk s ws (ew ws 1) (if op = opERASE then 2 else if op = opPROGRAM ∨ op = opMIRROR then 1 else 0) &&
  (!two || multiOk s ws (ew ws 5) 1) &&
  (decide (op = opERASE) || keyOk s d ws)

/-- The fields of word 3 of an admin opcode (R241). -/
def adminMask (op : Nat) : W64 :=
  if op = opPARAM then 0x1FFF
  else if op = opGETF then 0x1FF
  else if op = opSETF then 0xFFFFFFFF000001FF
  else if op = opTRESET then 0x1
  else 0x3F

/-- The admin opcodes (R232, R241, R242). -/
def adminFormat (s : State) (ws : List W64) : Bool :=
  let op := weOpcode ws
  let p := ew ws 1
  within (ew ws 0) w0Common && within (ew ws 3) (adminMask op) && zeroFrom ws 4 &&
  (if op = opPARAM then
    areaWordOk (ew ws 2) && decide (1 ≤ fld (ew ws 3) 12 0) && decide (fld (ew ws 3) 12 0 ≤ 4096)
   else decide (ew ws 2 = 0)) &&
  decide (fld p 63 42 = 0) && decide (fld p 33 0 = 0) && lunFound s (pfaLun p) &&
  (decide (op ≠ opSETF) || !((managedFeatures s (pfaChannel p)).contains (fld (ew ws 3) 7 0)))

/-- Check 3 of R194. -/
def formatOk (s : State) (d : Dom) (ws : List W64) : Bool :=
  let op := weOpcode ws
  if op = opNOP then within (ew ws 0) w0Common && zeroFrom ws 1
  else if op = opWAIT then
    within (ew ws 0) w0Common && within (ew ws 1) 0xFFFFFFFF0000003F && within (ew ws 2) 0xFFFF && zeroFrom ws 3
  else if isFlashOp ws then flashFormat s d ws
  else if isAdminOp ws then adminFormat s ws
  else if isAbacusOp ws then
    within (ew ws 0) w0Common && within (ew ws 1) 0xFFFF && areaWordOk (ew ws 2) && zeroFrom ws 3 &&
      decide (fld (ew ws 1) 7 0 + fld (ew ws 1) 15 8 ≤ 255)
  else false

/-! ### Rights (R194 checks 4 and 5) -/

/-- The buffer areas an entry names: key, offset, length, and whether READ and WRITE are needed (R230, R245). -/
def areasOf (ws : List W64) : List (W32 × Nat × Nat × Bool × Bool) :=
  let op := weOpcode ws
  let rd := [opPROGRAM, opMIRROR, opCOPY, opIMPORT].contains op
  let wr := [opREAD, opCOPY, opPARAM, opEXPORT].contains op
  (if hasData ws then [(weKey ws, weOffset ws, dataLen ws, rd, wr)] else []) ++
  (if hasMeta ws then [(weMetakey ws, weMetaoff ws, metaLen ws, rd, wr)] else [])

/-- The first violation of check 4. -/
def areaViolation (s : State) (d : Dom) : List (W32 × Nat × Nat × Bool × Bool) → Option Viol
  | [] => none
  | (k, o, n, rd, wr) :: t =>
    match checkWork s d k o n rd wr with
    | .error v => some v
    | .ok _ => areaViolation s d t

/-- The addresses an operation names, one per plane. -/
def planeAddrs (ws : List W64) (p : W64) : List W64 :=
  if wePlnmask ws = 0 then [p] else (planesOf ws).map fun i => pfaAt p i (pfaSector p)

/-- The first address of the list outside the domain's extents (R173). -/
def outside (s : State) (d : Dom) (l : List W64) (r : Right) : Option W64 := l.find? fun p => !(inExtents s d p r true true)

def extentViol (p : W64) : Viol := { kind := 7, p1 := BitVec.ofNat 32 (fld p 41 16) }

/-- LUN scope of an admin opcode (R232, R241). -/
def lunScope (ws : List W64) : Bool :=
  let op := weOpcode ws
  if op = opTRESET then bit (ew ws 3) 0
  else if op = opGETF ∨ op = opSETF then bit (ew ws 3) 8
  else decide (op = opSUSPOL)

/-- Check 5, a mirror's legs apart. -/
def flashViolation (s : State) (d : Dom) (ws : List W64) : Option Viol :=
  let op := weOpcode ws
  let src := planeAddrs ws (ew ws 1)
  if op = opREAD ∨ op = opCHECK then (outside s d src .read).map extentViol
  else if op = opPROGRAM then (outside s d src .program).map extentViol
  else if op = opERASE then (outside s d src .erase).map extentViol
  else if op = opCOPY then
    match outside s d src .read with
    | some p => some (extentViol p)
    | none => (outside s d (planeAddrs ws (ew ws 5)) .program).map extentViol
  else if isAdminOp ws then
    (if inExtents s d (ew ws 1) .admin (lunScope ws) false then none else some (extentViol (ew ws 1)))
  else none

/-! ### The entry that results -/

/-- The receipt of the doorbell that first covered a count (R197, R247). -/
def receiptOf (s : State) (q : Sq) (k : W16) : Nat :=
  match q.receipts.find? fun r => decide ((r.1 - k).toNat ≠ 0) && decide ((r.1 - k).toNat < 32768) with
  | some r => r.2
  | none => cycles s

/-- The entry joins a batch (R212): its ring with the batch, and the batch's number, 0 for a batch of one. -/
def joinBatch (q : Sq) (ws : List W64) (cid : W16) : Sq × Nat :=
  match q.batches.find? fun b => !b.closed with
  | some b =>
    (modBatch q b.id fun x => { x with members := x.members + 1, closed := weBatchEnd ws, cid := cid, evt := weEvt ws }, b.id)
  | none =>
    if weBatchEnd ws then (q, 0)
    else
      let id := q.nextBatch + 1
      ({ q with nextBatch := id, batches := q.batches ++ [{ id := id, members := 1, cid := cid, evt := weEvt ws }] }, id)

/-- The program, erase and admin legs of an entry; `skip0` and `skip1` for mirror legs outside the extents. -/
def legsOf (ws : List W64) (skip0 skip1 : Bool) : List Leg :=
  let op := weOpcode ws
  if op = opMIRROR then
    [{ lun := pfaLun (ew ws 1), skipped := skip0 }, { lun := pfaLun (ew ws 5), skipped := skip1 }]
  else if op = opCOPY then [{ lun := pfaLun (ew ws 5) }]
  else if op = opPROGRAM ∨ op = opERASE ∨ isAdminOp ws = true then [{ lun := pfaLun (ew ws 1) }]
  else []

/-- The ROM baseline cannot run the entry (R246). -/
def baselineLimited (s : State) (ws : List W64) : Bool :=
  baseline s && ((isFlashOp ws && (decide (weType ws ≠ 0) || decide (1 < (planesOf ws).length))) || decide (weOpcode ws = opSUSPOL))

/-- BAD_DESCRIPTOR with its RESULT bits, recorded as ENTRY_REJECTED (R194, R205). -/
def rejectEntry (s : State) (e : Entry) (bits : Nat) : State :=
  occurRing (endEntry s e.ref stBAD_DESCRIPTOR (BitVec.ofNat 32 bits)) blkWQS e.d 0x304
    (put32 e.ref.sq.toNat 6 0 ||| put32 e.d.toNat 4 8 ||| put32 bits 3 16) (put32 e.cid.toNat 16 0)

/-- Checks 4 and 5 and what follows them (R194, R177, R246, R309). -/
def admitEntry (s : State) (e : Entry) : State :=
  let ws := e.words
  let og : Origin := { ring := e.ref.sq }
  match areaViolation s e.d (areasOf ws) with
  | some v => endEntry (violate s e.d v og) e.ref stOK 0
  | none =>
    match flashViolation s e.d ws with
    | some v => endEntry (violate s e.d v og) e.ref stOK 0
    | none =>
      let o0 := if weOpcode ws = opMIRROR then outside s e.d (planeAddrs ws (ew ws 1)) .program else none
      let o1 := if weOpcode ws = opMIRROR then outside s e.d (planeAddrs ws (ew ws 5)) .program else none
      let s := match o0, o1 with
        | some p, _ => violate s e.d (extentViol p) og
        | none, some p => violate s e.d (extentViol p) og
        | none, none => s
      if baselineLimited s ws && !(o0.isSome && o1.isSome) then endEntry s e.ref stBASELINE 0
      else
        let slot := keySlot s (weKeyslot ws)
        let keyed := isFlashOp ws && decide (weOpcode ws ≠ opERASE) && !(weClear ws)
        let e := { e with
          legs := legsOf ws o0.isSome o1.isSome
          key := if keyed then slot.key.getD [] else []
          keyGen := slot.gen
          extents := if isAbacusOp ws then domExtents s e.d else [] }
        conclude (setEntry s { e with guaranteed := e.guaranteed && keptThroughout s e }) e.ref

/-- The fetch of the entry of count HEAD of a ring (R192, R194, R201). -/
def fetchEntry (s : State) (n : Nat) (q : Sq) : State :=
  let k := q.head
  let off := 64 * (k.toNat % ringSize (sqCfg s n))
  let addr := slotAddr s (sqBase s n) off
  let gone := match addr with
    | some a => retiredIn s a 64
    | none => none
  let bytes := match addr with
    | some a => if gone.isSome then List.replicate 64 0 else memRead s a 64
    | none => List.replicate 64 0
  let bad := match addr with
    | some a => if gone.isSome then [] else failing s a 64
    | none => []
  let a := addr.getD 0
  let s := match gone with
    | some x => violate s q.owner { kind := 5, p1 := BitVec.ofNat 32 x } { ring := BitVec.ofNat 6 n }
    | none => s
  let s := noteFailing s 2 bad
  let s := if addr.isSome && gone.isNone then memSet s a (byteAt bytes 0 &&& 0xFE) else s
  let ws := wordsOf 8 bytes
  let cid := if bad.any (fun x => decide (x = a + 2) || decide (x = a + 3)) && weOwn ws then 0xFFFF else weCid ws
  let receipt := receiptOf s q k
  let (q2, b) := joinBatch q ws cid
  let e : Entry :=
    { ref := ⟨BitVec.ofNat 6 n, k⟩, d := q.owner, cls := cfgClass (sqCfg s n), words := ws, receipt := receipt
      fetchedAt := s.frames, cid := cid, batch := b, guaranteed := q.sureCounts.contains k
      expiresAt := if isFlashOp ws && decide (weExpiry ws ≠ 0) then some (receipt / 400000 + weExpiry ws) else none }
  let head := k + 1
  let s := { s with
    sqs := tset s.sqs n { q2 with head := head
                                  sureCounts := q2.sureCounts.filter fun i => decide (i ≠ k)
                                  receipts := q2.receipts.filter fun r => decide ((r.1 - head).toNat ≠ 0) && decide ((r.1 - head).toNat < 32768) }
    fetchLast := tset s.fetchLast (cfgClass (sqCfg s n)) n
    entries := s.entries ++ [e] }
  if !(weOwn ws) then rejectEntry s e 1
  else if !bad.isEmpty then rejectEntry s e 2
  else if !(formatOk s q.owner ws) then rejectEntry s e 4
  else admitEntry s e

/-- ENTRY_FETCH (R194, R200, R203). -/
def execEntryFetch (n : BitVec 6) (s : State) : Host.Outcome State Fault Refusal :=
  .next (match tget s.sqs n.toNat with
    | none => s
    | some q => if !(fetchHeld s) && decide (nextRing s = some n.toNat) then fetchEntry s n.toNat q else s)

/-! ### Doorbells (R195-R198) -/

/-- The entries a doorbell commits: those for which the conditions of R263 hold at its receipt. -/
def noteSure (s : State) (n : Nat) (from_ : W16) (k : Nat) : State :=
  match tget s.sqs n with
  | none => s
  | some q =>
    let counts := (List.range k).map fun i => from_ + BitVec.ofNat 16 i
    { s with sqs := tset s.sqs n { q with
        sureCounts := q.sureCounts ++ counts.filter fun i => sureAtDoorbell s (slotEntry s n q i) } }

/-- A doorbell's effect on its ring (R196); its receipt is now (R197). -/
def ringDoorbell (s : State) (n : Nat) (t : W16) : State :=
  match tget s.sqs n with
  | none => s
  | some q =>
    let b := (t - q.tail).toNat
    let c := (q.tail - q.head).toNat
    if b = 0 ∨ 32768 ≤ b then s
    else if c + b ≤ ringSize (sqCfg s n) then
      noteSure { s with sqs := tset s.sqs n { q with tail := t, receipts := q.receipts ++ [(t, cycles s)] } } n q.tail b
    else
      occurRing { s with sqs := tset s.sqs n { q with dbovr := q.dbovr + 1 } } blkWQS q.owner 0x301
        (put32 n 6 0 ||| put32 q.owner.toNat 4 8) (put32 t.toNat 16 0)

/-- Every doorbell is checked as a write of WQS.DBn by the doorbelling domain (R197). -/
def checkedDoorbell (s : State) (d : Dom) (n : Nat) (t : W16) (og : Origin) : State :=
  guardedWrite s d blkWQS (0x800 + 8 * n) og fun s => ringDoorbell s n t

/-- DOORBELL_REGISTER (R197). -/
def execDoorbellRegister (w : Dom) (n : BitVec 6) (v : W64) (s : State) : Host.Outcome State Fault Refusal :=
  .next (checkedDoorbell s w n.toNat (v.setWidth 16) {})

/-! ### NOP, WAIT_COUNT and expiry (R191, R216-R218, R247) -/

/-- An entry in flight, fetched and of the opcode, whose meaning has not begun. -/
def freshEntry (s : State) (r : EntryRef) (op : Nat) : Option Entry :=
  match entryOf? s r with
  | none => none
  | some e => if e.phase = .fetched ∧ weOpcode e.words = op then some e else none

/-- NOP (R191). -/
def execNop (r : EntryRef) (s : State) : Host.Outcome State Fault Refusal :=
  .next (withSlot s r (match freshEntry s r opNOP with
    | none => s
    | some _ => endEntry s r stOK 0))

/-- WAIT_COUNT (R216, R218). -/
def execWaitCount (r : EntryRef) (s : State) : Host.Outcome State Fault Refusal :=
  .next (withSlot s r (match freshEntry s r opWAIT with
    | none => s
    | some e =>
      let n := fld (ew e.words 1) 5 0
      let value : W32 := BitVec.ofNat 32 (fld (ew e.words 1) 63 32)
      let own := r.sq.toNat
      match tget s.sqs n with
      | none => endEntry (violate s e.d { kind := 2, p1 := BitVec.ofNat 32 (regAddr blkWQS (0xA00 + 8 * n)) } { ring := r.sq }) r stOK 0
      | some q =>
        if q.owner ≠ e.d then
          endEntry (violate s e.d { kind := 2, p1 := BitVec.ofNat 32 (regAddr blkWQS (0xA00 + 8 * n)) } { ring := r.sq }) r stOK 0
        else if waitMet q.done value then endEntry s r stOK q.done
        else
          let s := setEntry s { e with phase := .running }
          { s with sqs := tmod s.sqs own fun x => { x with wait := some { count := r.count, ring := BitVec.ofNat 6 n, value := value } } }))

/-- WAIT_TIMEOUT (R216): the TIMEOUT-th frame boundary after the fetch. -/
def execWaitTimeout (r : EntryRef) (s : State) : Host.Outcome State Fault Refusal :=
  .next (withSlot s r (match entryOf? s r, tget s.sqs r.sq.toNat with
    | some e, some q =>
      let t := fld (ew e.words 2) 15 0
      match q.wait with
      | some x =>
        if x.count = r.count ∧ e.phase = .running ∧ t ≠ 0 ∧ e.fetchedAt + t ≤ s.frames then
          endWait (occurRing s blkWQS q.owner 0x303 (put32 r.sq.toNat 6 0 ||| put32 q.owner.toNat 4 8) (put32 e.cid.toNat 16 0))
            r.sq.toNat ((tget s.sqs r.sq.toNat).getD q) x stTIMEOUT
        else s
      | none => s
    | _, _ => s))

/-- None of the entry's flash operations has started. -/
def notStarted (e : Entry) : Bool := !e.begun

/-- ENTRY_EXPIRY (R247). -/
def execEntryExpiry (r : EntryRef) (s : State) : Host.Outcome State Fault Refusal :=
  .next (withSlot s r (match entryOf? s r with
    | none => s
    | some e =>
      match e.expiresAt with
      | none => s
      | some t =>
        if t ≤ s.frames ∧ notStarted e = true ∧ (e.phase = .fetched ∨ e.phase = .running) then endEntry s r stSTALE 0 else s))

/-- COMPLETION (R207): the entry's last operation has ended; its slot is read (R202). -/
def execCompletion (r : EntryRef) (s : State) : Host.Outcome State Fault Refusal :=
  .next (withSlot s r (match entryOf? s r with
    | none => s
    | some e => if e.phase = .ended ∧ complBlocked s = false then completeEntry s e else s))

end Sys2Proof.Machine
end

