-- ==== Sys2Proof/Machine/Flash.lean ====
section
/-! DEFINITION. What the flash entries do (R230-R245, R301-R305, R321-R338): senses, programs, erases, the escalation of a
read, verify, admin operations, abacus transfers; timeouts, failed suspends, polls and ready/busy. -/

namespace Sys2Proof.Machine

/-! ### Areas -/

/-- The buffer address of an area: its region stays in place while the entry is in flight, DYING or not (R169). -/
def areaBase (s : State) (k : W32) (off : Nat) : Option Nat :=
  (tget s.regions (k.toNat / 2 ^ 24)).map fun r => (regionSpan s r).1 + off

def dataAt (s : State) (e : Entry) (i : Nat) : Option Nat := areaBase s (weKey e.words) (weOffset e.words + 4096 * i)
def metaAt (s : State) (e : Entry) (i : Nat) : Option Nat :=
  if weMetakey e.words = 0 then none else areaBase s (weMetakey e.words) (weMetaoff e.words + 32 * i)

/-- The place of a plane's sector in area order (R230). -/
def areaIndex (e : Entry) (plane sector : Nat) : Nat := (areaOrder e.words).findIdx fun x => x == (plane, sector)

/-- Bytes written to an area. -/
def writeArea (s : State) (a : Option Nat) (d : List Byte) : State :=
  match a with
  | some a => memWrite s a d
  | none => s

/-! ### Starting a sense (R321, R323, R330) -/

/-- The planes of a read as it begins (R329, R330, R332). -/
def beginRead (s : State) (e : Entry) : State × Entry :=
  let p := ew e.words 1
  let x := (planesOf e.words).foldl (fun (acc : State × List PlaneRd) pl =>
    let y := startStep acc.1 (pfaLun p) (pfaBlock p) true
    (y.1, acc.2 ++ [{ plane := pl, todo := [y.2.1], sectors := sectorList e (pfaSector p), band := y.2.2.1
                      bead := y.2.2.2.1, fromBead := y.2.2.2.2 }])) (s, [])
  (x.1, { e with planes := x.2
                 beadUsed := x.2.any (·.fromBead)
                 learning := abacusOn s && x.2.any fun p => !(beadValid p.bead) || decide (beadConf p.bead < 2) })

/-- The LUN is brought to a step before a sense (R321); the ROM baseline writes no retry feature (R326). -/
def setStep (s : State) (l t k : Nat) : State :=
  if baseline s ∨ (lunOf s l).step = k then s
  else
    match retryFeature s (l / 32) with
    | none => s
    | some fa =>
      setLun (emit s (.flashFeature (BitVec.ofNat 8 l) false (BitVec.ofNat 8 fa) (stepBytes s (l / 32) t k))) l
        { lunOf s l with step := k, stepType := t }

/-- A plane after the start of its next sense. -/
def sensed (p : PlaneRd) (k : Nat) : PlaneRd :=
  { p with sensing := true, todo := p.todo.tail, tried := if p.soft then p.tried else p.tried ++ [k] }

/-- The sense is the whole of a page: the first of a read of one plane (R290). DESIGN CHOICE: a read of more planes, a retry
and a verify run outside cache sequences. -/
def wholePage (e : Entry) (verify : Bool) : Bool :=
  !verify && decide (e.senses = 0) && decide (e.planes.length = 1)

/-- The next sense of an entry's planes, or of a leg's verify, starts on its LUN. -/
def startSense (s : State) (e : Entry) (leg : Nat) (verify : Bool) (pfa : W64) (planes : List PlaneRd) : State :=
  match planes.find? planeDue with
  | none => s
  | some p =>
    let l := pfaLun pfa
    let t := weType e.words
    let k := p.todo.headD 0
    let page := wholePage e verify
    let s := setStep (closeSeq s e l page) l t k
    let s := emit s (.flashSense (BitVec.ofNat 8 l) (BitVec.ofNat 2 p.plane) (pfaBlock pfa) (pfaPage pfa) t k (page && cacheMore s e l))
    let o : OpRef := { ref := e.ref, leg := leg, plane := p.plane, type := t, verify := verify }
    let e := modPlanes e o fun x => sensed x k
    let e := { e with phase := .running, begun := true, senses := if verify then e.senses else e.senses + 1 }
    startArray (setEntry s e) e l .read o (p.sectors.filter fun x => decide (x.state = SecState.pending)).length page

/-- A read's next sense. -/
def startRead (s : State) (e : Entry) : State :=
  let x := if e.planes.isEmpty then beginRead s e else (s, e)
  startSense (setEntry x.1 x.2) x.2 0 false (ew e.words 1) x.2.planes

/-! ### Starting a program or an erase (R235-R240) -/

/-- The host part of a sector's metadata: its area's bytes, or open where the entry names none. -/
def hostMeta (s : State) (e : Entry) (pfa : W64) (i : Nat) : List Byte :=
  match metaAt s e i with
  | some a => memRead s a 32
  | none => (List.range 32).map fun j => Config.absentMeta pfa j

/-- The failing bytes of a leg's areas. -/
def areaFailing (s : State) (e : Entry) : List Nat :=
  (List.range (areaSectors e.words)).flatMap fun i =>
    (match dataAt s e i with
     | some a => failing s a 4096
     | none => []) ++
    (match metaAt s e i with
     | some a => failing s a 32
     | none => [])

/-- The sectors of a leg, each encoded with its own address (R235, R237, R239, R301). -/
def sendSectors (s : State) (e : Entry) (i : Nat) : State :=
  let base := legPfa e i
  let l := pfaLun base
  let rate := rateIndex s (l / 32) (weType e.words)
  let planes := legPlanes e i
  (List.range (areaSectors e.words)).foldl (fun s j =>
    let pl := planes.getD (j / weCount e.words) 0
    let sec := pfaSector base + j % weCount e.words
    let pfa := pfaAt base pl sec
    let data := match dataAt s e j with
      | some a => memRead s a 4096
      | none => []
    emit s (.flashProgram (BitVec.ofNat 8 l) (BitVec.ofNat 2 pl) (pfaBlock pfa) (pfaPage pfa)
      (columnOf s (l / 32) (weType e.words) sec) (weType e.words)
      (encodeSector pfa e.words e.key rate e.d s.now.frame data (hostMeta s e pfa j)))) s

/-- A program of a leg: no confirm when a word of its areas fails parity (R236). -/
def startProgram (s : State) (e : Entry) (i : Nat) : State :=
  let l := pfaLun (legPfa e i)
  let bad := areaFailing s e
  let e := { modLeg e i fun g => { g with started := true } with phase := .running, begun := true }
  if !bad.isEmpty then
    let s := noteFailing s 4 bad
    conclude (setEntry s (modLeg e i fun g => { g with status := some stDATA_PARITY })) e.ref
  else
    let s := closeSeq s e l true
    let s := emit (sendSectors s e i) (.flashConfirm (BitVec.ofNat 8 l) (cacheMore s e l))
    startArray (setEntry s e) e l .program { ref := e.ref, leg := i, type := weType e.words } (areaSectors e.words) true

/-- An erase: the block in every plane operated on (R240). -/
def startErase (s : State) (e : Entry) : State :=
  let p := ew e.words 1
  let l := pfaLun p
  let s := closeSeq s e l false
  let s := (planesOf e.words).foldl (fun s pl =>
    emit s (.flashErase (BitVec.ofNat 8 l) (BitVec.ofNat 2 pl) (pfaBlock p) (weType e.words))) s
  let e := { modLeg e 0 fun g => { g with started := true } with phase := .running, begun := true }
  startArray (setEntry s e) e l .erase { ref := e.ref, type := weType e.words } 0 false

/-- The next operation of a program leg: the program, whose sectors wait for URGENT transfers (R253), then its verify senses
(R338). -/
def startLeg (s : State) (e : Entry) (i : Nat) : State :=
  match e.legs[i]? with
  | none => s
  | some g =>
    if g.started then startSense s e i true (legPfa e i) g.verify
    else if busAllows s e (g.lun / 32) then startProgram s e i else s

/-- An operation of the entry starts on the LUN when the order of chapter 07 lets it; otherwise an urgent one has the
operation in progress suspended where R258 allows. -/
def tryStart (s : State) (e : Entry) (l : Nat) (go : State → State) : State :=
  if mayStart s e l then go s else trySuspend s e l

/-- An entry in flight that has an opcode and has not ended. -/
def activeEntry (s : State) (r : EntryRef) (op : Nat) : Option Entry :=
  match entryOf? s r with
  | none => none
  | some e => if weOpcode e.words = op ∧ (e.phase = .fetched ∨ e.phase = .running) then some e else none

/-- The work of a flash row on its entry. -/
def flashRow (s : State) (r : EntryRef) (op l : Nat) (go : State → Entry → State) : State :=
  withSlot s r (match activeEntry s r op with
  | none => s
  | some e => tryStart s e l fun s => go s e)

/-- The LUN of word 1 of an entry in flight. -/
def entryLun (s : State) (r : EntryRef) (word : Nat) : Nat :=
  match entryOf? s r with
  | none => 0
  | some e => pfaLun (ew e.words word)

/-- READ (R233): its next sense starts. -/
def execRead (r : EntryRef) (s : State) : Host.Outcome State Fault Refusal :=
  .next (flashRow s r opREAD (entryLun s r 1) startRead)

/-- CHECK_READ (R234). -/
def execCheckRead (r : EntryRef) (s : State) : Host.Outcome State Fault Refusal :=
  .next (flashRow s r opCHECK (entryLun s r 1) startRead)

/-- PROGRAM (R235). -/
def execProgram (r : EntryRef) (s : State) : Host.Outcome State Fault Refusal :=
  .next (flashRow s r opPROGRAM (entryLun s r 1) fun s e => startLeg s e 0)

/-- MIRROR_PROGRAM (R237): the next operation of one leg. -/
def execMirrorProgram (r : EntryRef) (leg : Bool) (s : State) : Host.Outcome State Fault Refusal :=
  .next (flashRow s r opMIRROR (entryLun s r (if leg then 5 else 1)) fun s e => startLeg s e (b2n leg))

/-- COPY (R239): a sense of the source, or the program of the destination once every sector has decoded. -/
def execCopy (r : EntryRef) (s : State) : Host.Outcome State Fault Refusal :=
  .next (withSlot s r (match activeEntry s r opCOPY with
    | none => s
    | some e =>
      if readDecided e then tryStart s e (pfaLun (ew e.words 5)) fun s => startLeg s e 0
      else tryStart s e (pfaLun (ew e.words 1)) fun s => startRead s e))

/-- ERASE (R240). -/
def execErase (r : EntryRef) (s : State) : Host.Outcome State Fault Refusal :=
  .next (flashRow s r opERASE (entryLun s r 1) startErase)

/-! ### Decodes (R304, R305, R319, R323, R327, R331, R338) -/

/-- Replace a sector of a plane. -/
def modSector (p : PlaneRd) (n : Nat) (f : SecRd → SecRd) : PlaneRd :=
  { p with sectors := p.sectors.map fun x => if x.sector = n then f x else x }

/-- Unsatisfied checks of the failed sectors at a step. -/
def unsatAt (p : PlaneRd) (k : Nat) : Nat :=
  (allSectors p .pending).foldl (fun n x => x.unsats.foldl (fun m u => if u.1 = k then m + u.2 else m) n) 0

/-- The centre step: fewest unsatisfied checks, the earlier step on a tie (R323). -/
def centreOf (p : PlaneRd) : Nat :=
  match p.tried with
  | [] => 0
  | k :: t => t.foldl (fun b j => if unsatAt p j < unsatAt p b then j else b) k

/-- The next step of the retry order, while hard senses are left (R323). -/
def nextHard (s : State) (c t : Nat) (p : PlaneRd) : Option Nat :=
  let lim := max 1 (fld (regGet s blkECC 0x80) 4 0)
  if lim ≤ p.tried.length then none else (retryOrder s c t).find? fun k => !(p.tried.contains k)

/-- R324. -/
def softAllowed (s : State) (c t : Nat) : Bool := bit (regGet s blkECC 0x80) 5 && softGiven s c t && !(baseline s)

/-- The senses of soft decoding: the centre and two or three steps around it. -/
def softSteps (s : State) (c t centre : Nat) : List Nat :=
  centre :: (List.range (if bit (regGet s blkECC 0x80) 6 then 3 else 2)).map fun i => softStep s c t centre i

/-- What follows when every failed sector of a plane has been decoded after its sense: a further hard sense, the soft
senses, or the plane is decided. -/
def nextSense (s : State) (c t : Nat) (p : PlaneRd) : PlaneRd :=
  if (allSectors p .pending).isEmpty then { p with ready := false, decided := true }
  else if !((allSectors p .pending).all (roundDone p)) then p
  else if p.soft then { p with ready := false, decided := true }
  else match nextHard s c t p with
    | some k => { p with ready := false, todo := [k] }
    | none =>
      if softAllowed s c t then
        { p with ready := false, soft := true, centre := centreOf p, todo := softSteps s c t (centreOf p) }
      else { p with ready := false, decided := true }

/-- The sectors of a decided plane that never decoded are uncorrectable (R323, R327, R233). -/
def giveUp (s : State) (e : Entry) (p : PlaneRd) : State × Entry × PlaneRd :=
  let pfa := ew e.words 1
  let lost := allSectors p .pending
  let s := lost.foldl (fun s x => recordSector s 0x501 (pfaLun pfa) e.d e.ref.sq x.sector p.tried.length (pfaBlock pfa) (pfaPage pfa) p.plane 0) s
  let mask := lost.foldl (fun (m : W16) x => m ||| (1#16 <<< areaIndex e p.plane x.sector)) e.failmask
  (s, { e with failmask := mask },
    { p with sectors := p.sectors.map fun x => if x.state = SecState.pending then { x with state := .failed } else x })

/-- The decided plane teaches the abacus: not when a sector stayed undecoded, nor when every sector is erased (R331). -/
def planeTeaches (lost : Bool) (p : PlaneRd) : Bool := !lost && !(p.sectors.all (·.erased))

/-- Update the bead of a plane's own band (R331, R333). -/
def teachBead (s : State) (e : Entry) (p : PlaneRd) : State :=
  if !(abacusOn s) then s
  else
    let pfa := ew e.words 1
    let a := beadAddr (pfaLun pfa) (groupOfBlock s (pfaLun pfa) (pfaBlock pfa)) p.band
    let own := if s.badBeads.contains a then 0 else beadAt s a
    setBead s a (beadAfter own (if p.soft then p.centre else p.lastStep) p.soft)

/-- A plane has been decided: FIRSTHIT, uncorrectable sectors, the abacus. -/
def planeDecided (s : State) (e : Entry) (p : PlaneRd) : State × Entry :=
  let lost := !(allSectors p .pending).isEmpty
  let s := if p.fromBead && !lost && decide (p.tried.length = 1) && !p.soft then { s with abaHit := s.abaHit + 1 } else s
  let (s, e, p) := giveUp s e p
  let s := if planeTeaches lost p then teachBead s e p else s
  (s, { e with planes := e.planes.map fun x => if x.plane = p.plane then p else x })

/-- A decoded sector of a read passes or fails the checks of R304; what passes is written to its places (R233, R239). -/
def takeSector (s : State) (e : Entry) (plane sector : Nat) (r : DecodeResult) : State × Entry × SecState :=
  let pfa := pfaAt (ew e.words 1) plane sector
  let i := areaIndex e plane sector
  let (data, md) := derandomise pfa r
  match sectorCheck pfa e.words data md with
  | 0 =>
    let plain := xtsOut false e.words e.key pfa data
    let s := if weOpcode e.words = opCHECK then s
      else writeArea (writeArea s (dataAt s e i) plain) (metaAt s e i) (md.take 32)
    (s, { e with corrected := max e.corrected r.corrected }, .good)
  | c =>
    let hard := match e.planes.find? fun p => decide (p.plane = plane) with
      | some p => p.tried.length
      | none => 0
    (recordSector s 0x502 (pfaLun pfa) e.d e.ref.sq sector hard (pfaBlock pfa) (pfaPage pfa) plane c,
     { e with failmask := e.failmask ||| (1#16 <<< i), corrected := max e.corrected r.corrected }, .failed)

/-- An erased sector (R305). -/
def takeErased (s : State) (e : Entry) (plane sector : Nat) : State :=
  let i := areaIndex e plane sector
  if weOpcode e.words = opCHECK then s
  else writeArea (writeArea s (dataAt s e i) (List.replicate 4096 0xFF)) (metaAt s e i) (List.replicate 32 0xFF)

/-- ECC.CNT counts a decode. -/
def countDecode (s : State) (soft ok : Bool) : State :=
  if soft then { s with eccSoft := s.eccSoft + 1, eccSfail := if ok then s.eccSfail else s.eccSfail + 1 }
  else { s with eccHard := s.eccHard + 1, eccHfail := if ok then s.eccHfail else s.eccHfail + 1 }

/-- One sector of a read has been decoded, or found erased. -/
def decodedPlane (s : State) (e : Entry) (p : PlaneRd) (n : Nat) (r : DecodeResult) : State × Entry × PlaneRd :=
  let c := pfaChannel (ew e.words 1)
  if r.zeros ≤ erasedLimit s c then
    (takeErased s e p.plane n, e, modSector p n fun x => { x with state := .good, erased := true })
  else
    let s := countDecode s p.soft r.ok
    let e := { e with softUsed := e.softUsed || p.soft }
    if r.ok then
      let (s, e, st) := takeSector s e p.plane n r
      (s, e, { modSector p n fun x => { x with state := st } with
        lastStep := curStep p, retried := p.retried || decide (1 < p.tried.length) })
    else if p.soft then (s, e, modSector p n fun x => { x with softDone := true })
    else (s, e, modSector p n fun x => { x with unsats := x.unsats ++ [(curStep p, r.unsat)] })

/-- A decode of a read ends (R323). -/
def readDecoded (s : State) (e : Entry) (plane n : Nat) (soft : Bool) (r : DecodeResult) : State :=
  match e.planes.find? fun p => decide (p.plane = plane) with
  | none => s
  | some p =>
    match p.sectors.find? fun x => decide (x.sector = n) with
    | none => s
    | some x =>
      if !(p.ready && decide (x.state = SecState.pending) && !(roundDone p x) && decide (p.soft = soft)) then s
      else
        let (s, e, p) := decodedPlane s e p n r
        let p := nextSense s (pfaChannel (ew e.words 1)) (weType e.words) p
        let e := { e with planes := e.planes.map fun y => if y.plane = plane then p else y }
        let (s, e) := if p.decided then planeDecided s e p else (s, e)
        conclude (setEntry s e) e.ref

/-- A decode of a verify read ends (R338): one sense, no retry, nothing written. -/
def verifyDecoded (s : State) (e : Entry) (i plane n : Nat) (r : DecodeResult) : State :=
  match e.legs[i]? with
  | none => s
  | some g =>
    match g.verify.find? fun p => decide (p.plane = plane) with
    | none => s
    | some p =>
      match p.sectors.find? fun x => decide (x.sector = n) with
      | none => s
      | some x =>
        if !(p.ready && decide (x.state = SecState.pending)) then s
        else
          let pfa := pfaAt (legPfa e i) plane n
          let c := pfaChannel pfa
          let erased := decide (r.zeros ≤ erasedLimit s c)
          let s := if erased then s else countDecode s false r.ok
          let (data, md) := derandomise pfa r
          let pass := !erased && r.ok && decide (sectorCheck pfa e.words data md = 0) && decide (r.corrected ≤ verifyLimit s c)
          let s := if pass then s
            else recordSector s 0x503 (pfaLun pfa) e.d e.ref.sq n p.tried.length (pfaBlock pfa) (pfaPage pfa) plane 0
          let p := modSector p n fun x => { x with state := if pass then .good else .failed }
          let p := if (allSectors p .pending).isEmpty then { p with ready := false, decided := true } else p
          let e := modLeg e i fun g => { g with
            vfail := g.vfail || !pass, verify := g.verify.map fun y => if y.plane = plane then p else y }
          let e := if weOpcode e.words = opPROGRAM ∧ erased = false ∧ r.ok = true
            then { e with corrected := max e.corrected r.corrected } else e
          conclude (setEntry s e) e.ref

/-- The decode is of the entry's own read, and not of a leg's verify. -/
def ownRead (e : Entry) : Bool :=
  decide (weOpcode e.words = opREAD) || decide (weOpcode e.words = opCHECK) || (decide (weOpcode e.words = opCOPY) && !(readDecided e))

/-- The channel the decoded sector came over. -/
def decodeChannel (e : Entry) (leg : Bool) : Nat := if ownRead e then pfaChannel (ew e.words 1) else pfaChannel (legPfa e (b2n leg))

/-- The sector's turn on the bus has come: it is the one that was on it, or no URGENT transfer goes before it (R253). -/
def sectorTurn (s : State) (e : Entry) (leg : Bool) (plane sector : Nat) : Bool :=
  busAllows s e (decodeChannel e leg) ||
    match xferOn s (decodeChannel e leg) with
    | none => false
    | some x => decide (x.ref = e.ref) && decide (x.plane = plane) && decide (x.sector = sector) && x.verify == !(ownRead e)

/-- A sector other than the one on the bus goes over it first. -/
def bringSector (s : State) (e : Entry) (leg : Bool) (plane sector : Nat) : State :=
  let c := decodeChannel e leg
  let x : Xfer := { ref := e.ref, leg := if ownRead e then 0 else b2n leg, verify := !(ownRead e), plane := plane, sector := sector }
  if (fchOf s c).xfer = some x then s else putOnBus s c e x

/-- A decode that is awaited: its plane has been sensed and its sector is still to be decoded. -/
def decodeAwaited (e : Entry) (leg : Bool) (plane sector : Nat) : Bool :=
  let ps := if ownRead e then e.planes else ((e.legs[b2n leg]?).map (·.verify)).getD []
  ps.any fun p => decide (p.plane = plane) && p.ready &&
    p.sectors.any fun x => decide (x.sector = sector) && decide (x.state = SecState.pending) && !(roundDone p x)

/-- The entry whose soft codeword is on a channel's bus. -/
def softOn (s : State) (c : Nat) : Option Entry :=
  match xferOn s c with
  | none => none
  | some x => (entryOf? s x.ref).filter fun e =>
    let ps := if x.verify then ((e.legs[x.leg]?).map (·.verify)).getD [] else e.planes
    ps.any fun p => decide (p.plane = x.plane) && p.soft

/-- A soft codeword of a channel is served before one that became ready at `at_` on channel c: URGENT first, then in the order
in which they became ready (R319). -/
def servedBefore (s : State) (e : Entry) (at_ c k : Nat) : Bool :=
  decide (k ≠ c) && match softOn s k with
    | none => false
    | some g => (isUrgent g && !(isUrgent e)) ||
        (isUrgent g == isUrgent e &&
          (decide ((fchOf s k).xferAt < at_) || (decide ((fchOf s k).xferAt = at_) && decide (k < c))))

/-- A decoder of its kind serves the codeword (R319). Eight hard decoders serve at most one codeword of each channel; the two
soft decoders serve the first two that wait. -/
def decoderServes (s : State) (e : Entry) (c : Nat) (soft : Bool) : Bool :=
  !soft || decide (((List.range 8).filter (servedBefore s e
    (if (softOn s c).isSome then (fchOf s c).xferAt else cycles s) c)).length < 2)

/-- SECTOR_DECODED (R323, R338): a sector has come over the bus in its turn (R253) and its decode ends; the bus takes the next. -/
def execSectorDecoded (r : EntryRef) (leg : Bool) (plane : BitVec 2) (sector : BitVec 4) (soft : Bool) (d : DecodeResult) (s : State) :
    Host.Outcome State Fault Refusal :=
  .next (withSlot s r (match entryOf? s r with
    | none => s
    | some e =>
      if e.phase ≠ .running ∨ sectorTurn s e leg plane.toNat sector.toNat = false ∨
          decodeAwaited e leg plane.toNat sector.toNat = false ∨ decoderServes s e (decodeChannel e leg) soft = false then s
      else
        let s := bringSector s e leg plane.toNat sector.toNat
        sectorBoundary
          (if ownRead e then readDecoded s e plane.toNat sector.toNat soft d
           else verifyDecoded s e (b2n leg) plane.toNat sector.toNat d) (decodeChannel e leg)))

/-! ### Admin entries (R241-R244, R295) -/

/-- An admin entry that starts now. -/
def adminRow (s : State) (r : EntryRef) (op : Nat) (go : State → Entry → State) : State :=
  withSlot s r (match activeEntry s r op with
  | none => s
  | some e =>
    let l := pfaLun (ew e.words 1)
    if mayAdmin s e l then go (closeSeq s e l false) e else s)

/-- PARAM_READ (R241): raw bytes of the parameter page. -/
def execParamRead (r : EntryRef) (page : List Byte) (crcOk : Bool) (s : State) : Host.Outcome State Fault Refusal :=
  .next (adminRow s r opPARAM fun s e =>
    let s := emit s (.flashParam (BitVec.ofNat 8 (pfaLun (ew e.words 1))))
    let s := writeArea s (areaBase s (weKey e.words) (weOffset e.words)) (page.take (dataLen e.words))
    endEntry (setEntry s { e with begun := true }) r stOK (BitVec.ofNat 32 (b2n crcOk)))

/-- What a GET_FEATURES reads: the retry feature address holds the step currently set on the LUN (R322); any other address
what the target answers. -/
def featureValue (s : State) (e : Entry) (p : W32) : W32 :=
  let l := pfaLun (ew e.words 1)
  if retryFeature s (l / 32) = some (fld (ew e.words 3) 7 0) then stepBytes s (l / 32) (lunOf s l).stepType (lunOf s l).step else p

/-- GET_FEATURES (R241, R322). -/
def execGetFeatures (r : EntryRef) (p : W32) (s : State) : Host.Outcome State Fault Refusal :=
  .next (adminRow s r opGETF fun s e =>
    let s := emit s (.flashGetFeature (BitVec.ofNat 8 (pfaLun (ew e.words 1))) (bit (ew e.words 3) 8) (BitVec.ofNat 8 (fld (ew e.words 3) 7 0)))
    endEntry (setEntry s { e with begun := true }) r stOK (featureValue s e p))

/-- SET_FEATURES (R241, R242). -/
def execSetFeatures (r : EntryRef) (s : State) : Host.Outcome State Fault Refusal :=
  .next (adminRow s r opSETF fun s e =>
    let s := emit s (.flashFeature (BitVec.ofNat 8 (pfaLun (ew e.words 1))) (bit (ew e.words 3) 8) (BitVec.ofNat 8 (fld (ew e.words 3) 7 0))
      (BitVec.ofNat 32 (fld (ew e.words 3) 63 32)))
    endEntry (setEntry s { e with begun := true }) r stOK 0)

/-- SUSPEND_POLICY (R244). -/
def execSuspendPolicy (r : EntryRef) (s : State) : Host.Outcome State Fault Refusal :=
  .next (adminRow s r opSUSPOL fun s e =>
    let w := ew e.words 3
    let s := { s with policies := tset s.policies (pfaLun (ew e.words 1))
                        { eraseOk := bit w 0, progOk := bit w 1, maxSus := fld w 5 2 } }
    endEntry (setEntry s { e with begun := true }) r stOK 0)

/-- The LUNs a TARGET_RESET resets. -/
def resetLuns (s : State) (e : Entry) : List Nat :=
  let l := pfaLun (ew e.words 1)
  if bit (ew e.words 3) 0 then [l] else (targetLuns l).filter (lunFound s)

/-- The entries with an operation in progress on one of the LUNs. -/
def entriesOn (s : State) (ls : List Nat) : List EntryRef :=
  (ls.flatMap fun l => (opsOf (lunOf s l)).filterMap fun o => o.owner.map (·.ref)).eraseDups

/-- A LUN goes into its reset. -/
def resetLun (s : State) (l : Nat) (owner : Option OpRef) : State :=
  setLun s l { lunOf s l with state := .resetting, cur := some { kind := .reset, owner := owner }, under := none, seq := none
                              since := cycles s, pollAt := cycles s + pollCycles s (l / 32), badRun := 0, urgentRun := 0, suspendFailed := false, pollNow := false }

/-- A target or LUN reset: operations in progress end ABORTED_BY_RESET; RESULT counts their entries; the entry ends when its
LUN reports ready. -/
def startReset (s : State) (e : Entry) : State :=
  let l := pfaLun (ew e.words 1)
  let ls := resetLuns s e
  let n := (entriesOn s ls).length
  let s := ls.foldl (fun s k => (opsOf (lunOf s k)).foldl (fun s o => abortOp s o stABORTED) s) s
  let s := emit s (.flashReset (BitVec.ofNat 3 (l / 32)) (l % 32 / 4) (if bit (ew e.words 3) 0 then some l else none))
  let e := { modLeg e 0 fun g => { g with started := true } with phase := .running, begun := true, result := BitVec.ofNat 32 n }
  let s := setEntry s e
  ls.foldl (fun s k => resetLun s k (if k = l then some { ref := e.ref } else none)) s

/-- TARGET_RESET (R243). -/
def execTargetReset (r : EntryRef) (s : State) : Host.Outcome State Fault Refusal :=
  .next (withSlot s r (match activeEntry s r opTRESET with
    | none => s
    | some e =>
      let l := pfaLun (ew e.words 1)
      if serving s && (fchOf s (l / 32)).up && eligible s e l && firstInLine s e l && !(targetClaimed s e l) then startReset s e
      else s))

/-! ### Abacus transfers (R245, R337) -/

/-- The blocks of a group on a LUN's channel. -/
def groupBlocks (s : State) (l g : Nat) : List Nat :=
  (List.range (fchOf s (l / 32)).geo.blocks).filter fun b => decide (groupOfBlock s l b = g)

/-- The addresses of a group's blocks in every plane. -/
def groupPfas (s : State) (l g : Nat) : List W64 :=
  (groupBlocks s l g).flatMap fun b =>
    (List.range (fchOf s (l / 32)).geo.planes).map fun p => put l 8 34 ||| put p 2 32 ||| put b 16 16

/-- Export: READ on at least one block; import: READ on every block; a ring of domain 0: every group. The rights are those of
the entry's fetch (R176). -/
def mayExport (s : State) (e : Entry) (l g : Nat) : Bool :=
  decide (e.d = 0) || (groupPfas s l g).any fun p => extentsAllow e.extents p .read true true
def mayImport (s : State) (e : Entry) (l g : Nat) : Bool :=
  decide (e.d = 0) || (!(groupPfas s l g).isEmpty && (groupPfas s l g).all fun p => extentsAllow e.extents p .read true true)

/-- The (LUN, group) pairs of a transfer with the offset of each in the area. -/
def transferGroups (ws : List W64) : List (Nat × Nat × Nat) :=
  (List.range (fld (ew ws 1) 15 8 + 1)).flatMap fun i =>
    (List.range 64).map fun g => (fld (ew ws 1) 7 0 + i, g, 512 * i + 8 * g)

/-- The eight beads of a group, read one by one. -/
def readBeads (s : State) (a : Nat) : Nat → State × List Byte
  | 0 => (s, [])
  | n + 1 =>
    let x := readBead s a
    let y := readBeads x.1 (a + 1) n
    (y.1, x.2 :: y.2)

/-- Beads written to a group, one by one. -/
def writeBeads (s : State) (a : Nat) : List Byte → State
  | [] => s
  | b :: t => writeBeads (setBead s a b) (a + 1) t

/-- One group is exported; the count of transferred and skipped groups. -/
def exportGroup (e : Entry) (acc : State × Nat × Nat) (x : Nat × Nat × Nat) : State × Nat × Nat :=
  let (s, done, skipped) := acc
  let (l, g, off) := x
  let at_ := areaBase s (weKey e.words) (weOffset e.words + off)
  if mayExport s e l g then
    let y := readBeads s (beadAddr l g 0) 8
    (writeArea y.1 at_ y.2, done + 1, skipped)
  else (writeArea s at_ (List.replicate 8 0), done, skipped + 1)

/-- One group is imported; a group whose bytes fail parity is skipped (R438). -/
def importGroup (e : Entry) (acc : State × Nat × Nat) (x : Nat × Nat × Nat) : State × Nat × Nat :=
  let (s, done, skipped) := acc
  let (l, g, off) := x
  match areaBase s (weKey e.words) (weOffset e.words + off) with
  | none => (s, done, skipped + 1)
  | some a =>
    if !(mayImport s e l g) then (s, done, skipped + 1)
    else if (failing s a 8).isEmpty then (writeBeads s (beadAddr l g 0) (memRead s a 8), done + 1, skipped)
    else (noteFailing s 6 (failing s a 8), done, skipped + 1)

/-- An abacus transfer runs to its end. -/
def transfer (s : State) (r : EntryRef) (op : Nat) (one : Entry → State × Nat × Nat → Nat × Nat × Nat → State × Nat × Nat) : State :=
  withSlot s r (match freshEntry s r op with
  | none => s
  | some e =>
    if !(serving s) then s
    else
      let x := (transferGroups e.words).foldl (one e) (s, 0, 0)
      endEntry x.1 r stOK (put32 x.2.1 16 0 ||| put32 x.2.2 16 16))

/-- ABACUS_EXPORT (R245). -/
def execAbacusExport (r : EntryRef) (s : State) : Host.Outcome State Fault Refusal := .next (transfer s r opEXPORT exportGroup)

/-- ABACUS_IMPORT (R245). -/
def execAbacusImport (r : EntryRef) (s : State) : Host.Outcome State Fault Refusal := .next (transfer s r opIMPORT importGroup)

/-! ### Timeouts, failed suspends, polls, ready/busy (R262, R281-R286, R293) -/

/-- An array operation that R262 times out. -/
def timed (k : LunOp) : Bool := decide (k = .read) || decide (k = .program) || decide (k = .erase)

/-- The operation has been busy for twice its limit, at the latest within the present frame. -/
def overLimit (s : State) (l : Nat) : Bool :=
  let v := lunOf s l
  match v.cur with
  | none => false
  | some o => timed o.kind && decide (2 * limitUs s (l / 32) o.kind ((o.owner.map (·.type)).getD 0) ≤ busyBy v o (latest s))

/-- The LUN recovery of R262. -/
def lunTimeout (s : State) (l : Nat) : State :=
  let v := lunOf s l
  let s := match v.cur with
    | some o => abortOp s o stTIMEOUT
    | none => s
  let s := match v.under with
    | some o => abortOp s o stABORTED
    | none => s
  let s := emit s (.flashReset (BitVec.ofNat 3 (l / 32)) (l % 32 / 4) (some l))
  let s := resetLun s l none
  occur { s with timeoutCnt := s.timeoutCnt + 1 } blkSCH 0x309 (put32 l 8 0) 0

/-- LUN_TIMEOUT (R262). -/
def execLunTimeout (c : BitVec 3) (n : BitVec 5) (s : State) : Host.Outcome State Fault Refusal :=
  let l := 32 * c.toNat + n.toNat
  .next (if (fchOf s c.toNat).up && overLimit s l then lunTimeout s l else s)

/-- SUSPEND_FAILED (R293). -/
def execSuspendFailed (c : BitVec 3) (n : BitVec 5) (s : State) : Host.Outcome State Fault Refusal :=
  let l := 32 * c.toNat + n.toNat
  let v := lunOf s l
  .next (match v.cur with
    | none => s
    | some o =>
      let lim := suspendUs s c.toNat o.kind ((o.owner.map (·.type)).getD 0)
      if v.state = .suspending ∧ 2 * lim ≤ (latest s - v.susAt) / 400 then
        occur (setLun s l { v with state := .busy, suspendFailed := true }) (blkFCH + c.toNat) 0x406 (put32 l 8 0) 0
      else s)

/-- The LUNs of a ready/busy group: targets 0-3 or 4-7. -/
def groupLuns (c : Nat) (group : Bool) : List Nat := (List.range 16).map fun i => 32 * c + 16 * b2n group + i

/-- The LUNs of a group with an array operation in progress. -/
def groupBusy (s : State) (c : Nat) (group : Bool) : List Nat := (groupLuns c group).filter fun l => (lunOf s l).cur.isSome

/-- The LUNs whose sensed sectors wait for a channel's bus. -/
def transferLuns (s : State) (c : Nat) : List Nat :=
  (busDue s c).map fun x => if x.2.verify then pfaLun (legPfa x.1 x.2.leg) else pfaLun (ew x.1.words 1)

/-- The ready/busy case of R285: one operation in the group, and no bus work waiting, neither a start nor a transfer. -/
def rbCase (s : State) (c : Nat) (group : Bool) : Bool :=
  bit (regGet s (blkFCH + c) 0x80) 0 && !(fchOf s c).rbFallback && decide ((groupBusy s c group).length = 1) &&
    (s.entries.all fun e => !((needs e).any fun l => (groupLuns c group).contains l)) &&
    !((transferLuns s c).any fun l => (groupLuns c group).contains l)

/-- POLL_DUE (R282, R283): an operation's first-poll time, or POLLINT after its last poll, has passed. A status poll goes to
the LUN, at the next sector boundary where a transfer is on the bus. -/
def execPollDue (c : BitVec 3) (n : BitVec 5) (s : State) : Host.Outcome State Fault Refusal :=
  let l := 32 * c.toNat + n.toNat
  let v := lunOf s l
  .next (if (fchOf s c.toNat).up && v.cur.isSome && !v.pollNow && decide (v.pollAt ≤ latest s) &&
        !(rbCase s c.toNat (decide (16 ≤ n.toNat))) then
      if (xferOn s c.toNat).isSome then setLun s l { v with pollNow := true } else sendPoll s l
    else s)

/-- RB_RISE (R285): the group's RB_N rises and the LUN's status is read once. -/
def execRbRise (c : BitVec 3) (group : Bool) (status : Byte) (s : State) : Host.Outcome State Fault Refusal :=
  .next (if (fchOf s c.toNat).up && rbCase s c.toNat group then
      match groupBusy s c.toNat group with
      | l :: _ =>
        let f := fchOf s c.toNat
        statusArrives (setFch s c.toNat { f with rbWaits := f.rbWaits + 1 }) l status
      | [] => s
    else s)

/-- RB_STUCK (R286): RB_N has stayed low for 1 ms while every LUN of the group reports ready. -/
def execRbStuck (c : BitVec 3) (group : Bool) (s : State) : Host.Outcome State Fault Refusal :=
  let f := fchOf s c.toNat
  .next (if f.up && !f.rbFallback && (groupBusy s c.toNat group).isEmpty then
      occur (setFch s c.toNat { f with rbFallback := true }) (blkFCH + c.toNat) 0x404 (put32 (b2n group) 1 0) 0
    else s)

end Sys2Proof.Machine
end

