-- ==== Sys2Proof/Machine/Buffer.lean ====
section
/-! DEFINITION. The BUF block (chapter 12): page retirement and the scrub summaries. -/

namespace Sys2Proof.Machine

/-! ### Retirement (R443-R445) -/

/-- An entry in flight names a buffer address in the page. -/
def namesPage (s : State) (page : Nat) (e : Entry) : Bool :=
  let meets (a : Option Nat) (n : Nat) : Bool :=
    match a with
    | some a => decide (a < (page + 1) * 4096) && decide (page * 4096 < a + n)
    | none => false
  (hasData e.words && meets (areaBase s (weKey e.words) (weOffset e.words)) (dataLen e.words)) ||
    (hasMeta e.words && meets (areaBase s (weMetakey e.words) (weMetaoff e.words)) (metaLen e.words))

/-- BUF.RETRES.RESULT: 0 OK, 1 ALREADY, 2 CHARGED, 3 BUSY. -/
def retireResult (s : State) (page : Nat) : Nat :=
  if s.retired.contains page then 1
  else if (chargedIn s (page * 4096) 4096).isSome then 2
  else if s.entries.any (namesPage s page) then 3
  else 0

/-- PAGE_RETIRED's parameter 1: the domain whose window holds the page, 0xF for none. -/
def pageDomain (s : State) (page : Nat) : Nat := (windowDom s (page * 4096)).getD 15

/-- A write of BUF.RETIRE (R443). -/
def writeRetire (s : State) (v : W64) : State :=
  if !(bit v 15) then s
  else
    let page := fld v 10 0
    let r := retireResult s page
    let s := regSet s blkBUF 0x88 (put page 11 0 ||| put r 3 11 ||| put (fld (regGet s blkBUF 0x88) 63 48 + 1) 16 48)
    if r = 0 then
      occur { s with retired := ninsert s.retired page } blkBUF 0x802 (put32 page 11 0) (put32 (pageDomain s page) 4 0)
    else s

/-- PAGE_RETIRE (R443). -/
def execPageRetire (w : Dom) (v : W64) (s : State) : Host.Outcome State Fault Refusal :=
  .next (guardedWrite s w blkBUF 0x80 {} fun s => writeRetire s v)

/-! ### Scrub summaries (R442) -/

/-- A write of BUF.SCRUBAd clears the domain's summary. -/
def clearScrub (s : State) (d : Nat) : State := { s with scrubs := terase s.scrubs d }

/-- SCRUB_CLEAR (R442). -/
def execScrubClear (w d : Dom) (_v : W64) (s : State) : Host.Outcome State Fault Refusal :=
  .next (guardedWrite s w blkBUF (0x300 + 0x10 * d.toNat) {} fun s => clearScrub s d.toNat)

/-- Clear the bits of BUF.PERRMAPk that a write sets (W1C). -/
def clearPerrmap (s : State) (k : Nat) (v : W64) : State :=
  { s with perr := s.perr.filter fun p => !(decide (p / 64 = k) && v.getLsbD (p % 64)) }

/-- Word k of a page map. -/
def pageMapWord (l : List Nat) (k : Nat) : W64 :=
  l.foldl (fun w p => if p / 64 = k then w ||| put 1 1 (p % 64) else w) 0

end Sys2Proof.Machine
end

