-- ==== Sys2Proof/Machine/Movers.lean ====
section
/-! DEFINITION. The movers and the causeway (chapter 11): ownership, arbitration, register sets, every instruction, faults and
events; the commands MOVER_*, MOVE, FILL, CRC, WAIT, LOOP, SIGNAL, LINK, END, REGISTER_SET_END and BURST_GRANT. MOVE and FILL
check a move and start it; each BURST_GRANT carries one of its bursts over a port. -/

namespace Sys2Proof.Machine

def setMov (s : State) (n : Nat) (m : Mover) : State := { s with movers := tset s.movers n m }

/-- The mover's number stands in the ring field of its violations (R181, R419). -/
def movOrigin (n : Nat) : Origin := { ring := BitVec.ofNat 6 n }

/-! ### Ownership (R387) -/

/-- CWY.ASSIGNRES takes an outcome and the next SEQ. -/
def assignResult (s : State) (n : Nat) (busy : Bool) : State :=
  regSet s blkCWY 0x88 (put n 4 0 ||| putB busy 4 ||| put (fld (regGet s blkCWY 0x88) 63 48 + 1) 16 48)

/-- The mover's header returns to its reset values. -/
def clearHdr (s : State) (b : Nat) : State := { s with hdrs := terase s.hdrs b }

/-- A write of CWY.ASSIGN (R387); EVR takes the assigned domain's bit (R554). -/
def writeAssign (s : State) (v : W64) : State :=
  if !(bit v 15) then s
  else
    let n := fld v 3 0
    let rest := match tget s.movers n with
      | none => true
      | some m => decide (m.state = MoverState.idle) || decide (m.state = MoverState.error)
    if !rest then assignResult s n true
    else
      let s := clearHdr s (blkMOV + n)
      assignResult
        (if bit v 8 then { s with movers := terase s.movers n }
         else
           let d := fld v 7 4
           setMov (setHdr s (blkMOV + n) { hdr s (blkMOV + n) with evr := 1#16 <<< d }) n { d := BitVec.ofNat 4 d }) n false

/-- MOVER_ASSIGN (R387). -/
def execMoverAssign (w : Dom) (v : W64) (s : State) : Host.Outcome State Fault Refusal :=
  .next (guardedWrite s w blkCWY 0x80 {} fun s => writeAssign s v)

/-- MOVER_FREE (R387). -/
def execMoverFree (w : Dom) (v : W64) (s : State) : Host.Outcome State Fault Refusal :=
  .next (guardedWrite s w blkCWY 0x80 {} fun s => writeAssign s v)

/-! ### Arbitration (R386, R390, R391) -/

/-- The effective priority of a requester; the service lane is requester 16 at priority 1. -/
def effPrio (s : State) (r : Nat) : Nat :=
  if r = 16 then 1
  else match tget s.movers r with
    | none => 0
    | some m => min m.prio.toNat (fld (regGet s blkCWY 0xA0) (2 * m.d.toNat + 1) (2 * m.d.toNat))

/-- The first ready requester after the one last granted at its level. -/
def roundRobin (l : List Nat) (last : Option Nat) : Option Nat :=
  match last with
  | none => l.head?
  | some k => match l.find? fun r => decide (k < r) with
    | some r => some r
    | none => l.head?

/-- Who is granted (R391). -/
def grantee (s : State) (p : PortSt) (ready : BitVec 17) : Option Nat :=
  let c := (List.range 17).filter fun r => ready.getLsbD r
  match c.find? fun r => decide (256 ≤ tgetD p.passed r 0) with
  | some r => some r
  | none =>
    let top := c.foldl (fun n r => max n (effPrio s r)) 0
    roundRobin (c.filter fun r => decide (effPrio s r = top)) (tget p.last top)

/-- A port after a grant: the others that were ready have been passed over once more; who was not ready starts anew. -/
def granted (s : State) (p : PortSt) (ready : BitVec 17) (g : Nat) : PortSt :=
  { passed := ((List.range 17).filter fun r => ready.getLsbD r && decide (r ≠ g)).map fun r => (r, tgetD p.passed r 0 + 1)
    last := tset p.last (effPrio s g) g }

/-! ### Faults, events, ends (R398, R403, R422, R425) -/

/-- MOVER_DONE, MOVER_EOC or MOVER_PARKED. -/
def movEvent (s : State) (n : Nat) (code : BitVec 12) (pc : Nat) : State :=
  occur s (blkMOV + n) code (put32 n 4 0) (put32 pc 23 0)

/-- A fault ends the instruction or set at once (R422); what its lane still holds is dropped. DEDUCED: "at once". -/
def movFault (s : State) (n : Nat) (m : Mover) (cause addr : Nat) : State :=
  let pc : BitVec 23 := if m.prog then m.pc else 0
  let s := setMov s n { m with state := .error, armed := false, setDone := false, job := none, faultCause := BitVec.ofNat 4 cause
                               faultPc := pc, faultAddr := BitVec.ofNat 23 addr }
  occur s (blkMOV + n) 0x704 (put32 n 4 0 ||| put32 cause 4 4 ||| put32 m.d.toNat 4 8) (put32 pc.toNat 23 0)

/-- A program instruction ends: execution goes on at `next`, and EOC raises MOVER_EOC. -/
def endInstr (s : State) (n : Nat) (m : Mover) (eoc : Bool) (next : Nat) : State :=
  let s := setMov s n { m with state := .run, pc := BitVec.ofNat 23 next, ended := m.ended + 1 }
  if eoc then movEvent s n 0x702 m.pc.toNat else s

/-- The instruction after this one. -/
def stepOn (s : State) (n : Nat) (m : Mover) (eoc : Bool) : State := endInstr s n m eoc (m.pc.toNat + 32)

/-! ### Operands and checks (R401, R419) -/

/-- XBITS is valid. -/
def xbitsOk (w : W64) : Bool := decide (fld w 59 56 ≤ 12)

/-- The effective offset of an operand. -/
def effOffset (m : Mover) (w : W64) : Nat :=
  let x := fld w 59 56
  fld w 54 32 + (if x = 0 then 0 else (m.sigcnt.toNat % 2 ^ x) <<< (fld w 63 60 + 3))

/-- Checks 2 to 6 of R178 for a mover: charged space counts as BOUNDS (R419). -/
def checkMov (s : State) (d : Dom) (key : W32) (off n : Nat) (wr : Bool) : Except Viol Nat :=
  match checkRegion s d key off n wr with
  | .error v => .error (if v.kind = 10 then { kind := 4, p1 := key } else v)
  | .ok a => .ok a

/-- The same for an operand. -/
def checkOperand (s : State) (m : Mover) (w : W64) (n : Nat) (wr : Bool) : Except Viol Nat :=
  checkMov s m.d (baseKey w) (effOffset m w) n wr

def isRing (w : W64) : Bool := bit w 55
def ringLog (m : Mover) : Nat := fld m.ringa 59 55
def ringLogOk (m : Mover) : Bool := decide (8 ≤ ringLog m) && decide (ringLog m ≤ 22)
def ringLen (m : Mover) : Nat := 2 ^ ringLog m

/-- The buffer address of the first failing word. -/
def failWord (l : List Nat) : Nat := l.headD 0 / 8 * 8

/-! ### The producer word (R414, R415) -/

/-- What a read of the producer word gives. -/
inductive ProdRead
  | denied (v : Viol)
  | parity (l : List Nat)
  | count (p : W32)

def readProd (s : State) (m : Mover) : ProdRead :=
  match checkMov s m.d (baseKey m.proda) (baseOffset m.proda) 8 false with
  | .error v => .denied v
  | .ok a =>
    let bad := failing s a 4
    if bad.isEmpty then .count (BitVec.ofNat 32 (leNat (memRead s a 4))) else .parity bad

/-- The fill (R415). -/
def fillOf (m : Mover) (prod : W32) : Nat := (prod - m.cons).toNat

/-! ### Moves (R392-R396, R404, R416) -/

/-- A move, from an instruction or a set. -/
structure MoveJob where
  src    : W64
  dst    : W64
  len    : Nat
  swap   : Nat
  crcacc : Bool
  check  : Bool

def swapUnit (k : Nat) : Nat := if k = 0 then 1 else if k = 1 then 2 else 4

/-- Where byte i of a move goes; each SWAP is its own inverse (R396). -/
def swapIndex (k i : Nat) : Nat :=
  match k with
  | 1 => i / 2 * 2 + (1 - i % 2)
  | 2 => i / 4 * 4 + (i % 4 + 2) % 4
  | 3 => i / 4 * 4 + (3 - i % 4)
  | _ => i

/-- R420 for a move. -/
def moveBad (m : Mover) (j : MoveJob) : Bool :=
  decide (j.len = 0) || decide (8388608 < j.len) || decide (j.len % swapUnit j.swap ≠ 0) || !(xbitsOk j.src) || !(xbitsOk j.dst) ||
    isRing j.dst || (isRing j.src && !(ringLogOk m)) || (j.check && decide (j.dst ≠ 0))

/-- A contiguous source: its buffer address and length. -/
abbrev Span := Nat × Nat

/-- The spans of ring A from position CONS (R414, R416). -/
def ringSpans (m : Mover) (len : Nat) : List (Nat × Nat) :=
  let p := m.cons.toNat % ringLen m
  let a := min len (ringLen m - p)
  if a = len then [(p, len)] else [(p, a), (0, len - a)]

/-- The source spans of a move, checked. -/
def sourceSpans (s : State) (m : Mover) (j : MoveJob) : Except Viol (List Span) :=
  if isRing j.src then
    (ringSpans m j.len).foldl (fun acc sp =>
      match acc with
      | .error v => .error v
      | .ok l => match checkMov s m.d (baseKey m.ringa) (baseOffset m.ringa + sp.1) sp.2 false with
        | .error v => .error v
        | .ok a => .ok (l ++ [(a, sp.2)])) (.ok [])
  else match checkOperand s m j.src j.len false with
    | .error v => .error v
    | .ok a => .ok [(a, j.len)]

/-- The buffer address of source byte i. -/
def spanAddr : List Span → Nat → Nat
  | [], i => i
  | (a, n) :: t, i => if i < n then a + i else spanAddr t (i - n)

/-- The bytes of the spans that fail parity. -/
def spansFailing (s : State) (l : List Span) : List Nat := l.flatMap fun x => failing s x.1 x.2

/-- Words a span's bytes touch. -/
def spanWords (x : Span) : Nat := if x.2 = 0 then 0 else (x.1 + x.2 - 1) / 8 - x.1 / 8 + 1

/-- The scrub summary of a CHECK move (R442). -/
def scrubAdd (s : State) (d : Dom) (words : Nat) (bad : List Nat) : State :=
  let c := tgetD s.scrubs d.toNat {}
  let ws := failWords bad
  let c' : Scrub :=
    { checked := c.checked + BitVec.ofNat 32 words
      errors := BitVec.ofNat 32 (sat (c.errors.toNat + ws.length) 32)
      first := match c.first with
        | some a => some a
        | none => ws.head?.map fun w => BitVec.ofNat 23 (8 * w)
      last := match ws.getLast? with
        | some w => BitVec.ofNat 23 (8 * w)
        | none => c.last }
  { s with scrubs := tset s.scrubs d.toNat c' }

/-- What the start of a move or fill leads to: it does nothing, counting one violation, it faults, or it runs. -/
inductive Done
  | denied (s : State) (m : Mover)
  | faulted (s : State) (m : Mover) (cause addr : Nat)
  | started (s : State) (m : Mover) (j : BurstJob)

/-- One violation, and the mover goes on (R419). -/
def denyMov (s : State) (n : Nat) (m : Mover) (v : Viol) : Done := .denied (violate s m.d v (movOrigin n)) m

/-- The consumer word after a ring move (R416). -/
def writeCons (s : State) (m : Mover) (a : Nat) : State := memWrite s a (leBytes 4 m.cons.toNat ++ [0, 0, 0, 0])

/-- The index of the region an operand names. -/
def operandPin (w : W64) : Nat := (baseKey w).toNat / 2 ^ 24

/-- A move whose spans and destination are settled, before its first burst; bursts end where the source's address, or the
ring's position, passes a multiple of 256 (R392). -/
def moveJob (m : Mover) (j : MoveJob) (spans : List Span) (dst : Nat) (cons : Option Nat) : BurstJob :=
  { kind := if j.check then .check else .move, src := spans, dst := dst
    start := (if isRing j.src then m.cons.toNat else spanAddr spans 0) % 256, len := j.len, swap := j.swap, crcacc := j.crcacc
    cons := cons, pins := (if isRing j.src then [] else [operandPin j.src]) ++ (if j.check then [] else [operandPin j.dst]) }

/-- A move: its checks in order, then it is under way. -/
def doMove (s : State) (n : Nat) (m : Mover) (j : MoveJob) : Done :=
  if moveBad m j then .faulted s m 1 0
  else
    match (if j.check then .ok 0 else checkOperand s m j.dst j.len true) with
    | .error v => denyMov s n m v
    | .ok dst =>
      if isRing j.src then
        match checkMov s m.d (baseKey m.consa) (baseOffset m.consa) 8 true with
        | .error v => denyMov s n m v
        | .ok ca =>
          match readProd s m with
          | .denied v => denyMov s n m v
          | .parity l => .faulted (noteFailing s 5 l) m 2 (failWord l)
          | .count p =>
            let m := { m with prod := p }
            if ringLen m < fillOf m p then .faulted s m 4 0
            else if fillOf m p < j.len then .faulted s m 3 0
            else match sourceSpans s m j with
              | .error v => denyMov s n m v
              | .ok spans => .started s m (moveJob m j spans dst (some ca))
      else match sourceSpans s m j with
        | .error v => denyMov s n m v
        | .ok spans => .started s m (moveJob m j spans dst none)

/-! ### FILL and CRC (R405, R406) -/

/-- The byte FILL writes at an address. -/
def patByte (pat : W64) (a : Nat) : Byte := BitVec.ofNat 8 (pat.toNat >>> (8 * (a % 8)))

def doFill (s : State) (n : Nat) (m : Mover) (dst : W64) (len : Nat) (pat : W64) : Done :=
  if len = 0 ∨ 8388608 < len ∨ xbitsOk dst = false ∨ isRing dst = true then .faulted s m 1 0
  else match checkOperand s m dst len true with
    | .error v => denyMov s n m v
    | .ok a => .started s m { kind := .fill, dst := a, start := a % 256, len := len, pat := pat, pins := [operandPin dst] }

/-- The complement of the running CRC, stored (R406). -/
def storeCrc (s : State) (m : Mover) (a : Nat) : State := memWrite s a (leBytes 4 (~~~ m.crc).toNat)

/-! ### Bursts (R384, R385, R391-R396, R404, R405, R419, R421) -/

/-- The bursts of a job. -/
def burstsOf (j : BurstJob) : Nat := (j.start + j.len + 255) / 256

/-- The first byte of burst b of a job, and the byte after its last. -/
def burstLo (j : BurstJob) (b : Nat) : Nat := 256 * b - j.start
def burstHi (j : BurstJob) (b : Nat) : Nat := min j.len (256 * (b + 1) - j.start)

/-- The bytes of a burst, by their places in the job. -/
def burstBytes (j : BurstJob) (b : Nat) : List Nat := (List.range (burstHi j b - burstLo j b)).map fun i => burstLo j b + i

/-- The causeway slot of burst b of mover n: 60 to a lane (R384). -/
def laneSlot (n b : Nat) : Nat := 60 * n + b % 60

/-- The causeway byte address of byte i of a job: its place in the burst's 256 bytes. -/
def laneAddr (n : Nat) (j : BurstJob) (b i : Nat) : Nat := 256 * laneSlot n b + (j.start + i) % 256

/-- Bursts read and not yet written. -/
def laneOf (m : Mover) : Nat :=
  match m.job with
  | none => 0
  | some j => if j.kind = .move then j.read - j.written else 0

/-- A burst to read and, for a move that writes, a free slot in the lane (R391). -/
def readReady (m : Mover) : Bool :=
  match m.job with
  | none => false
  | some j =>
    decide (m.state = .run) && !j.stopping && decide (j.kind ≠ .fill) && decide (j.read < burstsOf j) &&
      (decide (j.kind = .check) || decide (j.read - j.written < 60))

/-- A burst of the lane that has been read whole, or a burst of a fill (R391). -/
def writeReady (m : Mover) : Bool :=
  match m.job with
  | none => false
  | some j =>
    decide (m.state = .run) &&
      match j.kind with
      | .move => decide (j.written < j.read)
      | .fill => decide (j.written < burstsOf j)
      | .check => false

/-- The address lies in a retired page. -/
def isGone (s : State) (a : Nat) : Bool := s.retired.contains (a / 4096)

/-- A page retired while the instruction runs: one RETIRED violation for the instruction (R419). -/
def noteGone (s : State) (n : Nat) (m : Mover) (j : BurstJob) (l : List Nat) : State × BurstJob :=
  match l.filter (isGone s) with
  | [] => (s, j)
  | a :: _ =>
    if j.goneTold then (s, j)
    else (violate s m.d { kind := 5, p1 := BitVec.ofNat 32 a } (movOrigin n), { j with goneTold := true })

/-- The last burst has been carried out: the consumer word, or the CRC of a set, is written, and execution goes on (R398, R403,
R416). -/
def finishJob (s : State) (n : Nat) (m : Mover) (j : BurstJob) : State :=
  let m := { m with job := none }
  let m := if j.cons.isSome then { m with cons := m.cons + BitVec.ofNat 32 j.len } else m
  let s := match j.cons with
    | some a => writeCons s m a
    | none => s
  let s := match j.store with
    | some a => storeCrc s m a
    | none => s
  if m.prog then stepOn s n m j.eoc else setMov s n { m with setDone := true }

/-- A job after a burst: stopped with an empty lane, at its end, or going on. A stop that finds the last burst already read
leaves the instruction to run again from its start all the same (R423). DEDUCED. -/
def afterBurst (s : State) (n : Nat) (m : Mover) (j : BurstJob) : State :=
  let ended := match j.kind with
    | .check => decide (burstsOf j ≤ j.read)
    | _ => decide (burstsOf j ≤ j.written)
  if j.stopping && decide (j.read ≤ j.written) then setMov s n (goIdle m)
  else if ended then finishJob s n m j
  else setMov s n { m with job := some j }

/-- A burst of a CHECK move: read and checked, nothing written (R404, R421, R442). -/
def checkBurst (s : State) (n : Nat) (m : Mover) (j : BurstJob) (addrs bad : List Nat) (vals : List Byte) : State :=
  let s := scrubAdd (noteFailing s 5 bad) m.d (failWords addrs).length bad
  let m := { m with crc := if j.crcacc then crcRun m.crc vals else m.crc
                    perr := m.perr + BitVec.ofNat 16 (failWords bad).length }
  afterBurst s n m { j with read := j.read + 1 }

/-- The read engine carries a burst into its slot of the lane, whole and with good parity (R393, R394). -/
def readBurst (s : State) (n : Nat) (m : Mover) (j : BurstJob) : State :=
  let is := burstBytes j j.read
  let addrs := is.map (spanAddr j.src)
  let (s, j) := noteGone s n m j addrs
  let bad := addrs.filter fun a => parityBad s a && !(isGone s a)
  let vals := addrs.map fun a => if isGone s a then 0 else memGet s a
  if j.kind = .check then checkBurst s n m j addrs bad vals
  else if !bad.isEmpty then movFault (noteFailing s 5 bad) n m 2 (failWord bad)
  else
    let filled := is.map (laneAddr n j j.read)
    setMov { s with cwy := tset s.cwy (laneSlot n j.read) vals, cwyBad := s.cwyBad.filter fun x => !(filled.contains x) } n
      { m with job := some { j with read := j.read + 1 } }

/-- The bytes a burst of a move writes, by their places in the destination: each where SWAP puts it (R396). -/
def swappedBytes (j : BurstJob) (b : Nat) (vals : List Byte) : List (Nat × Byte) :=
  let u := swapUnit j.swap
  let lo := burstLo j b
  let hi := burstHi j b
  (((List.range (hi - lo + 2 * u)).map fun i => lo - u + i).filter fun d =>
    decide (lo ≤ swapIndex j.swap d) && decide (swapIndex j.swap d < hi) && decide (d < j.len)).map fun d =>
      (d, vals.getD (swapIndex j.swap d - lo) 0)

/-- Bytes written at their places past an address, except in retired pages (R419). -/
def placeBytes (s : State) (dst : Nat) (l : List (Nat × Byte)) : State :=
  l.foldl (fun s x => if isGone s (dst + x.1) then s else memSet s (dst + x.1) x.2) s

/-- A burst of a job is written. -/
def putBurst (s : State) (n : Nat) (m : Mover) (j : BurstJob) (bytes : List (Nat × Byte)) : State :=
  let (s, j) := noteGone s n m j (bytes.map fun x => j.dst + x.1)
  let m := { m with crc := if j.crcacc then crcRun m.crc (bytes.map (·.2)) else m.crc, bursts := m.bursts + 1 }
  afterBurst (placeBytes s j.dst bytes) n m { j with written := j.written + 1 }

/-- A used causeway word fails parity: PARITY_BUF of kind 10 and CWY_PARITY for each, and the mover's fault (R421, R437,
R438). -/
def laneFault (s : State) (n : Nat) (m : Mover) (bad : List Nat) : State :=
  let s := (failWords bad).foldl (fun s w =>
    occur (noteParity s 10 w (failMask bad w)) blkCWY 0x803 (put32 (8 * w) 23 0 ||| put32 10 4 24)
      (put32 (failMask bad w) 8 0 ||| put32 1 1 12)) s
  movFault s n m 2 (failWord bad)

/-- The write engine writes a burst of the lane, or of a fill (R393, R394, R405). -/
def writeBurst (s : State) (n : Nat) (m : Mover) (j : BurstJob) : State :=
  let is := burstBytes j j.written
  if j.kind = .fill then putBurst s n m j (is.map fun i => (i, patByte j.pat (j.dst + i)))
  else
    let bad := (is.map (laneAddr n j j.written)).filter s.cwyBad.contains
    if !bad.isEmpty then laneFault s n m bad
    else putBurst s n m j (swappedBytes j j.written (tgetD s.cwy (laneSlot n j.written) []))

/-- The candidates of a port: the movers that are ready, and the service lane where an export writes or the command says. -/
def candidates (s : State) (writePort : Bool) (service : BitVec 17) : BitVec 17 :=
  s.movers.foldl (fun w e => if (if writePort then writeReady e.2 else readReady e.2) then w ||| (1#17 <<< e.1) else w)
    ((service &&& 0x10000) ||| (if writePort && s.recorder.xjob.isSome then 0x10000 else 0))

/-- The burst a grant carries: a mover's, or on the service lane's write port the recorder's (R457). An abacus transfer is
whole in its own command. -/
def grantedBurst (s : State) (writePort : Bool) (g : Nat) : State :=
  if g = 16 then (if writePort then exportBurst s else s)
  else match tget s.movers g with
  | none => s
  | some m => match m.job with
    | none => s
    | some j => if writePort then writeBurst s g m j else readBurst s g m j

/-- BURST_GRANT (R391): a port is granted afresh at the end of a burst, and the requester granted moves one burst. -/
def execBurstGrant (writePort : Bool) (ready : BitVec 17) (s : State) : Host.Outcome State Fault Refusal :=
  .next (
    let rdy := candidates s writePort ready
    match (if live s then grantee s (if writePort then s.writePort else s.readPort) rdy else none) with
    | none => s
    | some g =>
      let q := granted s (if writePort then s.writePort else s.readPort) rdy g
      grantedBurst
        (if writePort then { s with writePort := q }
         else { s with readPort := q, cwyCnt := tset s.cwyCnt (effPrio s g) (tgetD s.cwyCnt (effPrio s g) 0 + 1) }) writePort g)

/-! ### Register sets (R397-R399) -/

/-- SOPS of the active set. -/
def setFlag (m : Mover) (i : Nat) : Bool := bit m.active.ops i

/-- The active set's move. -/
def setJob (m : Mover) : MoveJob :=
  { src := m.active.src, dst := m.active.dst, len := fld m.active.len 23 0, swap := fld m.active.ops 2 1
    crcacc := setFlag m 3, check := setFlag m 4 }

/-- The active set starts: CRCINIT before its first burst (R399). -/
def runSet (s : State) (n : Nat) (m : Mover) : State :=
  let store := setFlag m 6
  let bad := (store && (!(xbitsOk m.active.crca) || isRing m.active.crca)) ||
    (setFlag m 0 && decide (fld m.active.ops 4 1 ≠ 0))
  if bad then movFault s n m 1 0
  else
    match (if store then checkOperand s m m.active.crca 4 true else .ok 0) with
    | .error v => setMov (violate s m.d v (movOrigin n)) n { m with setDone := true }
    | .ok ca =>
      let m0 := if setFlag m 5 then { m with crc := 0xFFFFFFFF } else m
      match (if setFlag m 0 then doFill s n m0 m.active.dst (fld m.active.len 23 0) m.active.pat else doMove s n m0 (setJob m)) with
      | .faulted s m c a => movFault s n m c a
      | .denied s m => setMov s n { m with setDone := true }
      | .started s m j => setMov s n { m with job := some { j with store := if store then some ca else none } }

/-- A mover in register-set mode whose set has not been carried out, of the kind (FILL or not). -/
def setRow (s : State) (n : Nat) (m : Mover) (fill : Bool) : State :=
  if m.state = .run ∧ m.prog = false ∧ m.setDone = false ∧ m.job = none ∧ setFlag m 0 = fill then runSet s n m else s

/-- The active set has ended (R398, R399). -/
def endSet (s : State) (n : Nat) (m : Mover) : State :=
  let m := { m with ended := m.ended + 1, setDone := false }
  let eoc := setFlag m 7
  let next := if m.armed then { m with armed := false, active := m.shadow } else goIdle m
  let s := setMov s n next
  let s := if eoc then movEvent s n 0x702 0 else s
  if m.armed then s else movEvent s n 0x701 0

/-- REGISTER_SET_END (R398). -/
def execRegisterSetEnd (n : BitVec 4) (s : State) : Host.Outcome State Fault Refusal :=
  .next (match tget s.movers n.toNat with
    | none => s
    | some m => if m.state = .run ∧ m.prog = false ∧ m.setDone = true then endSet s n.toNat m else s)

/-! ### Instructions (R400, R402, R403) -/

/-- What the fetch of an instruction gives. -/
inductive Fetched
  | bad (s : State)
  | parity (s : State) (addr : Nat)
  | words (ws : List W64)

/-- A range of the program read for an instruction. -/
def fetchWords (s : State) (n : Nat) (m : Mover) (k : Nat) : Fetched :=
  match checkMov s m.d m.key m.pc.toNat (8 * k) false with
  | .error v => .bad (violate s m.d v (movOrigin n))
  | .ok a =>
    let bad := failing s a (8 * k)
    if bad.isEmpty then .words (wordsOf k (memRead s a (8 * k))) else .parity (noteFailing s 5 bad) (failWord bad)

def opOf (ws : List W64) : Nat := fld (ew ws 0) 7 0

/-- The instruction at PC; LINK and END are read by word 0 alone (R400). -/
def fetchInstr (s : State) (n : Nat) (m : Mover) : Fetched :=
  if m.pc.toNat % 32 ≠ 0 then .bad s
  else match fetchWords s n m 1 with
    | .words ws => if opOf ws = 7 ∨ opOf ws = 8 then .words ws else fetchWords s n m 4
    | r => r

/-- A row runs the instruction at PC when its OP is the row's; an instruction that cannot be fetched, or of no listed OP,
faults whichever row it is (R420, R421). -/
def instrRow (s : State) (n op : Nat) (m : Mover) (go : State → Mover → List W64 → State) : State :=
  if m.state ≠ .run ∨ m.prog = false ∨ m.job ≠ none then s
  else match fetchInstr s n m with
    | .bad s => movFault s n m 1 0
    | .parity s a => movFault s n m 2 a
    | .words ws =>
      if opOf ws = op then go s m ws
      else if 1 ≤ opOf ws ∧ opOf ws ≤ 8 then s else movFault s n m 1 0

/-- Reserved bits of word 0 and reserved words of an instruction (R402, R420). -/
def reservedSet (ws : List W64) (m0 : W64) (used : Nat) : Bool :=
  decide (ew ws 0 &&& ~~~ (m0 ||| 0x1FF) ≠ 0) || (ws.drop used).any fun w => decide (w ≠ 0)

def eocOf (ws : List W64) : Bool := bit (ew ws 0) 8

/-- What the start of a move or fill means for its instruction. -/
def finishInstr (n : Nat) (eoc : Bool) : Done → State
  | .denied s m => stepOn s n m eoc
  | .faulted s m c a => movFault s n m c a
  | .started s m j => setMov s n { m with job := some { j with eoc := eoc } }

def instrMove (s : State) (n : Nat) (m : Mover) (ws : List W64) : State :=
  let w := ew ws 0
  if reservedSet ws 0x00FFFFFF00001E00 3 then movFault s n m 1 0
  else finishInstr n (eocOf ws)
    (doMove s n m { src := ew ws 1, dst := ew ws 2, len := fld w 55 32, swap := fld w 10 9, crcacc := bit w 11, check := bit w 12 })

def instrFill (s : State) (n : Nat) (m : Mover) (ws : List W64) : State :=
  if reservedSet ws 0x00FFFFFF00000000 3 then movFault s n m 1 0
  else finishInstr n (eocOf ws) (doFill s n m (ew ws 1) (fld (ew ws 0) 55 32) (ew ws 2))

def instrCrc (s : State) (n : Nat) (m : Mover) (ws : List W64) : State :=
  let store := bit (ew ws 0) 10
  let m2 := if bit (ew ws 0) 9 then { m with crc := 0xFFFFFFFF } else m
  if reservedSet ws 0x600 (if store then 2 else 1) || (store && (!(xbitsOk (ew ws 1)) || isRing (ew ws 1))) then movFault s n m 1 0
  else if store then
    match checkOperand s m (ew ws 1) 4 true with
    | .error v => finishInstr n (eocOf ws) (denyMov s n m v)
    | .ok a => stepOn (storeCrc s m a) n m2 (eocOf ws)
  else stepOn s n m2 (eocOf ws)

def instrLoop (s : State) (n : Nat) (m : Mover) (ws : List W64) : State :=
  let w := ew ws 0
  let count := fld w 31 16
  let target := fld w 54 32
  if reservedSet ws 0x007FFFFFFFFF0000 1 || decide (count = 0) || decide (target % 32 ≠ 0) then movFault s n m 1 0
  else
    let lc := if m.lc = 0 then count - 1 else m.lc.toNat - 1
    endInstr s n { m with lc := BitVec.ofNat 16 lc } (eocOf ws) (if lc ≠ 0 then target else m.pc.toNat + 32)

/-- LINK (R411): on at TARGET, or parked. -/
def instrLink (s : State) (n : Nat) (m : Mover) (ws : List W64) : State :=
  let w := ew ws 0
  if decide (w &&& ~~~ 0x007FFFFF000003FF ≠ 0) || decide (fld w 54 32 % 32 ≠ 0) then movFault s n m 1 0
  else if bit w 9 then movEvent (setMov s n { m with state := .waitLink }) n 0x703 m.pc.toNat
  else endInstr s n m (eocOf ws) (fld w 54 32)

/-- END (R403): IDLE, PC stays at the END. -/
def instrEnd (s : State) (n : Nat) (m : Mover) (ws : List W64) : State :=
  if decide (ew ws 0 &&& ~~~ 0x1FF ≠ 0) then movFault s n m 1 0
  else
    let s := setMov s n (goIdle { m with ended := m.ended + 1 })
    let s := if eocOf ws then movEvent s n 0x702 m.pc.toNat else s
    movEvent s n 0x701 m.pc.toNat

/-! ### WAIT (R408, R417) -/

/-- What a test of a WAIT gives. -/
inductive Tested
  | holds (s : State) (m : Mover)
  | waits (m : Mover)
  | faulted (s : State) (m : Mover) (cause addr : Nat)

/-- The pacing rule of R417. -/
def paced (m : Mover) (fill high low : Nat) : Mover × Bool :=
  if m.draining then (if low ≤ fill then (m, true) else ({ m with draining := false }, false))
  else if high ≤ fill then ({ m with draining := true }, true) else (m, false)

/-- One test of a WAIT of KIND FILL or DONE. -/
def testWait (s : State) (n : Nat) (m : Mover) (kind : Nat) (w : W64) : Tested :=
  if kind = 0 then
    match readProd s m with
    | .denied v => .holds (violate s m.d v (movOrigin n)) m
    | .parity l => .faulted (noteFailing s 5 l) m 2 (failWord l)
    | .count p =>
      let m := { m with prod := p }
      if ringLen m < fillOf m p then .faulted s m 4 0
      else
        let x := paced m (fillOf m p) (fld w 31 0) (fld w 63 32)
        if x.2 then .holds s x.1 else .waits x.1
  else if kind = 1 then
    let r := fld w 5 0
    let foreign : Tested := .holds (violate s m.d { kind := 2, p1 := BitVec.ofNat 32 (regAddr blkWQS (0xA00 + 8 * r)) } (movOrigin n)) m
    match tget s.sqs r with
    | none => foreign
    | some q =>
      if q.owner ≠ m.d then foreign
      else if (q.done + BitVec.ofNat 32 (fld w 47 32) - m.sigcnt).toNat < 2 ^ 31 then .holds s m else .waits m
  else if m.framesLeft = 0 then .holds s m else .waits m

/-- R420 for a WAIT. -/
def waitBad (m : Mover) (ws : List W64) : Bool :=
  let kind := fld (ew ws 0) 10 9
  let w := ew ws 1
  reservedSet ws 0x600 2 ||
    (match kind with
     | 0 => decide (fld w 31 0 < fld w 63 32) || decide (ringLen m < fld w 31 0)
     | 1 => decide (w &&& ~~~ 0x0000FFFF0000003F ≠ 0)
     | 2 => decide (w &&& ~~~ 0xFFFF ≠ 0) || decide (w = 0)
     | _ => true)

/-- After a test: the next instruction, the WAIT state, or a fault. -/
def afterTest (s : State) (n : Nat) (eoc : Bool) : Tested → State
  | .holds s m => stepOn s n m eoc
  | .waits m => setMov s n m
  | .faulted s m c a => movFault s n m c a

def instrWait (s : State) (n : Nat) (m : Mover) (ws : List W64) : State :=
  let kind := fld (ew ws 0) 10 9
  if waitBad m ws then movFault s n m 1 0
  else
    let m := { m with state := .wait, waitKind := BitVec.ofNat 2 kind, waitWord := ew ws 1, waitEoc := eocOf ws
                      framesLeft := if kind = 2 then fld (ew ws 1) 15 0 else 0 }
    afterTest s n (eocOf ws) (testWait s n m kind (ew ws 1))

/-- A pending WAIT is tested again. -/
def retestWait (s : State) (n : Nat) (m : Mover) : State := afterTest s n m.waitEoc (testWait s n m m.waitKind.toNat m.waitWord)

/-- MOVER_WAKE (R408): an event that a pending WAIT watches has come. -/
def execMoverWake (n : BitVec 4) (s : State) : Host.Outcome State Fault Refusal :=
  .next (match tget s.movers n.toNat with
    | none => s
    | some m => if m.state = .wait then retestWait s n.toNat m else s)

/-! ### SIGNAL (R409, R410) -/

/-- The doorbell of a SIGNAL, after SIGCNT has advanced. -/
def signalOn (s : State) (n : Nat) (m : Mover) (ring : Nat) (eoc : Bool) : State :=
  let m := { m with sigcnt := m.sigcnt + 1 }
  checkedDoorbell (stepOn s n m eoc) m.d ring (m.sigcnt.setWidth 16) (movOrigin n)

def instrSignal (s : State) (n : Nat) (m : Mover) (ws : List W64) : State :=
  let w := ew ws 0
  let entry := bit w 9
  let ring := fld w 37 32
  let eoc := eocOf ws
  if reservedSet ws 0x0000003F00000200 (if entry then 2 else 1) || (entry && (!(xbitsOk (ew ws 1)) || isRing (ew ws 1))) then
    movFault s n m 1 0
  else if ringOwner s blkWQS ring ≠ some m.d then
    finishInstr n eoc (denyMov s n m { kind := 1, p1 := BitVec.ofNat 32 (regAddr blkWQS (0x800 + 8 * ring)) })
  else if !entry then signalOn s n m ring eoc
  else
    let base := sqBase s ring
    let slot := baseOffset base + 64 * (m.sigcnt.toNat % ringSize (sqCfg s ring))
    match checkMov s m.d (baseKey base) slot 64 true, checkOperand s m (ew ws 1) 64 false with
    | .error v, _ => finishInstr n eoc (denyMov s n m v)
    | .ok _, .error v => finishInstr n eoc (denyMov s n m v)
    | .ok d, .ok a =>
      let bad := failing s a 64
      if !bad.isEmpty then movFault (noteFailing s 5 bad) n m 2 (failWord bad)
      else
        let t := memRead s a 64
        signalOn (memWrite s d (((t.headD 0) ||| 1) :: t.tail)) n m ring eoc

/-! ### The rows of the instructions -/

/-- The mover of a row, if assigned. -/
def movRow (s : State) (n : BitVec 4) (go : Nat → Mover → State) : State :=
  match tget s.movers n.toNat with
  | none => s
  | some m => go n.toNat m

/-- MOVE (R402, R404): the instruction at PC, or the active set's move. -/
def execMove (n : BitVec 4) (s : State) : Host.Outcome State Fault Refusal :=
  .next (movRow s n fun k m =>
    if m.prog then instrRow s k 1 m fun s m ws => instrMove s k m ws else setRow s k m false)

/-- FILL (R405). -/
def execFill (n : BitVec 4) (s : State) : Host.Outcome State Fault Refusal :=
  .next (movRow s n fun k m =>
    if m.prog then instrRow s k 2 m fun s m ws => instrFill s k m ws else setRow s k m true)

/-- CRC (R406). -/
def execCrc (n : BitVec 4) (s : State) : Host.Outcome State Fault Refusal :=
  .next (movRow s n fun k m => instrRow s k 3 m fun s m ws => instrCrc s k m ws)

/-- WAIT (R408). -/
def execWait (n : BitVec 4) (s : State) : Host.Outcome State Fault Refusal :=
  .next (movRow s n fun k m => instrRow s k 4 m fun s m ws => instrWait s k m ws)

/-- LOOP (R407). -/
def execLoop (n : BitVec 4) (s : State) : Host.Outcome State Fault Refusal :=
  .next (movRow s n fun k m => instrRow s k 5 m fun s m ws => instrLoop s k m ws)

/-- SIGNAL (R409). -/
def execSignal (n : BitVec 4) (s : State) : Host.Outcome State Fault Refusal :=
  .next (movRow s n fun k m => instrRow s k 6 m fun s m ws => instrSignal s k m ws)

/-- LINK (R411). -/
def execLink (n : BitVec 4) (s : State) : Host.Outcome State Fault Refusal :=
  .next (movRow s n fun k m => instrRow s k 7 m fun s m ws => instrLink s k m ws)

/-- END (R403). -/
def execEndProgram (n : BitVec 4) (s : State) : Host.Outcome State Fault Refusal :=
  .next (movRow s n fun k m => instrRow s k 8 m fun s m ws => instrEnd s k m ws)

/-! ### Commands (R397, R412, R423) -/

/-- The indices of the regions a mover pins from GO on (R426). -/
def pinsOf (s : State) (m : Mover) : List Nat :=
  let keys := (if m.prog then [m.key] else []) ++ [baseKey m.ringa, baseKey m.proda, baseKey m.consa]
  ((keys.filter fun k => (keyed s m.d k).isSome).map fun k => k.toNat / 2 ^ 24).eraseDups

/-- GO (R397, R407, R417, R424). -/
def goMover (s : State) (m : Mover) : Mover :=
  match m.state with
  | .idle =>
    let m := { m with state := .run, sysstop := false, lc := 0, draining := false, setDone := false }
    { (if m.prog then m else { m with active := m.shadow }) with pins := pinsOf s m }
  | .run => if !m.prog && !m.armed && !((m.job.map (·.stopping)).getD false) then { m with armed := true } else m
  | _ => m

/-- CLEAR (R423). -/
def clearMover (m : Mover) : Mover := if m.state = .error then goIdle m else m

/-- A write of MOVn.CMD: GO, STOP and CLEAR in the order of their bits. -/
def writeMovCmd (s : State) (n : Nat) (v : W64) : State :=
  match tget s.movers n with
  | none => s
  | some m =>
    let m := if bit v 0 then goMover s m else m
    let m := if bit v 1 then (if m.state = .error then m else stopMover m) else m
    setMov s n (if bit v 2 then clearMover m else m)

/-- A write of MOVn.POKE: the parked LINK is read again (R412), a WAIT FILL is tested (R408). -/
def writeMovPoke (s : State) (n : Nat) : State :=
  match tget s.movers n with
  | none => s
  | some m =>
    if m.state = .waitLink then
      match fetchWords s n m 1 with
      | .bad s => movFault s n m 1 0
      | .parity s a => movFault s n m 2 a
      | .words ws => if opOf ws = 7 then instrLink s n m ws else setMov s n { m with state := .run }
    else if m.state = .wait ∧ m.waitKind = 0 then retestWait s n m
    else s

/-- MOVER_GO (R397). -/
def execMoverGo (w : Dom) (n : BitVec 4) (v : W64) (s : State) : Host.Outcome State Fault Refusal :=
  .next (guardedWrite s w (blkMOV + n.toNat) 0x88 {} fun s => writeMovCmd s n.toNat v)

/-- MOVER_STOP (R423). -/
def execMoverStop (w : Dom) (n : BitVec 4) (v : W64) (s : State) : Host.Outcome State Fault Refusal :=
  .next (guardedWrite s w (blkMOV + n.toNat) 0x88 {} fun s => writeMovCmd s n.toNat v)

/-- MOVER_CLEAR (R423). -/
def execMoverClear (w : Dom) (n : BitVec 4) (v : W64) (s : State) : Host.Outcome State Fault Refusal :=
  .next (guardedWrite s w (blkMOV + n.toNat) 0x88 {} fun s => writeMovCmd s n.toNat v)

/-- MOVER_POKE (R412). -/
def execMoverPoke (w : Dom) (n : BitVec 4) (_v : W64) (s : State) : Host.Outcome State Fault Refusal :=
  .next (guardedWrite s w (blkMOV + n.toNat) 0x90 {} fun s => writeMovPoke s n.toNat)

/-- A frame boundary passes for every pending WAIT FRAMES (R408). -/
def moverFrame (s : State) : State :=
  { s with movers := s.movers.map fun e =>
      (e.1, if e.2.state = MoverState.wait ∧ e.2.waitKind = 2 then { e.2 with framesLeft := e.2.framesLeft - 1 } else e.2) }

/-- A write of a MOVn register that holds what was written (R427). -/
def writeMovReg (s : State) (n o : Nat) (v : W64) : State :=
  match tget s.movers n with
  | none => s
  | some m =>
    let idle := decide (m.state = .idle)
    let rest := !m.armed
    let sh (f : RegSet → RegSet) : State := if rest then setMov s n { m with shadow := f m.shadow } else s
    let put1 (x : Mover) : State := if idle then setMov s n x else s
    match o with
    | 0x80 => put1 { m with prog := bit v 0, prio := BitVec.ofNat 2 (fld v 2 1) }
    | 0x98 => put1 { m with key := v.setWidth 32 }
    | 0xA0 => put1 { m with pc := v.setWidth 23 }
    | 0xA8 => put1 { m with sigcnt := v.setWidth 32 }
    | 0xB0 => put1 { m with ringa := v &&& 0x0FFFFFFFFFFFFFFF }
    | 0xB8 => put1 { m with proda := v &&& 0x007FFFFFFFFFFFFF }
    | 0xC0 => put1 { m with consa := v &&& 0x007FFFFFFFFFFFFF }
    | 0xC8 => put1 { m with cons := v.setWidth 32 }
    | 0xD0 => put1 { m with crc := v.setWidth 32 }
    | 0x100 => sh fun r => { r with src := v }
    | 0x108 => sh fun r => { r with dst := v }
    | 0x110 => sh fun r => { r with len := v &&& 0xFFFFFF }
    | 0x118 => sh fun r => { r with ops := v &&& 0xFF }
    | 0x120 => sh fun r => { r with pat := v }
    | 0x128 => sh fun r => { r with crca := v }
    | _ => s

end Sys2Proof.Machine
end

