-- ==== Sys2Proof/Machine/Sequencer.lean ====
section
/-! DEFINITION. The sequencer machine (R341-R357): microwords in both modes, nano-words, next addresses, jobs and machine
checks; the commands JOB_DISPATCH and WATCHDOG. -/

namespace Sys2Proof.Machine

/-! ### The stores and tables (R343-R346, R353-R355) -/

/-- The loaded image, none under the ROM baseline. -/
def imageOf (s : State) : Option Image := s.boot.pair.map (·.image)

def vertical (s : State) : Bool :=
  match imageOf s with
  | some i => i.vertical
  | none => false

/-- A micro store word; past the loaded words the loader's fill (R355). -/
def microWord (s : State) (n : Nat) : W64 :=
  match imageOf s with
  | some i => i.micro.getD n 0xFFFFFFFFFFFFFFFF
  | none => Config.romMicro n
def nanoWord (s : State) (n : Nat) : W64 :=
  match imageOf s with
  | some i => i.nano.getD n 0xFFFFFFFFFFFFFFFF
  | none => Config.romNano n

/-- The entry vector (R353). -/
def entryPoint (s : State) (job : Nat) : Nat :=
  match imageOf s with
  | some i => i.entries.getD job 0
  | none => Config.romEntry job

/-- The cycle table (R354). -/
def cycleEntry (s : State) (n k : Nat) : Nat :=
  if k < 4 then
    match imageOf s with
    | some i => i.cyc.getD k 1
    | none => Config.romCycles k
  else
    let t := ((fchOf s n).timing.toNat >>> (8 * (k - 4))) % 256
    if t = 0 then 1 else t

/-! ### A running job -/

/-- A job as it runs: the sequencer's registers, T0's end, the bus levels held (R351) and the core cycles used. -/
structure JobRun where
  q     : SeqSt
  t0    : Option Nat := none
  pump  : Bool := false
  held  : W64 := 0
  used  : Nat := 0
  done  : Bool := false
  check : Option (Nat × Nat) := none

/-- What the job sees around it: its channel, LUN, latch and the sample of the present microword. -/
structure JobEnv where
  n     : Nat
  lun   : Nat
  latch : List Byte

/-- A raised cause with the address it carries (R355, R356). -/
def fail (r : JobRun) (cause addr : Nat) : JobRun := { r with check := some (cause, addr) }

/-- Condition c of R348. -/
def condition (s : State) (e : JobEnv) (r : JobRun) (x : BusSample) (g : Nat) : Nat :=
  let st := r.q.status
  let l := 32 * e.n + e.lun
  match g with
  | 1 => b2n (st.getLsbD 6)
  | 2 => b2n (st.getLsbD 6) + 2 * b2n (st.getLsbD 0)
  | 3 => b2n (st.getLsbD 6) + 2 * b2n (st.getLsbD 5)
  | 4 => b2n (st.getLsbD (suspendBit s e.n))
  | 5 => match r.t0 with
    | some t => b2n (decide (t ≤ r.used))
    | none => 0
  | 6 => b2n (decide (r.q.k0 = 0))
  | 7 => b2n (decide (r.q.k1 = 0))
  | 8 => b2n (x.pumpDone && r.pump)
  | 9 => b2n x.rbHigh
  | 10 => b2n (fchOf s e.n).jesd + 2 * b2n (decide (1 < lunsOfTarget s e.n (e.lun / 4)))
  | 11 => (byteAt e.latch 15).toNat % 4
  | 12 => b2n (s.entries.any fun w => isUrgent w && (needs w).contains l)
  | 13 => b2n r.q.bad
  | 14 => b2n (fchOf s e.n).diff
  | 15 => b2n (!(fchOf s e.n).ended)
  | _ => 0

/-- A counter decremented, stopping at 0. -/
def decByte (b : Byte) : Byte := if b = 0 then 0 else b - 1

/-- T0 after a nano-word (R350): WAIT in µs, BYTE in 0.1 µs, or stopped. -/
def timerAfter (e : JobEnv) (r : JobRun) (w : W64) : Option Nat :=
  match fld w 21 20 with
  | 1 => some (r.used + 400 * fieldLE e.latch 13 2)
  | 2 => some (r.used + 40 * fld w 7 0)
  | 3 => none
  | _ => r.t0

/-- The levels that hold after an EMIT (R351). -/
def heldLevels (w : W64) : W64 := w &&& 0x9FFF

/-- The side effects of a nano-word on the job (R350). -/
def applyNano (s : State) (e : JobEnv) (r : JobRun) (x : BusSample) (w : W64) (cyc : Nat) : JobRun :=
  let k := fld w 24 22
  let b : Byte := BitVec.ofNat 8 (fld w 7 0)
  let t0 := timerAfter e r w
  let st := if bit w 18 then x.dq else r.q.status
  let q := { r.q with
    status := st
    bad := if bit w 19 then decide (st &&& neverMask s e.n ≠ 0) else r.q.bad
    k0 := if k = 1 then b else if k = 2 then decByte r.q.k0 else r.q.k0
    k1 := if k = 3 then b else if k = 4 then decByte r.q.k1 else r.q.k1 }
  let p := fld w 17 16
  { r with q := q, t0 := t0, used := r.used + cyc, held := heldLevels w, done := bit w 29
           pump := if p = 1 ∨ p = 2 then true else if p = 3 then false else r.pump }

/-- A report to SCH and FCHn (R350): the array has started, a status byte, or a request for a re-poll. The other codes report
what the scheduler's own commands show. -/
def notify (s : State) (e : JobEnv) (r : JobRun) (w : W64) : State :=
  let l := 32 * e.n + e.lun
  match fld w 28 25 with
  | 1 => arrayStarted s l
  | 3 => statusArrives s l r.q.status
  | 4 => badStatus s l r.q.status
  | _ => s

/-- Push and pop of the return stack (R349): eight addresses. -/
def push (r : JobRun) (a : Nat) (addr : Nat) : JobRun :=
  if 8 ≤ r.q.stack.length then fail r 4 addr else { r with q := { r.q with stack := BitVec.ofNat 14 a :: r.q.stack } }
def goto (r : JobRun) (a : Nat) : JobRun := { r with q := { r.q with pc := BitVec.ofNat 14 a } }
def popTo (r : JobRun) (addr : Nat) : JobRun :=
  match r.q.stack with
  | [] => fail r 4 addr
  | a :: t => { r with q := { r.q with pc := a, stack := t } }

/-- A nano-word is fetched and applied: the machine check it raises, or the job after it (R350, R355). -/
def emitNano (s : State) (e : JobEnv) (r : JobRun) (x : BusSample) (n cyc : Nat) : State × JobRun :=
  let w := nanoWord s n
  if r.q.nanoBad.contains n then (s, fail r 2 n)
  else if !(decide (fld w 63 30 = 0) && decide (fld w 10 8 ≤ 2) && decide (fld w 24 22 ≤ 4) && decide (fld w 28 25 ≤ 7)) then
    (s, fail r 3 r.q.pc.toNat)
  else
    let r := applyNano s e r x w cyc
    (notify (emit s (.busWord (BitVec.ofNat 3 e.n) w cyc)) e r w, r)

/-- One two-level microword (R345, R347). -/
def stepTwoLevel (s : State) (e : JobEnv) (r : JobRun) (x : BusSample) : State × JobRun :=
  let a := r.q.pc.toNat
  if r.q.microBad.contains (a / 2) then (s, fail r 1 a)
  else
    let w : W32 := ((microWord s (a / 2)) >>> (32 * (a % 2))).setWidth 32
    let m : W64 := w.setWidth 64
    if bit m 31 || (bit m 29 && bit m 30) then (s, fail r 3 a)
    else
      let (s, r) := emitNano s e r x (fld m 8 0) (cycleEntry s e.n (fld m 28 26))
      if r.check.isSome || r.done then (s, r)
      else if bit m 30 then (s, popTo r a)
      else
        let c := condition s e r x (fld m 12 9)
        let r := if bit m 29 then push r ((a + 1) % 8192) a else r
        (s, if r.check.isSome then r else goto r ((fld m 25 13) ||| c))

/-- One vertical microword (R346, R347, R351). -/
def stepVertical (s : State) (e : JobEnv) (r : JobRun) (x : BusSample) : State × JobRun :=
  let a := r.q.pc.toNat
  if r.q.microBad.contains (a / 4) then (s, fail r 1 a)
  else
    let w : W16 := ((microWord s (a / 4)) >>> (16 * (a % 4))).setWidth 16
    let m : W64 := w.setWidth 64
    let next := (a + 1) % 16384
    let plain (r : JobRun) : State × JobRun :=
      (emit s (.busWord (BitVec.ofNat 3 e.n) r.held 1), { r with used := r.used + 1 })
    match fld m 15 12 with
    | 0 => if fld m 11 0 ≠ 0 then (s, fail r 3 a) else plain (goto r next)
    | 1 =>
      let (s, r) := emitNano s e r x (fld m 8 0) (cycleEntry s e.n (fld m 11 9))
      (s, if r.check.isSome || r.done then r else goto r next)
    | 2 => plain (goto r (4 * fld m 11 0 % 16384))
    | 3 =>
      let (s, r) := plain r
      (s, goto r (((a / 1024 % 16) * 1024) ||| (4 * fld m 7 0) ||| condition s e r x (fld m 11 8)))
    | 4 =>
      let r := push r next a
      if r.check.isSome then (s, r) else plain (goto r (4 * fld m 11 0 % 16384))
    | 5 =>
      if fld m 11 0 ≠ 0 then (s, fail r 3 a)
      else
        let r := popTo r a
        if r.check.isSome then (s, r) else plain r
    | 6 =>
      if fld m 10 8 ≠ 0 then (s, fail r 3 a)
      else
        let b : Byte := BitVec.ofNat 8 (fld m 7 0)
        plain (goto { r with q := { r.q with k0 := if bit m 11 then r.q.k0 else b, k1 := if bit m 11 then b else r.q.k1 } } next)
    | 7 =>
      if fld m 10 0 ≠ 0 then (s, fail r 3 a)
      else plain (goto { r with q := { r.q with
        k0 := if bit m 11 then r.q.k0 else decByte r.q.k0, k1 := if bit m 11 then decByte r.q.k1 else r.q.k1 } } next)
    | 8 => if fld m 11 0 ≠ 0 then (s, fail r 3 a) else plain { r with done := true }
    | _ => (s, fail r 3 a)

/-- The microwords of a job, one for each sample of the bus, until it yields, is checked, or 200 µs have passed (R342). -/
def runJob (s : State) (e : JobEnv) (r : JobRun) : List BusSample → State × JobRun
  | [] => (s, r)
  | x :: t =>
    let (s, r) := if vertical s then stepVertical s e r x else stepTwoLevel s e r x
    if r.check.isSome || r.done then (s, r)
    else if 80000 ≤ r.used then (s, fail r 5 r.q.pc.toNat)
    else runJob s e r t

/-! ### Jobs and machine checks -/

def seqOf (s : State) (n : Nat) : SeqSt := tgetD s.seqs n {}
def setSeq (s : State) (n : Nat) (q : SeqSt) : State := { s with seqs := tset s.seqs n q }

/-- A machine check of a sequencer (R355-R357). -/
def seqCheck (s : State) (n cause addr : Nat) : State :=
  let q := seqOf s n
  let l := 32 * n + q.jobLun.toNat
  let s := setSeq s n { q with state := 3
                               mck := put cause 4 0 ||| put q.job.toNat 4 4 ||| put addr 14 8 ||| put l 8 24 }
  machineCheck s (blkSEQ + n) (put32 n 3 0 ||| put32 cause 4 4 ||| put32 addr 14 8)
    (put32 q.job.toNat 4 0 ||| put32 l 8 8) (some n) (decide (cause ≤ 2))

/-- The suspend or resume command byte of the personality for an operation kind (R361). -/
def suspendCommand (s : State) (n : Nat) (k : LunOp) (resume : Bool) : Byte :=
  match profileOf s n with
  | some p => byteAt p (0x44 + b2n resume + (if k = .erase then 0 else 2))
  | none => 0

/-- Byte 10 of the job latch, PREFIX (R352): the suspend or resume command of jobs 7 and 8, else the TYPE's prefix command. -/
def latchPrefix (s : State) (n job : Nat) (o : ArrayOp) : Byte :=
  if job = 7 ∨ job = 8 then suspendCommand s n o.kind (decide (job = 8))
  else match profileOf s n with
    | some p => byteAt p (tyAt ((o.owner.map (·.type)).getD 0) + 2)
    | none => 0

/-- FCHn fills the job latch (R352): what the LUN's operation, the sector on the bus and the dispatch settle; the bytes of an
address, of features and of WAIT are those given. -/
def fillLatch (s : State) (n job lun : Nat) (given : List Byte) : List Byte :=
  let l := 32 * n + lun
  let v := lunOf s l
  let b := patch ((List.range 16).map (byteAt given)) 11 [BitVec.ofNat 8 (lun / 4 + 8 * (lun % 4))]
  match (if job = 8 then v.under else v.cur) with
  | none => b
  | some o =>
    let b := patch b 10 [latchPrefix s n job o]
    let b := match o.owner with
      | some w => patch b 12 [BitVec.ofNat 8 (w.type % 4 + 4 * w.plane)]
      | none => b
    let b := match xferOn s n with
      | some x => if job = 1 then patch b 0 (leBytes 2 (columnOf s n ((o.owner.map (·.type)).getD 0) x.sector)) else b
      | none => b
    let b := if job = 9 ∧ o.kind = LunOp.read then
        patch b 5 (BitVec.ofNat 8 ((retryFeature s n).getD 0) :: leBytes 4 (stepBytes s n v.stepType v.step).toNat) else b
    patch b 15 [BitVec.ofNat 8 ((byteAt b 15).toNat % 2 + 2 * b2n v.seq.isSome)]

/-- A dispatched job runs to its yield, to a machine check, or is still running when the samples end. -/
def dispatchJob (s : State) (n : Nat) (job : BitVec 4) (lun : BitVec 5) (latch : List Byte) (bus : List BusSample) : State :=
  let q := { seqOf s n with state := 2, job := job, jobLun := lun, pc := BitVec.ofNat 14 (entryPoint s job.toNat), stack := []
                            k0 := 0, k1 := 0, jobs := (seqOf s n).jobs + 1, since := cycles s, latch := fillLatch s n job.toNat lun.toNat latch, held := 0 }
  let s := setSeq s n q
  let (s, r) := runJob s { n := n, lun := lun.toNat, latch := q.latch } { q := q } bus
  match r.check with
  | some (cause, addr) => seqCheck (setSeq s n r.q) n cause addr
  | none => setSeq s n (if r.done then { r.q with state := 1 } else { r.q with held := r.held })

/-- A mismatch of the duplicated XTS engine (R313). -/
def lockstepCheck (s : State) (n : Nat) : State :=
  let s := occur s blkXTS 0x506 (put32 n 3 0) 0
  machineCheck s blkXTS (put32 n 3 0) 0 (some n) false

/-- SCH and FCHn dispatch such a job now (R341): once discovery has ended only for a discovered LUN, whose target's CE_N may go
low (R280), and no ZQ calibration (R274); a transfer out for the sector whose turn on the bus it is (R253). -/
def jobAllowed (s : State) (n : Nat) (job lun : Nat) : Bool :=
  let l := 32 * n + lun
  (!(fchOf s n).ended || (lunFound s l && decide (job ≠ 14))) &&
    (decide (job ≠ 1) ||
      match xferOn s n with
      | none => true
      | some x => match entryOf? s x.ref with
        | none => true
        | some e => decide ((if x.verify then pfaLun (legPfa e x.leg) else pfaLun (ew e.words 1)) = l))

/-- JOB_DISPATCH (R341). -/
def execJobDispatch (n : BitVec 3) (job : BitVec 4) (lun : BitVec 5) (latch : List Byte) (bus : List BusSample) (lockstepOk : Bool)
    (s : State) : Host.Outcome State Fault Refusal :=
  .next (
    let f := fchOf s n.toNat
    if !(live s) || decide ((seqOf s n.toNat).state ≠ 1) || (f.harmless && f.ended) || !(jobAllowed s n.toNat job.toNat lun.toNat) then s
    else
      let s := dispatchJob s n.toNat job lun latch bus
      if lockstepOk then s else lockstepCheck s n.toNat)

/-- WATCHDOG (R342): a job has not yielded 200 µs after its dispatch. -/
def execWatchdog (n : BitVec 3) (s : State) : Host.Outcome State Fault Refusal :=
  let q := seqOf s n.toNat
  .next (if decide (q.state = 2) && decide (q.since + 80000 ≤ latest s) then seqCheck s n.toNat 5 q.pc.toNat else s)

end Sys2Proof.Machine
end

