-- ==== Sys2Proof/Machine/Fuses.lean ====
section
/-! DEFINITION. Fuse programming (R372-R377): the commands FUSE_*. -/

namespace Sys2Proof.Machine

/-- The 32 staged bytes (FUS.PSTAGE0-PSTAGE3). -/
def fuseStage (s : State) : List Byte := bytesOf ((List.range 4).map fun i => regGet s blkFUS (0x100 + 8 * i))

/-- The staging registers are cleared after every GO (R375). -/
def clearFuseStage (s : State) : State := (List.range 4).foldl (fun s i => regSet s blkFUS (0x100 + 8 * i) 0) s

/-- FUS.PRES takes a result and the next SEQ. -/
def oPRES := 0x128
def fuseResult (s : State) (field result : Nat) : State :=
  regSet s blkFUS oPRES (put result 3 0 ||| put field 4 4 ||| put (fld (regGet s blkFUS oPRES) 63 48 + 1) 16 48)

/-- A key field's condition: blank, and programmed from nonzero staged data (R375, R376). -/
def keyFieldResult (f : FuseField) (d : List Byte) : Nat :=
  match f with
  | .partly => 4
  | .programmed _ => 1
  | .blank => if d.all fun b => decide (b = 0) then 2 else 0

/-- A container verified under an unrevoked slot other than k. -/
def verifiedElsewhere (s : State) (c : Container) (k : Nat) : Bool :=
  decide ((c.slots &&& ~~~ s.fus.revoked) &&& ~~~ (1#4 <<< k) ≠ 0)

/-- FUS.PRES.RESULT of a command: 0 accepts (R375). -/
def fuseCondition (s : State) (field value : Nat) (d : List Byte) : Nat :=
  if field ≤ 3 then keyFieldResult (tgetD s.fus.hash field .blank) d
  else if field = 4 then keyFieldResult s.fus.imageKey d
  else if field = 5 then keyFieldResult s.fus.fleetKey (d.take 4)
  else if 8 ≤ field ∧ field ≤ 11 then
    if s.fus.revoked.getLsbD (field - 8) then 1 else match s.boot.pair with
    | some p => if verifiedElsewhere s p.simg (field - 8) && verifiedElsewhere s p.pers (field - 8) then 0 else 2
    | none => 2
  else if field = 12 then
    match s.boot.pair with
    | some p => if s.fus.arb < value ∧ value ≤ p.simg.svn.toNat ∧ value ≤ p.pers.svn.toNat ∧ value ≤ 64 then 0 else 2
    | none => 2
  else if field = 13 then
    if s.fus.encreq then 1 else match s.fus.imageKey with
    | .programmed _ => 0
    | _ => 2
  else 3

/-- A write of FUS.PCMD (R375). -/
def writeFuseCmd (s : State) (v : W64) : State :=
  if s.fus.busy.isSome || !(bit v 15) then s
  else
    let field := fld v 3 0
    let d := fuseStage s
    let r := fuseCondition s field (fld v 14 8) d
    let s := fuseResult (clearFuseStage s) field r
    if r = 0 then { s with fus := { s.fus with busy := some (BitVec.ofNat 4 field, BitVec.ofNat 7 (fld v 14 8), d) } }
    else occur s blkFUS 0xF07 (put32 field 4 0 ||| put32 r 3 4) 0

/-- FUSE_KEY_HASH (R375). -/
def execFuseKeyHash (w : Dom) (v : W64) (s : State) : Host.Outcome State Fault Refusal :=
  .next (guardedWrite s w blkFUS 0x120 {} fun s => writeFuseCmd s v)
/-- FUSE_IMAGE_KEY (R375). -/
def execFuseImageKey (w : Dom) (v : W64) (s : State) : Host.Outcome State Fault Refusal :=
  .next (guardedWrite s w blkFUS 0x120 {} fun s => writeFuseCmd s v)
/-- FUSE_FLEET_KEY (R375). -/
def execFuseFleetKey (w : Dom) (v : W64) (s : State) : Host.Outcome State Fault Refusal :=
  .next (guardedWrite s w blkFUS 0x120 {} fun s => writeFuseCmd s v)
/-- FUSE_REVOKE (R375). -/
def execFuseRevoke (w : Dom) (v : W64) (s : State) : Host.Outcome State Fault Refusal :=
  .next (guardedWrite s w blkFUS 0x120 {} fun s => writeFuseCmd s v)
/-- FUSE_COUNTER_ADVANCE (R375). -/
def execFuseCounterAdvance (w : Dom) (v : W64) (s : State) : Host.Outcome State Fault Refusal :=
  .next (guardedWrite s w blkFUS 0x120 {} fun s => writeFuseCmd s v)
/-- FUSE_ENCREQ (R375). -/
def execFuseEncreq (w : Dom) (v : W64) (s : State) : Host.Outcome State Fault Refusal :=
  .next (guardedWrite s w blkFUS 0x120 {} fun s => writeFuseCmd s v)
/-- FUSE_INVALID: a FIELD the table does not list is refused INVALID (R375). -/
def execFuseInvalid (w : Dom) (v : W64) (s : State) : Host.Outcome State Fault Refusal :=
  .next (guardedWrite s w blkFUS 0x120 {} fun s => writeFuseCmd s v)

/-- The fuses after programming: whole, or partial when the read-back differs (R375, R376). -/
def burn (f : Fus) (field value : Nat) (d : List Byte) (ok : Bool) : Fus :=
  let key (d : List Byte) : FuseField := if ok then .programmed d else .partly
  if field ≤ 3 then { f with hash := tset f.hash field (key d) }
  else if field = 4 then { f with imageKey := key d }
  else if field = 5 then { f with fleetKey := key (d.take 4) }
  else if !ok then f
  else if field ≤ 11 then { f with revoked := f.revoked ||| (1#4 <<< (field - 8)) }
  else if field = 12 then { f with arb := value }
  else { f with encreq := true }

/-- FUSE_PROGRAMMED (R375): programming ends and the field is read back. -/
def execFuseProgrammed (readBackOk : Bool) (s : State) : Host.Outcome State Fault Refusal :=
  .next (match s.fus.busy with
    | none => s
    | some (field, value, d) =>
      let s := { s with fus := { burn s.fus field.toNat value.toNat d readBackOk with busy := none } }
      occur s blkFUS (if readBackOk then 0xF05 else 0xF06) (put32 field.toNat 4 0) 0)

end Sys2Proof.Machine
end

