-- ==== Sys2Proof/Machine/Startup.lean ====
section
/-! DEFINITION. The power-on reset, its release and the resets of the whole part (chapter 15). -/

namespace Sys2Proof.Machine

/-- A reset that ends a fuse command early: whether data fuses were blown is free (R375, R376). -/
def disturbFuse (s : State) : State :=
  match s.fus.busy with
  | none => s
  | some (f, v, d) =>
    let u := if Config.fuseBlown s.freeCtr then burn s.fus f.toNat v.toNat d false else s.fus
    { s with fus := { u with busy := none }, freeCtr := s.freeCtr + 1 }

/-- POWER_ON_RESET (R516, R532): VCORE falls below the level; in Deep Hold the core has no power to lose. -/
def execPowerOnReset (s : State) : Host.Outcome State Fault Refusal :=
  .next (
    if s.phase = .porHeld ∨ s.phase = .deepHold then s
    else
      let t := coreLost (disturbFuse s)
      { t with pins := { t.pins with resetN := s.pins.resetN, pgood := s.pins.pgood } })

/-- DOM.KEY0 at reset: the fleet open key when it is programmed (R157, R376). -/
def resetKey0 (s : State) : W64 :=
  match s.fus.fleetKey with
  | .programmed k => BitVec.ofNat 64 (fieldLE k 0 4)
  | _ => 0

/-- What a release latches, measures and sets (R517, R525, R325, R157). -/
def releaseCore (s : State) (bootsel : BitVec 2) (process : Byte) : State :=
  let s := { s with
    phase := .acquiring
    glb := { s.glb with bootsel := bootsel }
    mon := { s.mon with proc := process }
    boot := { s.boot with from_ := bootSource bootsel false }
    pins := { s.pins with resetN := true, pgood := true } }
  let s := (List.range 32).foldl (fun s i => regSet s blkECC (0x100 + 8 * i) (Config.bootLlr i)) s
  regSet s blkDOM 0x110 (resetKey0 s)

/-- The class of VDDIO at release (R573): 3.3 V or 1.8 V; outside both ranges the power-on reset is not released. -/
def vddioClass (mv : Nat) : Option Bool :=
  if 2970 ≤ mv ∧ mv ≤ 3630 then some true else if 1620 ≤ mv ∧ mv ≤ 1980 then some false else none

/-- POWER_UP (R517): the power-on reset is released, after power-up or a Deep Hold exit; a field already there is
recorded (R478). -/
def execPowerUp (bootsel : BitVec 2) (process : Byte) (vddioMv : Nat) (s : State) : Host.Outcome State Fault Refusal :=
  .next (
    if s.phase ≠ .porHeld ∨ vddioClass vddioMv = none then s
    else
      let kind := b2n s.clk.dhExit
      let s := { s with
        mem := [], badMem := [], powers := s.powers + 1, recorder := {}
        glb := { s.glb with last := BitVec.ofNat 4 kind }
        mon := { s.mon with vddio33 := (vddioClass vddioMv).getD false } }
      let s := occur (releaseCore s bootsel process) blkGLB 0x001 (put32 bootsel.toNat 2 0 ||| put32 kind 4 4)
        (put32 process.toNat 8 0)
      if s.tag.field then tagOccur s 0x904 1 0 else s)

/-! ### System reset (R533-R537) -/

/-- What a system reset keeps (R520, R537). -/
def keptOver (s : State) : State :=
  { State.reset with
    pending := s.pending
    out := s.out
    frames := s.frames
    freeCtr := s.freeCtr
    powers := s.powers
    mem := s.mem
    badMem := s.badMem
    retired := s.retired
    beads := s.beads
    badBeads := s.badBeads
    fus := s.fus
    tag := s.tag
    recorder := { State.reset.recorder with
      recs := s.recorder.recs, seq := s.recorder.seq, overwrote := s.recorder.overwrote
      flushSeq := s.recorder.flushSeq, lost := s.recorder.lost, bad := s.recorder.bad }
    pmu := { tagwake := s.pmu.tagwake, seglatch := s.pmu.seglatch, lastsrc := s.pmu.lastsrc, dhcount := s.pmu.dhcount
             wakeA := s.pmu.wakeA, wakeB := s.pmu.wakeB }
    mon := { hi := s.mon.hi, lo := s.mon.lo, measured := s.mon.measured, vddio33 := s.mon.vddio33
             volts := s.mon.volts.map fun e => (e.1, { lowest := e.2.lowest }) }
    glb := { last := s.glb.last, syscnt := s.glb.syscnt, flashcnt := s.glb.flashcnt }
    boot := { lastHash := s.boot.lastHash } }

/-- Steps 1 to 3 of R536: RESET is recorded, every connection closes, and everything but what is kept goes. -/
def systemResetCore (s : State) (kind dom : Nat) : State :=
  let s := occur s blkGLB 0x002 (put32 kind 4 0 ||| put32 dom 4 8) (put32 s.conns.length 16 0)
  let s := (s.conns.map (·.1)).foldl (fun s k => closeConn s k 3) s
  let s := (List.range 8).foldl stopChannel s
  keptOver (disturbFuse { s with glb := { s.glb with last := BitVec.ofNat 4 kind, syscnt := s.glb.syscnt + 1 } })

/-- A system reset by a pin: held while the pin is low (R533). -/
def pinReset (s : State) (kind ns : Nat) (low : Pins → Pins) : State :=
  if ns < 200 then s
  else if s.phase = .acquiring ∨ s.phase = .running then
    let t := systemResetCore s kind 15
    { t with phase := .resetHeld, pins := low t.pins }
  else { s with pins := low s.pins }

/-- RESET_N_LOW (R533). -/
def execResetNLow (ns : Nat) (s : State) : Host.Outcome State Fault Refusal :=
  .next (pinReset s 2 ns fun p => { p with resetN := false })

/-- PGOOD_LOW (R533). -/
def execPgoodLow (ns : Nat) (s : State) : Host.Outcome State Fault Refusal :=
  .next (pinReset s 3 ns fun p => { p with pgood := false })

/-- SYSTEM_RESET_REQUEST (R535). -/
def execSystemResetRequest (w : Dom) (v : W64) (s : State) : Host.Outcome State Fault Refusal :=
  .next (guardedWrite s w blkGLB 0x88 {} fun s => writeRst s w v)

/-- SYSTEM_RESET (R535, R536): a requested reset takes effect at a frame boundary and its release follows at once. -/
def execSystemReset (bootsel : BitVec 2) (process : Byte) (s : State) : Host.Outcome State Fault Refusal :=
  .next (
    match s.glb.sysReq with
    | some d => if atBoundary s then releaseCore (systemResetCore s 4 d.toNat) bootsel process else s
    | none => s)

/-- SYSTEM_RESET_RELEASE (R533, R536): the pin is high again; the part starts as R517 says, recording no POWER_UP. -/
def execSystemResetRelease (bootsel : BitVec 2) (process : Byte) (s : State) : Host.Outcome State Fault Refusal :=
  .next (if s.phase = .resetHeld then releaseCore s bootsel process else s)

end Sys2Proof.Machine
end

