-- ==== Sys2Proof/Machine/Flags.lean ====
section
/-! DEFINITION. The status flags: the STAT register of every block (R548 and the owning chapters). -/

namespace Sys2Proof.Machine

def statGLB (s : State) : W64 :=
  putB s.glb.ready 0 ||| put s.glb.phase.toNat 3 1 ||| put s.glb.bootsel.toNat 2 4 ||| putB s.glb.flashrst 6

def statCLK (s : State) : W64 :=
  let c := s.clk
  let entry := match c.tk with
    | some k => k.entry.toNat
    | none => 0
  putB c.locked 0 ||| putB c.holdover 1 ||| putB c.drain 2 ||| putB c.noTime 3 ||| put c.holdcnt 5 4 ||| put entry 2 9 |||
    putB c.gap 11

def statPMU (s : State) : W64 :=
  let b := minBudget s
  put (restNow s) 3 0 ||| put s.pmu.rest.toNat 3 3 ||| putB (busyNow s) 6 ||| putB s.pmu.armed 7 |||
    putB (deepBlocked s) 8 ||| putB s.pmu.harmless 9 ||| put s.pmu.causes.toNat 5 10 ||| put b.1 20 16 ||| put b.2 4 36

def statMON (s : State) : W64 :=
  putB s.mon.warn 0 ||| putB s.mon.throttle 1 ||| putB s.mon.supwarn 2 ||| put s.mon.brown.toNat 9 4

def statBOOT (s : State) : W64 :=
  put s.boot.outcome.toNat 3 0 ||| putB s.boot.baseline 3 ||| put s.boot.source.toNat 2 4 ||| putB s.boot.busy 6

def statREC (s : State) : W64 :=
  put s.recorder.seq.toNat 32 0 ||| putB s.recorder.frozen.isSome 32 ||| putB s.recorder.overwrote 33

def statTAG (s : State) : W64 :=
  putB s.tag.field 0 ||| putB s.tag.unlocked 1 ||| putB s.tag.fault 2 ||| putB (decide (s.tag.pwd ≠ 0)) 3 |||
    put s.tag.total.toNat 8 8

/-- A key field is programmed; it is partial. -/
def isProgrammed : FuseField → Bool
  | .programmed _ => true
  | _ => false
def isPartial : FuseField → Bool
  | .partly => true
  | _ => false

def statFUS (s : State) : W64 :=
  let f := s.fus
  let slots (p : FuseField → Bool) : Nat := (List.range 4).foldl (fun m k => if p (tgetD f.hash k .blank) then m + 2 ^ k else m) 0
  put (slots isProgrammed) 4 0 ||| put f.revoked.toNat 4 4 ||| put (slots isPartial) 4 8 ||| putB (isProgrammed f.imageKey) 12 |||
    putB (isProgrammed f.fleetKey) 13 ||| putB f.encreq 14 ||| putB f.debuglock 15 |||
    putB (isPartial f.imageKey || isPartial f.fleetKey) 16 ||| put f.arb 7 24 ||| putB f.busy.isSome 31

/-- A pending map has not yet reached its activation frame. -/
def mapPending (s : State) (g : Seg) : Option PendMap :=
  match (segAB s g).pend with
  | some p => if pendReached p s.now.frame then none else some p
  | none => none

def statSEGAB (s : State) (g : Seg) : W64 :=
  let sg := segAB s g
  let m := effMap sg s.now.frame
  putB (beaconOn s g) 0 ||| putB sg.carrier 1 ||| put (joinedCount sg) 4 2 ||| putB (mapPending s g).isSome 6 |||
    put m.2.1.toNat 8 8 ||| put m.2.2.toNat 4 16

def statSEGC (s : State) : W64 :=
  putB (beaconOn s .c) 0 ||| putB s.clk.cki 1 ||| put s.segC.aligned.toNat 4 2 ||| putB s.segC.host.isSome 6

def statCON (s : State) : W64 := put s.conns.length 11 0 ||| put s.cache.length 7 16 ||| put (pinnedCount s) 6 24

def statFCH (s : State) (c : Nat) : W64 :=
  let f := fchOf s c
  putB f.up 0 ||| putB f.harmless 1 ||| putB f.baseline 2 ||| put f.iface.toNat 2 3 ||| putB f.vccq18 5 ||| putB f.vccqBad 6 |||
    putB f.rbFallback 7 ||| put f.rate.toNat 8 8 ||| put (busyLuns s c) 6 16 ||| putB (xferOn s c).isSome 22

/-- The boot ROM runs on SEQ0 from first lock to READY, and during a flash reset or reload (R520-R523, R539). -/
def romRuns (s : State) : Bool :=
  live s && ((decide (1 ≤ s.glb.phase.toNat) && decide (s.glb.phase.toNat ≤ 5)) || s.boot.busy)

def statSEQ (s : State) (n : Nat) : W64 :=
  let q := seqOf s n
  put q.state.toNat 2 0 ||| putB (vertical s) 2 ||| putB (baseline s) 3 ||| putB (decide (n = 0) && romRuns s) 4 |||
    put q.job.toNat 4 8 ||| put q.pc.toNat 14 16 ||| put q.stack.length 4 32

def moverCode : MoverState → Nat
  | .idle => 0
  | .run => 1
  | .wait => 2
  | .waitLink => 3
  | .error => 4

def statMOV (s : State) (n : Nat) : W64 :=
  match tget s.movers n with
  | none => 0
  | some m =>
    put (moverCode m.state) 3 0 ||| putB m.armed 3 ||| putB m.draining 4 ||| putB m.sysstop 5 ||| put m.waitKind.toNat 2 6 |||
      put (laneOf m) 8 8 ||| put m.lc.toNat 16 16

def statSCH (s : State) : W64 := putB (baseline s) 0 ||| putB s.mon.throttle 1 ||| put s.wstart.toNat 32 32

/-- Codewords that wait for a decoder: those of the senses that have ended, hard or soft. -/
def codewords (s : State) (soft : Bool) : Nat :=
  s.entries.foldl (fun n (e : Entry) =>
    (e.planes ++ e.legs.flatMap (·.verify)).foldl (fun n (p : PlaneRd) =>
      if p.ready && (p.soft == soft) then n + (p.sectors.filter fun x => !(roundDone p x)).length else n) n) 0

def statECC (s : State) : W64 :=
  let h := codewords s false
  put (min 8 h) 4 0 ||| put (min 2 (codewords s true)) 2 4 ||| put (sat (h - 8) 8) 8 8

def statXTS (s : State) : W64 :=
  put (s.keys.filter fun e => e.2.key.isSome).length 6 0 ||| put (s.keys.filter fun e => e.2.assigned).length 6 8

/-- The status register of a block (R547, R548). -/
def blockStat (s : State) (b : Nat) : W64 :=
  if isFch b then statFCH s (b - blkFCH)
  else if isSeq b then statSEQ s (b - blkSEQ)
  else if isMov b then statMOV s (b - blkMOV)
  else match b with
  | 0x00 => statGLB s
  | 0x01 => statCLK s
  | 0x02 => statPMU s
  | 0x03 => statMON s
  | 0x04 => statBOOT s
  | 0x05 => statREC s
  | 0x06 => statTAG s
  | 0x07 => statFUS s
  | 0x08 => statSEGAB s .a
  | 0x09 => statSEGAB s .b
  | 0x0A => statSEGC s
  | 0x0C => statCON s
  | 0x30 => put (64 - s.sqs.length) 7 0
  | 0x31 => put (64 - s.cqs.length) 7 0
  | 0x32 => statSCH s
  | 0x33 => statECC s
  | 0x35 => statXTS s
  | 0x36 => put (s.beads.filter fun e => beadValid e.2).length 18 0
  | 0x37 => put s.retired.length 12 0
  | 0x38 => put (s.movers.foldl (fun n e => n + laneOf e.2) 0) 11 0
  | _ => 0

/-! ### The pins of a channel (R272, R296, R350, R351) -/

/-- The harmless, idle or running levels of a channel's pins. A running job holds what its last nano-word set; complementary
strobes not in use are held weakly. -/
def chanPins (s : State) (c : Nat) : ChPins :=
  let f := fchOf s c
  let q := tgetD s.seqs c {}
  let idle : ChPins :=
    { ce := 0xFF, wp := if f.harmless then .low else .high, we := .high, ale := .low, cle := .low, reT := .high
      reC := if f.diff then .low else .released, dqsT := .released, dqsC := .released, dq := none }
  if f.harmless || decide (q.state ≠ 2) then idle
  else
    let w := q.held
    { idle with
      ce := if bit w 15 then 0xFF &&& ~~~(1#8 <<< (q.jobLun.toNat / 4)) else 0xFF
      cle := if bit w 11 then .high else .low
      ale := if bit w 12 then .high else .low
      dq := match fld w 10 8 with
        | 1 => some (BitVec.ofNat 8 (fld w 7 0))
        | 2 => some (byteAt q.latch (fld w 4 0))
        | _ => none }

end Sys2Proof.Machine
end

