-- ==== Sys2Proof/Machine/Registers.lean ====
section
/-! DEFINITION. What every register shows and what a write of each does (chapter 16 and the register blocks of the other
chapters): the one read and the one write of a register, snapshot groups, and the commands LOCK, SNAPSHOT_LATCH,
SNAPSHOT_RELEASE, ERR_CLEAR, EVENT_STATUS_CLEAR and REGISTER_WRITE. -/

namespace Sys2Proof.Machine

/-! ### Reads: the header (R548-R562) -/

/-- BLOCK.ID. -/
def idWord (b : Nat) : W64 :=
  put b 8 0 ||| put (b - blockType b) 4 8 ||| put Config.stepping.toNat 4 12 ||| put (blockType b) 8 16

/-- BLOCK.CAP. -/
def capWord (b : Nat) : W64 := put (evBits b) 5 0 ||| put (groupCount b) 5 5 ||| put (instM1 b) 4 10

/-- BLOCK.ERR. -/
def errWord (h : Hdr) : W64 := put h.errCode.toNat 12 0 ||| putB h.errValid 12 ||| put h.errSeq.toNat 32 32

/-- The groups of a block of which the domain holds a latch (SNP.HELD, R562). -/
def heldGroups (s : State) (d : Dom) (b : Nat) : W64 :=
  (s.latches.filter fun l => decide (l.block = b) && decide (l.dom = d)).foldl (fun w l => w ||| put 1 1 l.group) 0

/-- A header register as domain `d` reads it. -/
def readHeader (s : State) (d : Dom) (b o : Nat) : W64 :=
  let h := hdr s b
  match o with
  | 0x00 => idWord b
  | 0x08 => 0x100
  | 0x10 => capWord b
  | 0x20 => blockStat s b
  | 0x28 => put h.evs.toNat 16 0
  | 0x30 => put h.eve.toNat 16 0
  | 0x38 => put h.evr.toNat 16 0
  | 0x40 => errWord h
  | 0x48 => match ownerOf s b with
      | some w => put w.toNat 4 0
      | none => 0
  | 0x50 => put (rdmOf s b).toNat 16 0
  | 0x58 => putB h.lock 0 ||| put h.denied.toNat 16 16
  | 0x60 => heldGroups s d b
  | 0x68 => h.scr
  | _ => 0

/-! ### Reads: the blocks -/

/-- A signed value in 16 bits; what a larger one shows is free. -/
def show16 (v : Int) : Nat :=
  if -32768 ≤ v ∧ v < 32768 then ofSint v 16 else (Config.offsetOut v).toNat

def srcCode : SrcState → Nat
  | .absent => 0
  | .heard => 1
  | .qualified => 2
  | .timekeeper => 3
  | .faulty => 4

/-- CLK.SRCSTn (R44, R64). -/
def srcstWord (s : State) (n : Nat) : W64 :=
  match entryStands s n with
  | none => 0
  | some key =>
    let v := srcOf s key
    put (srcCode v.state) 3 0 ||| put v.good 8 8 ||| put (keyNode s key).toNat 6 16 ||| put (show16 v.offset) 16 32

/-- CLK.LOOP: the residual against the timekeeper, and the slew still to apply while it lies outside 0.5 ppm (R53). -/
def loopWord (s : State) : W64 :=
  match s.clk.tk with
  | none => 0
  | some k =>
    let off := (srcOf s (srcKey k.node)).offset
    put (show16 off) 16 0 ||| put (if -50 ≤ off ∧ off ≤ 50 then 0 else show16 off) 16 16

def readCLK (s : State) (o : Nat) : W64 :=
  if inRun o 0xA0 4 then srcstWord s ((o - 0xA0) / 8)
  else match o with
  | 0xC8 => stamp s
  | 0xE0 => 0
  | 0xE8 => loopWord s
  | _ => regGet s blkCLK o

def readPMU (s : State) (o : Nat) : W64 :=
  let p := s.pmu
  match o with
  | 0x80 => regGet s blkPMU 0x80
  | 0x90 => putB p.tagwake 0 ||| put p.seglatch.toNat 3 1 ||| put p.lastsrc.toNat 4 4 ||| put p.dhcount.toNat 16 16
  | 0x98 => put p.doze.toNat 16 0 ||| put p.nap.toNat 16 16 ||| put p.hold.toNat 16 32 ||| put p.harm.toNat 16 48
  | _ => 0

def readMON (s : State) (o : Nat) : W64 :=
  let m := s.mon
  if inRun o 0xA0 9 then put (m.temps.getD ((o - 0xA0) / 8) 0).toNat 16 0
  else if inRun o 0x100 9 then
    let v := tgetD m.volts ((o - 0x100) / 8) {}
    put v.mv.toNat 16 0 ||| put v.lowest.toNat 16 16 ||| put v.glitch.toNat 16 32
  else match o with
  | 0x80 => regGet s blkMON 0x80
  | 0xF0 => put m.now.toNat 16 0 ||| put m.hi.toNat 16 16 ||| put m.lo.toNat 16 32
  | 0x180 => put m.proc.toNat 8 0
  | _ => 0

def readGLB (s : State) (o : Nat) : W64 :=
  match o with
  | 0x80 => 0x0872 ||| put Config.stepping.toNat 4 16 ||| put Config.romRev.toNat 16 32
  | 0x90 => put s.glb.last.toNat 4 0 ||| put s.glb.syscnt.toNat 16 16 ||| put s.glb.flashcnt.toNat 16 32
  | _ => 0

def readBOOT (s : State) (o : Nat) : W64 :=
  let t := s.boot
  match o with
  | 0x80 => put t.sv.code.toNat 4 0 ||| put t.pv.code.toNat 4 4 ||| putB t.sv.sec 8 ||| putB t.pv.sec 9
  | 0x88 => regGet s blkBOOT 0x88
  | 0x90 => regGet s blkBOOT 0x90
  | 0xA0 => t.cres
  | 0xA8 => put t.time.toNat 32 0
  | _ => 0

def readREC (s : State) (o : Nat) : W64 :=
  let r := s.recorder
  if inRun o 0x100 33 then (windowWords s).getD ((o - 0x100) / 8) 0
  else match o with
  | 0x90 => put r.fseq.toNat 32 0
  | 0x98 => put r.flushSeq.toNat 32 0
  | 0xA0 => put r.lost.toNat 32 0
  | 0xC0 => putB r.xjob.isSome 0 ||| put r.xcount.toNat 9 1 ||| put r.xseq.toNat 16 48
  | _ => regGet s blkREC o

/-- The tile that TAG.TSEL names. -/
def selTile (s : State) : Nat := fld (regGet s blkTAG 0x88) 5 0

def readTAG (s : State) (o : Nat) : W64 :=
  let t := selTile s
  let x := tileOf s t
  if inRun o 0xA0 8 then BitVec.ofNat 64 (fieldLE x.comm (o - 0xA0) 8)
  else match o with
  | 0x80 => regGet s blkTAG 0x80
  | 0x88 => regGet s blkTAG 0x88
  | 0x90 => put x.version.toNat 8 0 ||| putB x.pending 8 ||| putB x.fieldWrite.isSome 9 ||| putB x.fieldread 10 ||| putB (isWired t) 11
  | 0xF8 => Config.uid
  | _ => 0

/-- FUS.HASHk_w: the digest of a programmed slot, zero while blank; what a partial slot shows is free (R376, R383). -/
def readFUS (s : State) (o : Nat) : W64 :=
  if inRun o 0x80 16 then
    match tgetD s.fus.hash ((o - 0x80) / 0x20) .blank with
    | .programmed d => BitVec.ofNat 64 (fieldLE d ((o - 0x80) % 0x20) 8)
    | .partly => Config.partialHash o
    | .blank => 0
  else if o = 0x128 then regGet s blkFUS o
  else 0

def nodeCode : NodeState → Nat
  | .absent => 0
  | .joined => 1
  | .muted => 2
  | .mustRange => 3

def readSEGAB (s : State) (g : Seg) (o : Nat) : W64 :=
  let b := segBlk g
  let sg := segAB s g
  if inRun o 0x98 8 then BitVec.ofNat 64 (fieldLE (shownMap s g (stagedMap s g)) (o - 0x98) 8)
  else if inRun o 0xD8 8 then BitVec.ofNat 64 (fieldLE (shownMap s g (effMap sg s.now.frame).1) (o - 0xD8) 8)
  else if inRun o 0x118 14 then
    let n := nodeSt sg ((o - 0x118) / 8 + 1)
    put (nodeCode n.state) 2 0 ||| put n.hitrun 2 2 ||| put (min 8 n.muteLeft) 4 4 ||| put n.advance.toNat 16 8 |||
      put n.near.toNat 16 32 ||| put n.hits.toNat 16 48
  else match o with
  | 0x80 => regGet s b 0x80
  | 0x88 => regGet s b 0x88 &&& ~~~(put 1 1 12)
  | 0x90 => putB (mapPending s g).isSome 0 ||| put sg.reason.toNat 3 1 |||
      (match mapPending s g with
       | some p => put p.act.toNat 32 32
       | none => 0)
  | 0x190 => put sg.crcErr.toNat 16 0 ||| put sg.codeErr.toNat 16 16 ||| put sg.cdr.toNat 16 32 ||| put sg.foreign.toNat 16 48
  | 0x198 => sg.edge
  | _ => 0

def readSEGC (s : State) (o : Nat) : W64 :=
  let c := s.segC
  match o with
  | 0x80 => regGet s blkSEGC 0x80
  | 0x88 => put c.crcErr.toNat 16 0 ||| put c.codeErr.toNat 16 16 ||| put c.losses.toNat 16 32
  | 0x90 => put c.skew.toNat 16 0
  | _ => 0

/-- The node is a joined host of its segment. -/
def hostJoined (s : State) (node : BitVec 6) : Bool :=
  match nodeSeg node with
  | .c => s.segC.host.any fun h => decide (nodeId .c h.index = node)
  | g => isJoined (nodeSt (segAB s g) (nodeIdx node))

/-- LNK.PEER of the node that LNK.SEL names: up while it is joined and the link is not lost (R155). -/
def peerWord (s : State) (node : BitVec 6) : W64 :=
  let l := linkOf s node
  let st := if l.lost then 2 else if hostJoined s node then 1 else 0
  put st 2 0 ||| put l.txNext.toNat 8 8 ||| put l.txAck.toNat 8 16 ||| put l.rxExp.toNat 8 24 ||| put l.unacked.length 5 32 |||
    put l.retx.toNat 16 48

def readLNK (s : State) (o : Nat) : W64 :=
  match o with
  | 0x80 => regGet s blkLNK 0x80
  | 0x88 => regGet s blkLNK 0x88
  | 0x90 => peerWord s (BitVec.ofNat 6 (fld (regGet s blkLNK 0x88) 5 0))
  | 0x98 => put s.linkDup.toNat 16 0 ||| put s.linkAhead.toNat 16 16 ||| put s.linkReject.toNat 16 32 ||| put s.evDrop.toNat 16 48
  | _ => 0

/-- CON.CTX of the connection that CON.SEL names. -/
def ctxWord (s : State) (k : Nat) : W64 :=
  match tget s.conns k with
  | none => 0
  | some c =>
    1 ||| put c.d.toNat 4 1 ||| put c.node.toNat 6 5 ||| putB (s.cache.contains k) 11 ||| putB c.pinned 12 ||| putB c.events 13 |||
      put c.grant 8 16 ||| put c.used 8 24 ||| put c.exp.toNat 16 32 ||| put c.evseq.toNat 16 48

def readCON (s : State) (o : Nat) : W64 :=
  match o with
  | 0x98 => ctxWord s (fld (regGet s blkCON 0x90) 9 0)
  | 0xA0 => 0
  | 0xA8 => put s.loads.toNat 32 0 ||| put s.spills.toNat 32 32
  | _ => regGet s blkCON o

/-- DOM.USAGEd: charged granules, valid and DYING regions, open connections. -/
def usageWord (s : State) (d : Nat) : W64 :=
  let cs := s.conns.filter fun e => decide (e.2.d.toNat = d)
  put (cs.foldl (fun n e => n + e.2.len / 128) 0) 17 0 ||| put (regionsOf s (BitVec.ofNat 4 d)) 8 24 ||| put cs.length 11 32

def readDOM (s : State) (o : Nat) : W64 :=
  if o < 0x100 then regGet s blkDOM o
  else
    let d := (o - 0x100) / 0x40
    match (o - 0x100) % 0x40 with
    | 0x10 => 0
    | 0x20 => usageWord s d
    | 0x28 => put (epochOf s (BitVec.ofNat 4 d)).toNat 16 0
    | _ => regGet s blkDOM o

def readRGN (s : State) (o : Nat) : W64 :=
  if inRun o 0x100 16 then regGet s blkRGN o
  else if o = 0x180 then put (256 - s.regions.length) 9 0
  else 0

def readEXT (s : State) (o : Nat) : W64 := if o = 0x90 then 0 else regGet s blkEXT o

def lunCode : LunState → Nat
  | .absent => 0
  | .idle => 1
  | .busy => 2
  | .suspending => 3
  | .suspended => 4
  | .resetting => 5
  | .cacheSeq => 6

def opCode : LunOp → Nat
  | .none => 0
  | .read => 1
  | .program => 2
  | .erase => 3
  | .admin => 4
  | .reset => 5

/-- FCHn.LUNST of a LUN: the operation in progress, else the one suspended. -/
def lunstWord (s : State) (l : Nat) : W64 :=
  let v := lunOf s l
  let head := put (if lunFound s l then lunCode v.state else 0) 3 0 ||| put v.lastsr.toNat 8 16
  match v.cur, v.under with
  | some o, _ => head ||| put (opCode o.kind) 3 3 ||| put o.suscnt 4 6 ||| put (sat (busySoFar s v o) 24) 24 24
  | none, some o => head ||| put (opCode o.kind) 3 3 ||| put o.suscnt 4 6 ||| put (sat o.busy 24) 24 24
  | none, none => head

def readFCH (s : State) (c o : Nat) : W64 :=
  let f := fchOf s c
  match o with
  | 0x90 => put f.maxRate.toNat 8 0 ||| putB f.diff 8 ||| put f.drive.toNat 3 9 ||| put f.odt.toNat 4 12 ||| putB f.zqDone 16
  | 0x98 => tgtWord f
  | 0xA0 => put f.timing.toNat 32 0
  | 0xA8 => f.trim
  | 0xB8 => lunstWord s (32 * c + fld (regGet s (blkFCH + c) 0xB0) 4 0)
  | 0xC0 => put f.polls.toNat 16 0 ||| put f.rbWaits.toNat 16 16 ||| put f.suspends.toNat 16 32 ||| put f.cacheSeqs.toNat 16 48
  | _ => regGet s (blkFCH + c) o

/-- SEQn.STORECRC once the stores are loaded. -/
def storeCrcWord (s : State) : W64 :=
  match imageOf s with
  | some i => put (crc32c (bytesOf i.micro)).toNat 32 0 ||| put (crc32c (bytesOf i.nano)).toNat 32 32
  | none => Config.romStoreCrc

/-- SEQn.IMG. -/
def imgWord (s : State) : W64 :=
  match s.boot.pair with
  | none => 0
  | some p =>
    put p.simg.ifMaj.toNat 8 0 ||| put p.simg.ifMin.toNat 8 8 ||| put p.pers.ifMaj.toNat 8 16 ||| put p.pers.ifMin.toNat 8 24 |||
      put p.simg.svn.toNat 16 32 ||| put p.pers.svn.toNat 16 48

def readSEQ (s : State) (n o : Nat) : W64 :=
  let q := seqOf s n
  let loaded := decide (q.state ≠ 0)
  match o with
  | 0x80 => q.mck
  | 0x88 => imgWord s
  | 0x90 => if loaded then storeCrcWord s else 0
  | 0x98 => if loaded then (List.range 4).foldl (fun w i => w ||| put (cycleEntry s n i) 10 (16 * i)) 0 else 0
  | 0xA0 => if loaded then (List.range 4).foldl (fun w i => w ||| put (cycleEntry s n (4 + i)) 10 (16 * i)) 0 else 0
  | 0xA8 => put q.jobs.toNat 32 0
  | _ => 0

def readSet (r : RegSet) (i : Nat) : W64 :=
  match i with
  | 0 => r.src
  | 1 => r.dst
  | 2 => r.len
  | 3 => r.ops
  | 4 => r.pat
  | _ => r.crca

def readMOV (s : State) (n o : Nat) : W64 :=
  match tget s.movers n with
  | none => 0
  | some m =>
    if inRun o 0x100 6 then readSet m.shadow ((o - 0x100) / 8)
    else if inRun o 0x140 6 then readSet m.active ((o - 0x140) / 8)
    else match o with
    | 0x80 => putB m.prog 0 ||| put m.prio.toNat 2 1
    | 0x98 => put m.key.toNat 32 0
    | 0xA0 => put m.pc.toNat 23 0
    | 0xA8 => put m.sigcnt.toNat 32 0
    | 0xB0 => m.ringa
    | 0xB8 => m.proda
    | 0xC0 => m.consa
    | 0xC8 => put m.cons.toNat 32 0 ||| put m.prod.toNat 32 32
    | 0xD0 => put m.crc.toNat 32 0
    | 0xD8 => put m.faultCause.toNat 4 0 ||| put m.faultPc.toNat 23 4 ||| put m.faultAddr.toNat 23 32
    | 0xE0 => put m.bursts.toNat 32 0 ||| put m.ended.toNat 16 32 ||| put m.perr.toNat 16 48
    | _ => 0

/-- WQS.PTRn. -/
def sqPtrWord (s : State) (n : Nat) (q : Sq) : W64 :=
  put q.head.toNat 16 0 ||| put q.tail.toNat 16 16 ||| put (ringEntries s n).length 7 32 ||| putB (waitPending s n) 39 |||
    putB (sqIdle s n) 40 ||| put q.dbovr.toNat 16 48

/-- WQS.DONEn: DONE and the members folded into the unclosed batch. -/
def sqDoneWord (q : Sq) : W64 :=
  let open_ := match q.batches.find? fun x => !x.closed with
    | some x => x.folded
    | none => 0
  put q.done.toNat 32 0 ||| put open_ 16 32

def readWQS (s : State) (o : Nat) : W64 :=
  let n := (o / 8) % 64
  match tget s.sqs n with
  | none => if o < 0x200 then (if o = 0x80 then 0 else regGet s blkWQS o) else 0
  | some q =>
    if inRun o 0x600 64 then sqPtrWord s n q
    else if inRun o 0x800 64 ∨ o = 0x80 then 0
    else if inRun o 0xA00 64 then sqDoneWord q
    else regGet s blkWQS o

def readWQC (s : State) (o : Nat) : W64 :=
  let n := (o / 8) % 64
  if o = 0x80 ∨ inRun o 0x800 64 then 0
  else if inRun o 0x600 64 then
    match tget s.cqs n with
    | none => 0
    | some c => put c.tail.toNat 16 0 ||| putB c.full 16 ||| put c.held.length 11 32
  else regGet s blkWQC o

/-- SCH.GUARc: the thresholds its fields name, a suspend bit for the limits of every TYPE; zero under the baseline
(R266, R365). -/
def guarWord (s : State) (c : Nat) : W64 :=
  if baseline s then 0
  else
    let rate := put (rateOf s c) 8 16
    match profileOf s c with
    | none => rate
    | some p =>
      let all4 (k : LunOp) (lim : Nat) : Bool := (List.range 4).all fun t => decide (suspendUs s c k t ≤ lim)
      (List.range 4).foldl (fun w t => w ||| putB (decide (limitUs s c .program t ≤ 600)) t ||| putB (decide (limitUs s c .read t ≤ 100)) (4 + t)) rate |||
        putB (all4 .erase 400) 8 ||| putB (all4 .program 400) 9 ||| putB (all4 .erase 150) 10 ||| putB (all4 .program 150) 11 |||
        putB ((byteAt p 4).getLsbD 1) 12

/-- SCH.USEd: charges in shares, rounded down; a channel without LUNs has none (R254, R266). -/
def useWord (s : State) (d : Nat) : W64 :=
  (List.range 8).foldl (fun w c =>
    let share := 4000000 * lunsOn s c
    w ||| put (if share = 0 then 0 else sat (chargeNs s d c * 64 / share) 8) 8 (8 * c)) 0

def readSCH (s : State) (o : Nat) : W64 :=
  if inRun o 0x80 8 then guarWord s ((o - 0x80) / 8)
  else if o = 0xC0 then (List.range 8).foldl (fun w c => w ||| put (chanSum s c) 8 (8 * c)) 0
  else if inRun o 0x200 16 then useWord s ((o - 0x200) / 8)
  else if o = 0x280 then
    put s.susCnt.toNat 16 0 ||| put s.guarCnt.toNat 16 16 ||| put s.lateCnt.toNat 16 32 ||| put s.timeoutCnt.toNat 16 48
  else regGet s blkSCH o

/-- ECC.RATEc: zero under the baseline. -/
def rateWord (s : State) (c : Nat) : W64 :=
  match profileOf s c with
  | none => 0
  | some p => (List.range 4).foldl (fun w t => w ||| put (tyByte p t 0) 3 (3 * t)) (put (pfHalf p 0x048) 12 16)

def readECC (s : State) (o : Nat) : W64 :=
  if inRun o 0xC0 8 then rateWord s ((o - 0xC0) / 8)
  else if o = 0x200 then
    put s.eccHard.toNat 16 0 ||| put s.eccHfail.toNat 16 16 ||| put s.eccSoft.toNat 16 32 ||| put s.eccSfail.toNat 16 48
  else regGet s blkECC o

def readRND (s : State) (o : Nat) : W64 :=
  if o = 0x88 then put (rndSeed (regGet s blkRND 0x80)).toNat 31 0 else regGet s blkRND o

/-- XTS.SLOTk. -/
def slotWord (s : State) (k : Nat) : W64 :=
  let v := keySlot s k
  put v.d.toNat 4 0 ||| putB v.assigned 4 ||| putB v.key.isSome 5 ||| putB (slotRetiring s k) 6 ||| put v.loads.toNat 16 16

def readXTS (s : State) (o : Nat) : W64 :=
  if inRun o 0x100 32 then slotWord s ((o - 0x100) / 8)
  else if o = 0x80 ∨ inRun o 0x280 16 then regGet s blkXTS o
  else 0

def readABA (s : State) (o : Nat) : W64 :=
  match o with
  | 0x90 => (List.range 8).foldl (fun w c => w ||| put (bandOf s c) 3 (3 * c)) 0
  | 0x98 => put s.abaOwn.toNat 16 0 ||| put s.abaHit.toNat 16 16 ||| put s.abaBorrow.toNat 16 32 ||| put s.abaNominal.toNat 16 48
  | _ => regGet s blkABA o

/-- BUF.SCRUBAd and BUF.SCRUBBd. -/
def scrubWord (s : State) (d : Nat) (second : Bool) : W64 :=
  let x := tgetD s.scrubs d {}
  if second then
    put (match x.first with
      | some a => a.toNat
      | none => 0) 23 0 ||| put x.last.toNat 23 32
  else put x.checked.toNat 32 0 ||| put x.errors.toNat 32 32

def readBUF (s : State) (o : Nat) : W64 :=
  if inRun o 0x100 32 then pageMapWord s.retired ((o - 0x100) / 8)
  else if inRun o 0x200 32 then pageMapWord s.perr ((o - 0x200) / 8)
  else if inRun o 0x300 32 then scrubWord s ((o - 0x300) / 0x10) (decide (o % 0x10 = 8))
  else match o with
  | 0x88 => regGet s blkBUF 0x88
  | 0x90 => s.lastErr
  | _ => 0

def readCWY (s : State) (o : Nat) : W64 :=
  match o with
  | 0x88 => regGet s blkCWY 0x88
  | 0x90 => s.movers.foldl (fun w e => w ||| put e.2.d.toNat 4 (4 * e.1)) 0
  | 0x98 => s.movers.foldl (fun w e => w ||| put 1 1 e.1) 0
  | 0xA0 => regGet s blkCWY 0xA0
  | 0xA8 => (List.range 4).foldl (fun w l => w ||| put (tgetD s.cwyCnt l 0).toNat 16 (16 * l)) 0
  | _ => 0

/-- The current value of a listed register, as domain `d` reads it (R556). -/
def liveReg (s : State) (d : Dom) (b o : Nat) : W64 :=
  if isHeader o then readHeader s d b o
  else if isFch b then readFCH s (b - blkFCH) o
  else if isSeq b then readSEQ s (b - blkSEQ) o
  else if isMov b then readMOV s (b - blkMOV) o
  else match b with
  | 0x00 => readGLB s o
  | 0x01 => readCLK s o
  | 0x02 => readPMU s o
  | 0x03 => readMON s o
  | 0x04 => readBOOT s o
  | 0x05 => readREC s o
  | 0x06 => readTAG s o
  | 0x07 => readFUS s o
  | 0x08 => readSEGAB s .a o
  | 0x09 => readSEGAB s .b o
  | 0x0A => readSEGC s o
  | 0x0B => readLNK s o
  | 0x0C => readCON s o
  | 0x0D => readDOM s o
  | 0x0E => readRGN s o
  | 0x0F => readEXT s o
  | 0x30 => readWQS s o
  | 0x31 => readWQC s o
  | 0x32 => readSCH s o
  | 0x33 => readECC s o
  | 0x34 => readRND s o
  | 0x35 => readXTS s o
  | 0x36 => readABA s o
  | 0x37 => readBUF s o
  | 0x38 => readCWY s o
  | _ => 0

/-! ### Snapshot groups (R560-R563) -/

/-- The domain's latch of a group. -/
def findLatch (s : State) (d : Dom) (b g : Nat) : Option Latch :=
  s.latches.find? fun l => decide (l.block = b) && decide (l.group = g) && decide (l.dom = d)

/-- Latch a group for a domain. -/
def setLatch (s : State) (x : Latch) : State :=
  { s with latches := (s.latches.filter fun l => !(decide (l.block = x.block) && decide (l.group = x.group) && decide (l.dom = x.dom))) ++ [x] }

/-- A read of one register within a domain's rights: the first of a group latches it, another member shows the latch (R560).
Reading recorder records reports those that fail parity (R459). -/
def readReg (s : State) (d : Dom) (b o : Nat) : State × W64 :=
  match groupOf b o with
  | none => (s, liveReg s d b o)
  | some (g, first, n) =>
    if o = first then
      let vs := (List.range n).map fun i => liveReg s d b (first + 8 * i)
      let t := setLatch s { block := b, group := g, dom := d, values := vs }
      (if b = blkREC then noteWindow t else t, vs.headD 0)
    else match findLatch s d b g with
      | some l => (s, l.values.getD ((o - first) / 8) 0)
      | none =>
        let v := liveReg s d b o
        if b = blkREC ∧ o < 0x200 then (noteRecord s ((windowSeqs s).getD ((o - 0x100) / 16) 0), v) else (s, v)

/-- The first of `n` addresses from `a` that a domain may not read, and the violation (R546, R551, R557). -/
def readDenied (s : State) (d : Dom) (a n : Nat) : Option Viol :=
  ((List.range n).map fun i => a + 8 * i).findSome? fun x =>
    if !(decide (x < 2 ^ 20)) || !(listed (x / 4096) (x % 4096)) then some { kind := 6, p1 := BitVec.ofNat 32 x }
    else if canRead s d (x / 4096) (x % 4096) then none
    else some { kind := 2, p1 := BitVec.ofNat 32 x }

/-- Read `n` registers in ascending order (R557). -/
def readMany (s : State) (d : Dom) (a : Nat) : Nat → State × List W64
  | 0 => (s, [])
  | n + 1 =>
    let r := readReg s d (a / 4096) (a % 4096)
    let t := readMany r.1 d (a + 8) n
    (t.1, r.2 :: t.2)

/-- The registers a domain reads; zeros and one violation when any is outside its rights (R138, R557). -/
def readRegs (s : State) (d : Dom) (a n : Nat) (og : Origin) : State × List W64 :=
  match readDenied s d a n with
  | some v => (violate s d v og, List.replicate n 0)
  | none => readMany s d a n

/-! ### Writes -/

/-- EVS is W1C (R559); `keep` are bits that an occurrence sets in the same cycle. -/
def clearEvs (s : State) (b : Nat) (v : W64) (keep : W16) : State :=
  let h := hdr s b
  setHdr s b { h with evs := h.evs &&& ~~~(v.setWidth 16 &&& ~~~keep) }

/-- The defined EVS bits of a block. -/
def evMask (b : Nat) : W16 := BitVec.ofNat 16 (2 ^ evBits b - 1)

/-- A write of a header register by a domain with write rights (R548-R555, R562). -/
def writeHeader (s : State) (w : Dom) (b o : Nat) (v : W64) : State :=
  let h := hdr s b
  match o with
  | 0x20 => if b = blkCLK ∧ bit v 11 then { s with clk := { s.clk with gap := false } } else s
  | 0x28 => clearEvs s b v 0
  | 0x30 => setHdr s b { h with eve := v.setWidth 16 &&& evMask b }
  | 0x38 =>
    if evBits b = 0 then s
    else setHdr s b { h with evr := v.setWidth 16 &&& (if isMov b then 1#16 <<< w.toNat else 0xFFFF) }
  | 0x40 => if bit v 12 then setHdr s b { h with errCode := 0, errValid := false, errSeq := 0 } else s
  | 0x50 => if isMov b then s else setHdr s b { h with rdm := v.setWidth 16 ||| 1 }
  | 0x58 => if bit v 0 then setHdr s b { h with lock := true } else s
  | 0x60 =>
    if bit v 32 then { s with latches := s.latches.filter fun l => !(decide (l.block = b) && decide (l.dom = w)) } else s
  | 0x68 => setHdr s b { h with scr := v }
  | _ => s

/-- A write of MON.TCFG: ignored whole when it would leave a field outside its range (R513); a throttled part follows the new
rate (R500). -/
def writeTcfg (s : State) (v : W64) : State :=
  let warn := fld v 7 0
  let thr := fld v 15 8
  let rate := fld v 23 16
  let arr := fld v 27 24
  if 60 ≤ warn ∧ warn ≤ 125 ∧ 80 ≤ thr ∧ thr ≤ 130 ∧ 50 ≤ rate ∧ rate ≤ 200 ∧ 1 ≤ arr ∧ warn ≤ thr then
    let s := regStore s blkMON 0x80 v
    if s.mon.throttle then orderRates s true else s
  else s

/-- A write of CON.KILL (R132). -/
def writeKill (s : State) (v : W64) : State := if bit v 15 then closeConn s (fld v 9 0) 1 else s

/-- A write of a DOM register; CFG0.ENABLE always reads 1 (R157). -/
def writeDOM (s : State) (o : Nat) (v : W64) : State :=
  if o < 0x100 then s
  else match (o - 0x100) % 0x40 with
    | 0x00 => regStore s blkDOM o (if o = 0x100 then v ||| 1 else v)
    | 0x18 => writeWindow s (BitVec.ofNat 4 ((o - 0x100) / 0x40)) v
    | 0x30 => refreshRest (regStore s blkDOM o v)
    | 0x08 => regStore s blkDOM o v
    | 0x10 => regStore s blkDOM o v
    | _ => s

def writeCLK (s : State) (o : Nat) (v : W64) : State :=
  if inRun o 0x80 4 then writeSource s ((o - 0x80) / 8) v
  else match o with
  | 0xC0 => regStore s blkCLK o v
  | 0xD0 => regStore s blkCLK o v
  | 0xD8 => writeWallT s v
  | 0xE0 => writeForce s v
  | _ => s

def writePMU (s : State) (o : Nat) (v : W64) : State :=
  match o with
  | 0x80 => refreshRest (regStore s blkPMU o v)
  | 0x88 => writeDeep s v
  | 0x90 => { s with pmu := { s.pmu with tagwake := bit v 0 } }
  | _ => s

def writeREC (s : State) (o : Nat) (v : W64) : State :=
  match o with
  | 0x80 => regStore s blkREC o v
  | 0x88 => writeFreeze s v
  | 0x98 => writeFlush s v
  | 0xA8 => regStore s blkREC o v
  | 0xB0 => regStore s blkREC o v
  | 0xB8 => writeXcmd s v
  | _ => s

def writeTAG (s : State) (o : Nat) (v : W64) : State :=
  if inRun o 0xA0 8 then writeTdata s ((o - 0xA0) / 8) v
  else match o with
  | 0x80 => regStore s blkTAG o v
  | 0x88 => regStore s blkTAG o v
  | 0xE0 => writeTcmd s v
  | 0xE8 => writeGen s v
  | 0xF0 => { s with tag := { s.tag with pwd := v.setWidth 32 } }
  | _ => s

def writeSEGAB (s : State) (g : Seg) (o : Nat) (v : W64) : State :=
  if o = 0x80 ∨ inRun o 0x98 8 then regStore s (segBlk g) o v
  else match o with
  | 0x88 => writeMapCtl s g v
  | 0x188 => writeEvict s g v
  | _ => s

def writeMOV (s : State) (n o : Nat) (v : W64) : State :=
  match o with
  | 0x88 => writeMovCmd s n v
  | 0x90 => writeMovPoke s n
  | _ => writeMovReg s n o v

def writeWQS (s : State) (w : Dom) (o : Nat) (v : W64) (og : Origin) : State :=
  let n := (o / 8) % 64
  if o = 0x80 then writeSqClaim s w v og
  else if inRun o 0x200 64 then writeSqBase s n v
  else if inRun o 0x400 64 then writeSqCfg s n v
  else if inRun o 0x600 64 then writeSqPtr s n v
  else if inRun o 0x800 64 then ringDoorbell s n (v.setWidth 16)
  else s

def writeWQC (s : State) (w : Dom) (o : Nat) (v : W64) (og : Origin) : State :=
  let n := (o / 8) % 64
  if o = 0x80 then writeCqClaim s w v og
  else if inRun o 0x200 64 then writeCqBase s n v
  else if inRun o 0x400 64 then writeCqCfg s n v
  else if inRun o 0x800 64 then writePoke s n
  else s

def writeXTS (s : State) (o : Nat) (v : W64) (og : Origin) : State :=
  if o = 0x80 ∨ inRun o 0x400 128 then regStore s blkXTS o v
  else if inRun o 0x100 32 then writeSlot s ((o - 0x100) / 8) v
  else if inRun o 0x200 16 then writeKeyCmd s (BitVec.ofNat 4 ((o - 0x200) / 8)) v og
  else s

def writeBUF (s : State) (o : Nat) (v : W64) : State :=
  if inRun o 0x200 32 then clearPerrmap s ((o - 0x200) / 8) v
  else if inRun o 0x300 32 then (if o % 0x10 = 0 then clearScrub s ((o - 0x300) / 0x10) else s)
  else if o = 0x80 then writeRetire s v
  else s

/-- A register whose fields all hold what is written. -/
def writePlain (s : State) (b o : Nat) (v : W64) : State := if regMask b o = 0 then s else regStore s b o v

/-- The effect of a write of a block-specific register by a domain with write rights; a register without writable fields
ignores it (R555). -/
def writeSpecific (s : State) (w : Dom) (og : Origin) (b o : Nat) (v : W64) : State :=
  if isFch b then writePlain s b o v
  else if isSeq b then s
  else if isMov b then writeMOV s (b - blkMOV) o v
  else match b with
  | 0x00 => if o = 0x88 then writeRst s w v else s
  | 0x01 => writeCLK s o v
  | 0x02 => writePMU s o v
  | 0x03 => if o = 0x80 then writeTcfg s v else s
  | 0x04 => if o = 0x98 then writeBootCmd s v else writePlain s b o v
  | 0x05 => writeREC s o v
  | 0x06 => writeTAG s o v
  | 0x07 => if o = 0x120 then writeFuseCmd s v else writePlain s b o v
  | 0x08 => writeSEGAB s .a o v
  | 0x09 => writeSEGAB s .b o v
  | 0x0C => if o = 0xA0 then writeKill s v else writePlain s b o v
  | 0x0D => writeDOM s o v
  | 0x0E => if inRun o 0x80 16 then writeRegion s (BitVec.ofNat 4 ((o - 0x80) / 8)) v og else s
  | 0x0F => if o = 0x90 then writeExtCmd s v else writePlain s b o v
  | 0x30 => writeWQS s w o v og
  | 0x31 => writeWQC s w o v og
  | 0x32 => if inRun o 0x100 16 then writeReservation s (BitVec.ofNat 4 ((o - 0x100) / 8)) v else s
  | 0x35 => writeXTS s o v og
  | 0x37 => writeBUF s o v
  | 0x38 => if o = 0x80 then writeAssign s v else writePlain s b o v
  | _ => writePlain s b o v

/-- Every register write: rights and lock, then the effect (R546, R550, R551, R558). -/
def writeReg (s : State) (w : Dom) (og : Origin) (a : Nat) (v : W64) : State :=
  let b := a / 4096
  let o := a % 4096
  guardedWrite s w b o og fun s => if isHeader o then writeHeader s w b o v else writeSpecific s w og b o v

/-! ### The commands of chapter 16 -/

/-- REGISTER_WRITE (R551, R558). Register addresses have bits [2:0] zero (R544). -/
def execRegisterWrite (w : Dom) (addr : BitVec 20) (v : W64) (s : State) : Host.Outcome State Fault Refusal :=
  .next (writeReg s w {} addr.toNat v)

/-- LOCK (R550). -/
def execLock (w : Dom) (block : Byte) (v : W64) (s : State) : Host.Outcome State Fault Refusal :=
  .next (writeReg s w {} (regAddr block.toNat oLCK) v)

/-- SNAPSHOT_RELEASE (R562, R563). -/
def execSnapshotRelease (w : Dom) (block : Byte) (v : W64) (s : State) : Host.Outcome State Fault Refusal :=
  .next (writeReg s w {} (regAddr block.toNat oSNP) v)

/-- ERR_CLEAR (R549). -/
def execErrClear (w : Dom) (block : Byte) (v : W64) (s : State) : Host.Outcome State Fault Refusal :=
  .next (writeReg s w {} (regAddr block.toNat oERR) v)

/-- EVENT_STATUS_CLEAR (R559): a bit whose event occurs in the cycle of the clearing write stays set. -/
def execEventStatusClear (w : Dom) (block : Byte) (v : W64) (recurring : W16) (s : State) : Host.Outcome State Fault Refusal :=
  .next (guardedWrite s w block.toNat oEVS {} fun s => clearEvs s block.toNat v recurring)

/-- SNAPSHOT_LATCH (R560): a read of a register, which latches its group when it is the group's first. -/
def execSnapshotLatch (w : Dom) (addr : BitVec 20) (s : State) : Host.Outcome State Fault Refusal :=
  .next (if accepting s then (readRegs s w addr.toNat 1 {}).1 else s)

end Sys2Proof.Machine
end

