-- ==== Sys2Proof/Machine/Transport.lean ====
section
/-! DEFINITION. Sequenced packets (R109-R154): the link's judgement, the requests of a connection, what the MB872 sends in a
DOWN slot, retransmission, link loss and the age of event copies. -/

namespace Sys2Proof.Machine

/-! ### A sequenced packet at link level (R115, R116, R488, R504, R521) -/

/-- What every sequenced packet does when it is received: it is noted, its LACK acts, an answer is owed (R116, R117). -/
def hearSequenced (s : State) (rx : Rx) : State :=
  let s := { s with pmu := { s.pmu with packetSeen := true } }
  let l := linkOf s rx.node
  let l := if rx.ackv then takeLack l (decide (rx.seg = .c)) rx.lack else l
  setLink s rx.node { l with owed := true }

/-- The packet is accepted: expected advances (R115). -/
def acceptIn (s : State) (node : BitVec 6) : State := setLink s node (takeIn (linkOf s node))

/-- A sequenced packet. `pass` is the transport's part of acceptance and `go` carries the accepted packet up. -/
def linkLevel (s : State) (rx : Rx) (pass : State → State × Bool) (go : State → State) : State :=
  let r := receive s rx
  if !r.2 || (linkOf r.1 rx.node).lost then r.1
  else
    let s := hearSequenced r.1 rx
    match judgeSeq (linkOf s rx.node) rx.lseq with
    | .duplicate => { s with linkDup := s.linkDup + 1 }
    | .ahead => { s with linkAhead := s.linkAhead + 1 }
    | .inOrder =>
      if !(accepting s) then s
      else if 2 ≤ restNow s then emit (wakeRun s) (.refusedAtLink rx.node)
      else
        let a := pass (wakeRun s)
        if a.2 then go (acceptIn a.1 rx.node) else a.1

/-- Nothing beyond the link decides acceptance. -/
def admitAll (s : State) : State × Bool := (s, true)

/-- ACK: an unsequenced packet whose LACK acts (R116, R119). -/
def execAck (rx : Rx) (s : State) : Host.Outcome State Fault Refusal :=
  .next (
    let r := receive s rx
    if r.2 && !(linkOf r.1 rx.node).lost then takeUnsequenced r.1 rx else r.1)

/-- A malformed packet: sequenced and acknowledged, discarded, recorded (R113). -/
def rejectPacket (rx : Rx) (p : Packet) (s : State) : State :=
  linkLevel s rx admitAll fun s =>
    occur { s with linkReject := s.linkReject + 1 } blkLNK 0x111 (headWord p) (put32 rx.node.toNat 6 0)

/-- A packet with a good CRC: one that R113 rejects goes no further than the link. -/
def wellFormedOnly (rx : Rx) (p : Packet) (go : State → State) (s : State) : State :=
  if malformed p then rejectPacket rx p s else go s

/-- PACKET_REJECTED (R113): the header and payload of a host packet, judged by R113; a packet that it does not reject is the
command of its TYPE and not this one, and one too short to hold a header is the same. -/
def execPacketRejected (rx : Rx) (bytes : List Byte) (s : State) : Host.Outcome State Fault Refusal :=
  .next (match packetOfBytes bytes with
    | some p => wellFormedOnly (rxOf rx p.hd) p id s
    | none => s)

/-- OPEN (R124-R130). -/
def execOpenConn (rx : Rx) (nonce key : W32) (d : Dom) (events pin : Bool) (credits : Byte) (rseq0 : W16) (s : State) :
    Host.Outcome State Fault Refusal :=
  .next (wellFormedOnly rx (openPacket rx nonce key d events pin credits rseq0)
    (fun s => linkLevel s rx admitAll fun s => judgeOpen s rx.node nonce key d events pin credits.toNat rseq0) s)

/-! ### A request at the transport (R129, R133-R147) -/

/-- A request is accepted when its connection's context loads and its credits suffice (R129, R135, R438 kind 7). -/
def admitRequest (rq : Req) (len : Nat) (s : State) : State × Bool :=
  match connFor s rq.conn rq.rx.node with
  | none => (s, true)
  | some c =>
    let k := rq.conn.toNat
    let bad := if s.cache.contains k then [] else chargedFailing s c.base 128
    if !bad.isEmpty then (noteFailing s 7 bad, false)
    else if c.grant < c.used + reqCost len then (occur (useContext s k) blkLNK 0x112 (put32 k 10 0) 0, false)
    else (useContext s k, true)

/-- The answer to a request on a connection not open for its sender (R133). -/
def answerNoConn (s : State) (rq : Req) (type : Byte) : State :=
  let rep := mkReply rq.conn rq.rseq type (Config.noConnEpoch s.freeCtr) { rst := rstNO_CONN }
  enqueue { s with freeCtr := s.freeCtr + 1 } rq.rx.node { reply := rep, replay := false, credit := 0 }

/-- A well-formed request: the link, then the connection, then its sequence, then its effect. -/
def serveRequest (rq : Req) (type : Byte) (len : Nat) (run : State → Conn → State × Answered) (s : State) : State :=
  linkLevel s rq.rx (admitRequest rq len) fun s =>
    match connFor s rq.conn rq.rx.node with
    | none => answerNoConn s rq type
    | some c => judgeRequest s rq type len c run

/-- Every request packet: one that R113 rejects is acknowledged and discarded, any other is served. -/
def request (rq : Req) (p : Packet) (run : State → Conn → State × Answered) (s : State) : State :=
  wellFormedOnly rq.rx p (serveRequest rq p.hd.type p.payload.length run) s

/-- The origin of a request's violation (R181). -/
def reqOrigin (rq : Req) : Origin := { conn := rq.conn }

def done : Answered := { rst := rstDONE }

/-- CLOSE's effect. -/
def runClose (rq : Req) (s : State) (_c : Conn) : State × Answered := (closeConn s rq.conn.toNat 0, done)

/-- CLOSE (R132). -/
def execClose (rq : Req) (s : State) : Host.Outcome State Fault Refusal := .next (request rq (reqPacket rq tyCLOSE 0 []) (runClose rq) s)

/-- CON_KILL (R132, R155): a write of CON.KILL. -/
def execConKill (w : Dom) (v : W64) (s : State) : Host.Outcome State Fault Refusal :=
  .next (guardedWrite s w blkCON 0xA0 {} fun s => writeKill s v)

/-- REGION_WRITE's effect: all the bytes or none (R137, R138). -/
def runRegionWrite (rq : Req) (key : W32) (off : Nat) (data : List Byte) (s : State) (c : Conn) : State × Answered :=
  match checkRegion s c.d key off data.length true with
  | .error v => (violate s c.d v (reqOrigin rq), done)
  | .ok a => (memWrite s a data, done)

/-- REGION_WRITE. -/
def execRegionWrite (rq : Req) (key : W32) (offset : BitVec 23) (data : List Byte) (s : State) :
    Host.Outcome State Fault Refusal :=
  .next (request rq (regionWritePacket rq key offset data) (runRegionWrite rq key offset.toNat data) s)

/-- REGION_READ's effect: the bytes, failing ones as zero with RST PARITY; zeros outside the rights (R137, R138, R438). -/
def runRegionRead (rq : Req) (key : W32) (off n : Nat) (s : State) (c : Conn) : State × Answered :=
  match checkRegion s c.d key off n false with
  | .error v => (violate s c.d v (reqOrigin rq), { rst := rstDONE, data := List.replicate n 0 })
  | .ok a =>
    let bad := failing s a n
    (noteFailing s 1 bad, { rst := if bad.isEmpty then rstDONE else rstPARITY, data := memReadZeroed s a n })

/-- REGION_READ. -/
def execRegionRead (rq : Req) (key : W32) (offset : BitVec 23) (len : W32) (s : State) : Host.Outcome State Fault Refusal :=
  .next (request rq (regionReadPacket rq key offset len) (runRegionRead rq key offset.toNat len.toNat) s)

/-- REG_WRITE's effect. -/
def runRegWrite (rq : Req) (addr : Nat) (v : W64) (s : State) (c : Conn) : State × Answered :=
  (writeReg s c.d (reqOrigin rq) addr v, done)

/-- REG_WRITE. -/
def execRegWrite (rq : Req) (addr : BitVec 20) (v : W64) (s : State) : Host.Outcome State Fault Refusal :=
  .next (request rq (regWritePacket rq addr v) (runRegWrite rq addr.toNat v) s)

/-- REG_READ's effect: the registers in ascending order (R557). -/
def runRegRead (rq : Req) (addr n : Nat) (s : State) (c : Conn) : State × Answered :=
  let r := readRegs s c.d addr n (reqOrigin rq)
  (r.1, { rst := rstDONE, data := bytesOf r.2 })

/-- REG_READ. -/
def execRegRead (rq : Req) (addr : BitVec 20) (countM1 : BitVec 5) (s : State) : Host.Outcome State Fault Refusal :=
  .next (request rq (regReadPacket rq addr countM1) (runRegRead rq addr.toNat (countM1.toNat + 1)) s)

/-- DOORBELL's effect (R196, R197). -/
def runDoorbell (rq : Req) (n : Nat) (t : W16) (s : State) (c : Conn) : State × Answered :=
  (checkedDoorbell s c.d n t (reqOrigin rq), done)

/-- DOORBELL. -/
def execDoorbell (rq : Req) (ring : BitVec 6) (tail : W16) (s : State) : Host.Outcome State Fault Refusal :=
  .next (request rq (doorbellPacket rq ring tail) (runDoorbell rq ring.toNat tail) s)

/-- A SEND delivered to a target with a posted buffer (R140). The MESSAGE copy's source block is CON. DESIGN CHOICE: R150 and
R452 name none. -/
def deliver (rq : Req) (t : Nat) (tc : Conn) (entry : W64) (rest : List W64) (data : List Byte) (s : State) : State :=
  let s := { s with conns := tset s.conns t { tc with posted := rest } }
  let key := BitVec.ofNat 32 (fld entry 31 0)
  match checkRegion s tc.d key (fld entry 54 32) 256 true with
  | .error v => violate s tc.d v (reqOrigin rq)
  | .ok a =>
    copyTo (memWrite s a data) 3 blkCON 0x207 (put32 rq.conn.toNat 10 0 ||| put32 data.length 9 16) key [t]

/-- SEND's effect (R137, R138, R140). -/
def runSend (rq : Req) (t : Nat) (data : List Byte) (s : State) (c : Conn) : State × Answered :=
  let outside : State × Answered := (violate s c.d { kind := 9, p1 := put32 t 10 0 } (reqOrigin rq), done)
  match tget s.conns t with
  | none => if c.d = 0 then (s, { rst := rstNO_BUFFER }) else outside
  | some tc =>
    if tc.d ≠ c.d ∧ c.d ≠ 0 then outside
    else match tc.posted with
      | [] => (s, { rst := rstNO_BUFFER })
      | e :: rest => (deliver rq t tc e rest data s, done)

/-- SEND. -/
def execSend (rq : Req) (target : BitVec 10) (data : List Byte) (s : State) : Host.Outcome State Fault Refusal :=
  .next (request rq (sendPacket rq target data) (runSend rq target.toNat data) s)

/-- POST's entries in order: the posted list, how many were accepted, the first failing check (R139). -/
def judgePosts (s : State) (d : Dom) : List W64 → List W64 × Nat × Option Viol → List W64 × Nat × Option Viol
  | [], x => x
  | e :: t, (l, n, bad) =>
    match checkRegion s d (BitVec.ofNat 32 (fld e 31 0)) (fld e 54 32) 256 true with
    | .error v => judgePosts s d t (l, n, bad.orElse fun _ => some v)
    | .ok _ => if l.length < 8 then judgePosts s d t (l ++ [e], n + 1, bad) else judgePosts s d t (l, n, bad)

/-- POST's effect (R139); bits [63:55] of an entry are reserved. -/
def runPost (rq : Req) (es : List W64) (s : State) (c : Conn) : State × Answered :=
  let held := ((tget s.conns rq.conn.toNat).map fun (x : Conn) => x.posted).getD []
  let r := judgePosts s c.d (es.map fun e => e &&& 0x007FFFFFFFFFFFFF) (held, 0, none)
  let s := { s with conns := tmod s.conns rq.conn.toNat fun x => { x with posted := r.1 } }
  let s := match r.2.2 with
    | some v => violate s c.d v (reqOrigin rq)
    | none => s
  (s, { rst := rstDONE, param := BitVec.ofNat 16 r.2.1 })

/-- POST. -/
def execPost (rq : Req) (entries : List W64) (s : State) : Host.Outcome State Fault Refusal :=
  .next (request rq (postPacket rq entries) (runPost rq entries) s)

/-! ### Slots, timers and loss (R117-R121, R154) -/

/-- The unacknowledged packets go out again, oldest first (R119, R120). -/
def restartRound (l : LinkSt) : LinkSt := { l with resend := if l.lost then l.resend else l.unacked }

/-- The node of an UP or DOWN data slot. -/
def slotNode (s : State) (g : Seg) (k : BitVec 6) (down : Bool) : Option (BitVec 6) :=
  let b := slotByte s g k.toNat
  if slotKind b = 1 ∧ slotDown b = down ∧ 1 ≤ slotIdx b ∧ slotIdx b ≤ 14 then some (nodeId g (BitVec.ofNat 4 (slotIdx b)))
  else none

/-- The end of a host's UP slot (R119). -/
def endUpSlot (s : State) (g : Seg) (k : BitVec 6) : State :=
  match slotNode s g k false with
  | none => s
  | some node =>
    if (nodeSt (segAB s g) (nodeIdx node)).state = .joined then
      let l := linkOf s node
      setLink s node (if l.gotUp then { l with gotUp := false } else restartRound l)
    else s

/-- UP_SLOT_END (R99, R119): the slot of A or B ends. -/
def execUpSlotEnd (g : Seg) (k : BitVec 6) (s : State) : Host.Outcome State Fault Refusal :=
  .next (match g with
    | .c => s
    | g => if segOn s g then endUpSlot (settleHit (enterSlot s g k) g (k.toNat + 1)) g k else s)

/-- The characters of what was last shown the outside. -/
def lastChars (s : State) : List (List Sym) :=
  match s.out.getLast? with
  | some (.packet _ _ _ _ _ _ c) => c
  | some (.ackPkt _ _ _ c) => c
  | _ => []

/-- The MB872 sends in a DOWN slot, which its own packet then occupies (R66, R117). -/
def sendDown (s : State) (g : Seg) (k : BitVec 6) (node : BitVec 6) : State :=
  let t := sendOne s node true
  if s.out.length < t.out.length then holdSlot t g k (airOf (lastChars t)) else t

/-- DOWN_SLOT (R117, R123): the MB872 sends to the host of the slot; on C, to the joined host. -/
def execDownSlot (g : Seg) (k : BitVec 6) (s : State) : Host.Outcome State Fault Refusal :=
  .next (match g with
    | .c => if beaconOn s .c && reachable s (cNode s) then sendOne s (cNode s) false else s
    | g =>
      if segOn s g then
        let s := enterSlot s g k
        match slotNode s g k true with
        | some node => if beaconOn s g && reachable s node then sendDown s g k node else s
        | none => s
      else s)

/-- RTXC in core cycles; 0 acts as 1 (R155). -/
def rtxCycles (s : State) : Nat := 400 * max 1 (fld (regGet s blkLNK 0x80) 4 0)

/-- RTXC µs have passed since the oldest unacknowledged packet was last sent (R120). -/
def rtxDue (s : State) (l : LinkSt) : Bool :=
  match l.unacked with
  | [] => false
  | p :: _ => decide (p.sent + rtxCycles s ≤ latest s)

/-- RETRANSMIT_TIMER_C (R120): RTXC µs without an acknowledgement of the oldest packet. -/
def execRetransmitTimerC (s : State) : Host.Outcome State Fault Refusal :=
  .next (
    let l := linkOf s (cNode s)
    if s.segC.host.isSome && rtxDue s l then setLink s (cNode s) (restartRound l) else s)

/-- LOSTFR; values below 16 act as 16. -/
def lostFrames (s : State) : Nat := max 16 (fld (regGet s blkLNK 0x80) 15 8)

/-- The host of a link is joined and neither muted nor required to range (R121). -/
def linkJoined (s : State) (node : BitVec 6) : Bool :=
  if onSeg .c node then
    match s.segC.host with
    | some h => decide (nodeId .c h.index = node)
    | none => false
  else
    (onSeg .a node || onSeg .b node) &&
      decide ((nodeSt (segAB s (if onSeg .a node then .a else .b)) (nodeIdx node)).state = .joined)

/-- On A or B the host must range (R121). -/
def requireRange (s : State) (node : BitVec 6) : State :=
  if onSeg .c node then s
  else
    let g : Seg := if onSeg .a node then .a else .b
    let sg := segAB s g
    setSegAB s g (setNode sg (nodeIdx node) { nodeSt sg (nodeIdx node) with state := .mustRange })

/-- LINK_LOST (R121). -/
def execLinkLost (node : BitVec 6) (s : State) : Host.Outcome State Fault Refusal :=
  .next (
    let l := linkOf s node
    if linkJoined s node ∧ !l.lost ∧ !l.unacked.isEmpty ∧ lostFrames s ≤ l.silent then
      requireRange (linkLose (occur s blkLNK 0x110 (put32 node.toNat 6 0) 0) node) node
    else s)

/-- Take an event copy out of the unacknowledged packets of a lost link. -/
def takeCopy (k : Nat) (q : W16) (l : LinkSt) : LinkSt :=
  { l with unacked := l.unacked.map fun p =>
      match p.body with
      | .events j es => if j.toNat = k then { p with body := .events j (es.filter fun e => decide (e.evseq ≠ q)) } else p
      | _ => p }

/-- A copy of 64 frames' age or more. -/
def tooOld (s : State) (e : EventRec) : Bool := decide (64 ≤ s.frames - e.made)

/-- The oldest copy of a connection that is held, or carried in an unacknowledged packet of a lost link (R121, R154). -/
def oldestCopy (s : State) (k : Nat) (c : Conn) : Option EventRec :=
  let l := linkOf s c.node
  ((if l.lost then copiesOf k l.unacked else []) ++ c.held).head?

/-- EVENT_DROPPED (R154): a copy not sent within 64 frames of being made. -/
def execEventDropped (conn : BitVec 10) (s : State) : Host.Outcome State Fault Refusal :=
  .next (
    let k := conn.toNat
    match tget s.conns k with
    | none => s
    | some c =>
      match oldestCopy s k c with
      | none => s
      | some e =>
        if tooOld s e then
          let l := linkOf s c.node
          let s := if l.lost then setLink s c.node (takeCopy k e.evseq l) else s
          let s := { s with conns := tset s.conns k { c with held := c.held.filter fun x => decide (x.evseq ≠ e.evseq) } }
          noteDrop s k e.evseq
        else s)

end Sys2Proof.Machine
end

