-- ==== Sys2Proof/Machine/Frame.lean ====
section
/-! DEFINITION. The frame boundary (R61): the end of the old frame on every segment, the clock, the counts that run in frames,
and the new frame's beacons. -/

namespace Sys2Proof.Machine

/-- One link at the end of a frame (R121): a frame counts towards LOSTFR when the joined host sent no accepted packet in it
while packets to it wait for their acknowledgement. -/
def endLinkFrame (s : State) (node : BitVec 6) (l : LinkSt) : LinkSt :=
  { l with
    heard := false
    silent := if l.heard || l.unacked.isEmpty then 0 else if linkJoined s node then l.silent + 1 else l.silent }

def endFrameLinks (s : State) : State :=
  { s with links := s.links.map fun e => (e.1, endLinkFrame s (BitVec.ofNat 6 e.1) e.2) }

/-- The timekeeper had no usable tick in the frame that ended: holdover begins (R56), unless a switch is due. -/
def checkHoldover (s : State) : State :=
  if !s.clk.drain && !s.clk.holdover && s.clk.tk.isSome && decide (0 < s.clk.missed) && !(switchDue s) then enterHoldover s else s

/-- Holdover expires at this boundary: its beacons stop (R59). -/
def expiring (s : State) : Bool := s.clk.holdover && decide (16 ≤ s.clk.holdcnt) && !(switchDue s)

/-- The clock as the new frame's beacons show it: a switch due at this boundary is made (R54, R55). -/
def beaconClock (s : State) : Clk :=
  { s.clk with tk := dueKeeper s, holdover := s.clk.holdover && !(switchDue s) }

/-- The beacons of the new frame (R73, R74, R88). -/
def sendBeacons (s : State) : State :=
  if expiring s then s
  else
    let t := sendBeacon (sendBeacon (sendBeacon { s with clk := beaconClock s } .a) .b) .c
    { t with clk := s.clk }

/-- The frame's end on the segments and in the clock, in the old frame. -/
def endFrame (s : State) (cki : Option Int) : State := endFrameClock (endFrameAB (endFrameAB s .a) .b) cki

/-- What is counted in frames: link silence, WAIT FRAMES, the freeze, the harmless state (R121, R408, R456, R509). -/
def countFrames (s : State) : State :=
  let s := moverFrame (endFrameLinks s)
  harmlessFrame { s with recorder := countFreeze s.recorder
                         pmu := { s.pmu with packetPrev := s.pmu.packetSeen, packetSeen := false } }

/-- The whole boundary. -/
def frameBoundary (s : State) (cki : Option Int) : State :=
  sendBeacons (autoMirror (checkHoldover (advanceFrame (countFrames (endFrame s cki)))))

/-- FRAME_BOUNDARY (R61): frame time runs. -/
def execFrameBoundary (cki : Option Int) (s : State) : Host.Outcome State Fault Refusal :=
  .next (if live s && !s.clk.stopped then frameBoundary s cki else s)

/-- With no command waiting, one core cycle of frame time passes within the frame (R13); nothing else happens. -/
def idle (s : State) : State := if live s && !s.clk.stopped then { s with now := s.now.cycle } else s

end Sys2Proof.Machine
end

