-- ==== Sys2Proof/Machine/Dispatch.lean ====
section
/-! DEFINITION. Which meaning each command has: one arm per constructor of `Instr`. -/

namespace Sys2Proof.Machine

def exec (i : Instr) (s : State) : Host.Outcome State Fault Refusal :=
  match i with
  | .tick rx sequence interval count => Sys2Proof.Machine.execTick rx sequence interval count s
  | .forwardedClockLost => Sys2Proof.Machine.execForwardedClockLost s
  | .acquisitionWindowEnd => Sys2Proof.Machine.execAcquisitionWindowEnd s
  | .faultyExpiry node => Sys2Proof.Machine.execFaultyExpiry node s
  | .sourceQualified node => Sys2Proof.Machine.execSourceQualified node s
  | .frameBoundary cki => Sys2Proof.Machine.execFrameBoundary cki s
  | .timekeeperSwitch => Sys2Proof.Machine.execTimekeeperSwitch s
  | .timekeeperRevert => Sys2Proof.Machine.execTimekeeperRevert s
  | .force w v => Sys2Proof.Machine.execForce w v s
  | .forceSwitch => Sys2Proof.Machine.execForceSwitch s
  | .sourceListWrite w n v => Sys2Proof.Machine.execSourceListWrite w n v s
  | .sourceDemotion => Sys2Proof.Machine.execSourceDemotion s
  | .holdoverExpired => Sys2Proof.Machine.execHoldoverExpired s
  | .drainTimeout => Sys2Proof.Machine.execDrainTimeout s
  | .wallSet w v => Sys2Proof.Machine.execWallSet w v s
  | .join rx index nonce => Sys2Proof.Machine.execJoin rx index nonce s
  | .range rx index nonce => Sys2Proof.Machine.execRange rx index nonce s
  | .ack rx => Sys2Proof.Machine.execAck rx s
  | .erroredReception rx errs crcBad => Sys2Proof.Machine.execErroredReception rx errs crcBad s
  | .packetRejected rx bytes => Sys2Proof.Machine.execPacketRejected rx bytes s
  | .upSlotEnd seg slot => Sys2Proof.Machine.execUpSlotEnd seg slot s
  | .downSlot seg slot => Sys2Proof.Machine.execDownSlot seg slot s
  | .retransmitTimerC => Sys2Proof.Machine.execRetransmitTimerC s
  | .muteEnd seg index => Sys2Proof.Machine.execMuteEnd seg index s
  | .linkLost node => Sys2Proof.Machine.execLinkLost node s
  | .mapAnnounce w seg v => Sys2Proof.Machine.execMapAnnounce w seg v s
  | .mapActive seg => Sys2Proof.Machine.execMapActive seg s
  | .evict w seg v => Sys2Proof.Machine.execEvict w seg v s
  | .nodeRemoved seg => Sys2Proof.Machine.execNodeRemoved seg s
  | .laneAlignLost lanes => Sys2Proof.Machine.execLaneAlignLost lanes s
  | .laneAlign skew => Sys2Proof.Machine.execLaneAlign skew s
  | .segWake sig => Sys2Proof.Machine.execSegWake sig s
  | .openConn rx nonce openkey d events pin credits rseq0 => Sys2Proof.Machine.execOpenConn rx nonce openkey d events pin credits rseq0 s
  | .close rq => Sys2Proof.Machine.execClose rq s
  | .conKill w v => Sys2Proof.Machine.execConKill w v s
  | .regionWrite rq key offset data => Sys2Proof.Machine.execRegionWrite rq key offset data s
  | .regionRead rq key offset len => Sys2Proof.Machine.execRegionRead rq key offset len s
  | .regWrite rq addr v => Sys2Proof.Machine.execRegWrite rq addr v s
  | .regRead rq addr countM1 => Sys2Proof.Machine.execRegRead rq addr countM1 s
  | .doorbell rq ring tail => Sys2Proof.Machine.execDoorbell rq ring tail s
  | .doorbellRegister w ring v => Sys2Proof.Machine.execDoorbellRegister w ring v s
  | .send rq target data => Sys2Proof.Machine.execSend rq target data s
  | .post rq entries => Sys2Proof.Machine.execPost rq entries s
  | .eventDropped conn => Sys2Proof.Machine.execEventDropped conn s
  | .windowWrite w d v => Sys2Proof.Machine.execWindowWrite w d v s
  | .latencyBudget w d v => Sys2Proof.Machine.execLatencyBudget w d v s
  | .regionRegister w d v => Sys2Proof.Machine.execRegionRegister w d v s
  | .regionDeregister w d v => Sys2Proof.Machine.execRegionDeregister w d v s
  | .regionFreed index => Sys2Proof.Machine.execRegionFreed index s
  | .extentInstall w v => Sys2Proof.Machine.execExtentInstall w v s
  | .extentRemove w v => Sys2Proof.Machine.execExtentRemove w v s
  | .extentReadBack w v => Sys2Proof.Machine.execExtentReadBack w v s
  | .extentOpInvalid w v => Sys2Proof.Machine.execExtentOpInvalid w v s
  | .sqClaim w v => Sys2Proof.Machine.execSqClaim w v s
  | .sqRelease w v => Sys2Proof.Machine.execSqRelease w v s
  | .cqClaim w v => Sys2Proof.Machine.execCqClaim w v s
  | .cqRelease w v => Sys2Proof.Machine.execCqRelease w v s
  | .sqEnable w ring v => Sys2Proof.Machine.execSqEnable w ring v s
  | .sqDisable w ring v => Sys2Proof.Machine.execSqDisable w ring v s
  | .cqEnable w ring v => Sys2Proof.Machine.execCqEnable w ring v s
  | .cqDisable w ring v => Sys2Proof.Machine.execCqDisable w ring v s
  | .sqPointerWrite w ring v => Sys2Proof.Machine.execSqPointerWrite w ring v s
  | .cqPoke w ring v => Sys2Proof.Machine.execCqPoke w ring v s
  | .entryFetch ring => Sys2Proof.Machine.execEntryFetch ring s
  | .nop e => Sys2Proof.Machine.execNop e s
  | .waitCount e => Sys2Proof.Machine.execWaitCount e s
  | .waitTimeout e => Sys2Proof.Machine.execWaitTimeout e s
  | .entryExpiry e => Sys2Proof.Machine.execEntryExpiry e s
  | .read e => Sys2Proof.Machine.execRead e s
  | .checkRead e => Sys2Proof.Machine.execCheckRead e s
  | .program e => Sys2Proof.Machine.execProgram e s
  | .mirrorProgram e leg => Sys2Proof.Machine.execMirrorProgram e leg s
  | .copy e => Sys2Proof.Machine.execCopy e s
  | .erase e => Sys2Proof.Machine.execErase e s
  | .paramRead e page crcOk => Sys2Proof.Machine.execParamRead e page crcOk s
  | .getFeatures e p => Sys2Proof.Machine.execGetFeatures e p s
  | .setFeatures e => Sys2Proof.Machine.execSetFeatures e s
  | .targetReset e => Sys2Proof.Machine.execTargetReset e s
  | .suspendPolicy e => Sys2Proof.Machine.execSuspendPolicy e s
  | .abacusExport e => Sys2Proof.Machine.execAbacusExport e s
  | .abacusImport e => Sys2Proof.Machine.execAbacusImport e s
  | .jobDispatch ch job lun latch bus lockstepOk => Sys2Proof.Machine.execJobDispatch ch job lun latch bus lockstepOk s
  | .watchdog ch => Sys2Proof.Machine.execWatchdog ch s
  | .pollDue ch lun => Sys2Proof.Machine.execPollDue ch lun s
  | .rbRise ch group status => Sys2Proof.Machine.execRbRise ch group status s
  | .rbStuck ch group => Sys2Proof.Machine.execRbStuck ch group s
  | .suspendFailed ch lun => Sys2Proof.Machine.execSuspendFailed ch lun s
  | .lunTimeout ch lun => Sys2Proof.Machine.execLunTimeout ch lun s
  | .schedulingWindow => Sys2Proof.Machine.execSchedulingWindow s
  | .reservationWrite w d v => Sys2Proof.Machine.execReservationWrite w d v s
  | .sectorDecoded e leg plane sector soft r => Sys2Proof.Machine.execSectorDecoded e leg plane sector soft r s
  | .completion e => Sys2Proof.Machine.execCompletion e s
  | .channelDiscovery ch vccqMv targets => Sys2Proof.Machine.execChannelDiscovery ch vccqMv targets s
  | .discoveryRbTimeout ch vccqMv targets ready => Sys2Proof.Machine.execDiscoveryRbTimeout ch vccqMv targets ready s
  | .rateChange ch => Sys2Proof.Machine.execRateChange ch s
  | .keyLoad w d v => Sys2Proof.Machine.execKeyLoad w d v s
  | .keyZero w d v => Sys2Proof.Machine.execKeyZero w d v s
  | .slotAssign w k v => Sys2Proof.Machine.execSlotAssign w k v s
  | .containerCheck personality src secondary bytes faults => Sys2Proof.Machine.execContainerCheck personality src secondary bytes faults s
  | .pairOutcome => Sys2Proof.Machine.execPairOutcome s
  | .fuseKeyHash w v => Sys2Proof.Machine.execFuseKeyHash w v s
  | .fuseImageKey w v => Sys2Proof.Machine.execFuseImageKey w v s
  | .fuseFleetKey w v => Sys2Proof.Machine.execFuseFleetKey w v s
  | .fuseRevoke w v => Sys2Proof.Machine.execFuseRevoke w v s
  | .fuseCounterAdvance w v => Sys2Proof.Machine.execFuseCounterAdvance w v s
  | .fuseEncreq w v => Sys2Proof.Machine.execFuseEncreq w v s
  | .fuseInvalid w v => Sys2Proof.Machine.execFuseInvalid w v s
  | .fuseProgrammed readBackOk => Sys2Proof.Machine.execFuseProgrammed readBackOk s
  | .moverAssign w v => Sys2Proof.Machine.execMoverAssign w v s
  | .moverFree w v => Sys2Proof.Machine.execMoverFree w v s
  | .moverGo w n v => Sys2Proof.Machine.execMoverGo w n v s
  | .moverStop w n v => Sys2Proof.Machine.execMoverStop w n v s
  | .moverClear w n v => Sys2Proof.Machine.execMoverClear w n v s
  | .moverPoke w n v => Sys2Proof.Machine.execMoverPoke w n v s
  | .move n => Sys2Proof.Machine.execMove n s
  | .fill n => Sys2Proof.Machine.execFill n s
  | .crc n => Sys2Proof.Machine.execCrc n s
  | .wait n => Sys2Proof.Machine.execWait n s
  | .moverWake n => Sys2Proof.Machine.execMoverWake n s
  | .loop n => Sys2Proof.Machine.execLoop n s
  | .signal n => Sys2Proof.Machine.execSignal n s
  | .link n => Sys2Proof.Machine.execLink n s
  | .endProgram n => Sys2Proof.Machine.execEndProgram n s
  | .registerSetEnd n => Sys2Proof.Machine.execRegisterSetEnd n s
  | .burstGrant writePort ready => Sys2Proof.Machine.execBurstGrant writePort ready s
  | .pageRetire w v => Sys2Proof.Machine.execPageRetire w v s
  | .scrubClear w d v => Sys2Proof.Machine.execScrubClear w d v s
  | .freeze w v => Sys2Proof.Machine.execFreeze w v s
  | .thaw w v => Sys2Proof.Machine.execThaw w v s
  | .freezeExpiry => Sys2Proof.Machine.execFreezeExpiry s
  | .recorderExport w v => Sys2Proof.Machine.execRecorderExport w v s
  | .recFlush w v => Sys2Proof.Machine.execRecFlush w v s
  | .inventory slots16 afi mask => Sys2Proof.Machine.execInventory slots16 afi mask s
  | .stayQuiet uid => Sys2Proof.Machine.execStayQuiet uid s
  | .readSingleBlock addr ext opt block => Sys2Proof.Machine.execReadSingleBlock addr ext opt block s
  | .readMultipleBlocks addr ext opt first countM1 => Sys2Proof.Machine.execReadMultipleBlocks addr ext opt first countM1 s
  | .writeSingleBlock addr ext block data => Sys2Proof.Machine.execWriteSingleBlock addr ext block data s
  | .select uid => Sys2Proof.Machine.execSelect uid s
  | .resetToReady addr => Sys2Proof.Machine.execResetToReady addr s
  | .getSystemInformation addr ext => Sys2Proof.Machine.execGetSystemInformation addr ext s
  | .unlock addr password => Sys2Proof.Machine.execUnlock addr password s
  | .tileVersion addr first countM1 => Sys2Proof.Machine.execTileVersion addr first countM1 s
  | .tagUnsupportedCommand addr malformed => Sys2Proof.Machine.execTagUnsupportedCommand addr malformed s
  | .tagFieldOn => Sys2Proof.Machine.execTagFieldOn s
  | .tagFieldLost => Sys2Proof.Machine.execTagFieldLost s
  | .commit w v => Sys2Proof.Machine.execCommit w v s
  | .load w v => Sys2Proof.Machine.execLoad w v s
  | .setFieldread w v => Sys2Proof.Machine.execSetFieldread w v s
  | .tileFlip tile => Sys2Proof.Machine.execTileFlip tile s
  | .mirror w v => Sys2Proof.Machine.execMirror w v s
  | .health w v => Sys2Proof.Machine.execHealth w v s
  | .ident w v => Sys2Proof.Machine.execIdent w v s
  | .pwreset w v => Sys2Proof.Machine.execPwreset w v s
  | .passwordWrite w v => Sys2Proof.Machine.execPasswordWrite w v s
  | .powerState => Sys2Proof.Machine.execPowerState s
  | .deepHoldArm w v => Sys2Proof.Machine.execDeepHoldArm w v s
  | .deepHoldDisarm w v => Sys2Proof.Machine.execDeepHoldDisarm w v s
  | .deepHoldEnter => Sys2Proof.Machine.execDeepHoldEnter s
  | .deepHoldWake src => Sys2Proof.Machine.execDeepHoldWake src s
  | .temperatureConversion readings => Sys2Proof.Machine.execTemperatureConversion readings s
  | .supplyDip rail mv us => Sys2Proof.Machine.execSupplyDip rail mv us s
  | .supplyWarnEnd => Sys2Proof.Machine.execSupplyWarnEnd s
  | .finishWindowEnd => Sys2Proof.Machine.execFinishWindowEnd s
  | .harmlessExit => Sys2Proof.Machine.execHarmlessExit s
  | .powerOnReset => Sys2Proof.Machine.execPowerOnReset s
  | .powerUp bootsel process vddioMv => Sys2Proof.Machine.execPowerUp bootsel process vddioMv s
  | .resetNLow ns => Sys2Proof.Machine.execResetNLow ns s
  | .pgoodLow ns => Sys2Proof.Machine.execPgoodLow ns s
  | .systemResetRequest w v => Sys2Proof.Machine.execSystemResetRequest w v s
  | .systemReset bootsel process => Sys2Proof.Machine.execSystemReset bootsel process s
  | .flashReset w v => Sys2Proof.Machine.execFlashReset w v s
  | .reload w v => Sys2Proof.Machine.execReload w v s
  | .flashResetDone => Sys2Proof.Machine.execFlashResetDone s
  | .bootReady => Sys2Proof.Machine.execBootReady s
  | .lock w block v => Sys2Proof.Machine.execLock w block v s
  | .snapshotLatch w addr => Sys2Proof.Machine.execSnapshotLatch w addr s
  | .snapshotRelease w block v => Sys2Proof.Machine.execSnapshotRelease w block v s
  | .errClear w block v => Sys2Proof.Machine.execErrClear w block v s
  | .eventStatusClear w block v recurring => Sys2Proof.Machine.execEventStatusClear w block v recurring s
  | .registerWrite w addr v => Sys2Proof.Machine.execRegisterWrite w addr v s
  | .forwardedClockLock => Sys2Proof.Machine.execForwardedClockLock s
  | .systemResetRelease bootsel process => Sys2Proof.Machine.execSystemResetRelease bootsel process s
  | .brownoutRecovery => Sys2Proof.Machine.execBrownoutRecovery s

end Sys2Proof.Machine
end

