-- ==== Sys2Proof/Safety.lean ====
section
/-! DEFINITION. The terms in which claims are stated: when a register write takes effect, what recording an occurrence may
touch, when a packet or request gets through, what a step must keep. -/

namespace Sys2Proof.Machine

/-! ### Registers -/

/-- A domain's write of a register takes effect: the fabric accepts requests, the address is listed, the domain has the right
and no lock stops it (R521, R546, R550, R551). -/
def mayWrite (s : State) (w : Dom) (b o : Nat) : Bool :=
  accepting s && listed b o && canWrite s w b o && !((hdr s b).lock && lockable b o)

/-- The registers that `t` may hold otherwise than `s`: those at the listed addresses only. -/
def regsBut (s t : State) (l : List Nat) : Prop := ∀ a, a ∉ l → tget t.regs a = tget s.regs a

/-- EVS bit n of a block is set. -/
def evSet (s : State) (b n : Nat) : Bool := (hdr s b).evs.getLsbD n

/-! ### Time -/

/-- Frame time runs: after first lock, outside resets, Deep Hold and the stop of a drain. -/
def running (s : State) : Bool := live s && !s.clk.stopped

/-! ### Occurrences -/

/-- A connection but for its event queue. -/
def Conn.quiet (c : Conn) : Conn := { c with evseq := 0, held := [], evNext := 0 }

/-- `t` is `s` but for what recording occurrences writes: the recorder, the headers' event and error fields, the event queues of
connections and the count of dropped copies. -/
def OnlyNoted (s t : State) : Prop :=
  t = { s with recorder := t.recorder, hdrs := t.hdrs, conns := t.conns, evDrop := t.evDrop } ∧
  (∀ k, (tget t.conns k).map Conn.quiet = (tget s.conns k).map Conn.quiet) ∧
  ∀ b, hdr t b = { hdr s b with
    evs := (hdr t b).evs, errCode := (hdr t b).errCode, errValid := (hdr t b).errValid, errSeq := (hdr t b).errSeq }

/-- The recorder holds a record of the code with these parameters: the newest one, or the code's latest, whose tally was
raised (R447, R450). -/
def Recorded (s t : State) (b : Nat) (c : BitVec 12) (p0 p1 : W32) : Prop :=
  match raisable s.recorder c p0 p1 with
  | some (i, e) => tget t.recorder.recs i = some { e with tally := e.tally + 1 } ∧ t.recorder.seq = s.recorder.seq
  | none => ∃ e, tget t.recorder.recs (recIndex (s.recorder.seq + 1)) = some e ∧ t.recorder.seq = s.recorder.seq + 1 ∧
      e.seq = s.recorder.seq + 1 ∧ e.code = c ∧ e.source = BitVec.ofNat 7 b ∧ e.tally = 1 ∧ e.p0 = p0 ∧ e.p1 = p1

/-! ### Packets and requests -/

/-- A JOIN or RANGE of index i on segment A or B is judged: heard as the first packet of a join slot, from the node its payload
names, begun in the slot and wholly within it (R66, R78, R91, R94). What the part then is. -/
def joinHeard (s : State) (rx : Rx) (i : BitVec 4) (nonce : W32) : Option State :=
  let u := noteHolder (enterSlot s rx.seg rx.slot) rx i nonce
  let v := takeSlot u rx.seg rx.slot
  if segOn s rx.seg = true ∧ deafTo s rx = false ∧ (segAB u rx.seg).taken ≠ some rx.slot ∧
      slotKind (slotByte v rx.seg rx.slot.toNat) = 3 ∧ rx.slot ≠ 0 ∧ i ≠ 0 ∧ i ≠ 15 ∧ rx.node = nodeId rx.seg i ∧
      0 ≤ halfStrait s rx.seg + rx.edge ∧ overruns (halfStrait v rx.seg) rx.edge rx.air = false then some v
  else none

/-- A sequenced packet reaches the reader's judgement: received from a host whose link holds, in order, while the part accepts
such packets and does not rest deeply (R115, R488, R504, R521). What the part then is, before the packet is accepted. -/
def heardInOrder (s : State) (rx : Rx) : Option State :=
  let r := receive s rx
  if r.2 && !(linkOf r.1 rx.node).lost then
    let u := hearSequenced r.1 rx
    if judgeSeq (linkOf u rx.node) rx.lseq = .inOrder ∧ accepting u = true ∧ restNow u < 2 then some (wakeRun u)
    else none
  else none

/-- The same packet accepted at link level: the next sequence is expected (R115). -/
def accepted (s : State) (rx : Rx) : Option State := (heardInOrder s rx).map fun u => acceptIn u rx.node

/-- The request that a command carries, its type and the length of its payload (R112, R134). -/
def requestOf : Instr → Option (Req × Byte × Nat)
  | .close rq => some (rq, tyCLOSE, 0)
  | .regionWrite rq _ _ data => some (rq, tyREGION_WRITE, data.length)
  | .regionRead rq _ _ _ => some (rq, tyREGION_READ, 4)
  | .regWrite rq _ _ => some (rq, tyREG_WRITE, 8)
  | .regRead rq _ _ => some (rq, tyREG_READ, 0)
  | .doorbell rq _ _ => some (rq, tyDOORBELL, 0)
  | .send rq _ data => some (rq, tySEND, data.length)
  | .post rq es => some (rq, tyPOST, 8 * es.length)
  | _ => none

/-- R113 lets the packet of a request pass. -/
def passes (i : Instr) : Bool := (packetOf i).all fun p => !(malformed p)

/-- The link fields of a packet command, and the core's own count that a TICK comes with. -/
def packetRx : Instr → Option (Rx × W32)
  | .tick rx _ _ count => some (rx, count)
  | .join rx _ _ => some (rx, 0)
  | .range rx _ _ => some (rx, 0)
  | .ack rx => some (rx, 0)
  | .openConn rx _ _ _ _ _ _ _ => some (rx, 0)
  | i => (requestOf i).map fun x => (x.1.rx, 0)

/-- A packet may go to a host: in a DOWN slot of A or B to the slot's host, on C to the joined one (R114, R117). What the part
then is, and the host. -/
def downHost (s : State) (g : Seg) (k : BitVec 6) : Option (State × BitVec 6) :=
  match g with
  | .c => if beaconOn s .c && reachable s (cNode s) then some (s, cNode s) else none
  | g =>
    let u := enterSlot s g k
    match slotNode u g k true with
    | some node => if segOn s g && beaconOn u g && reachable u node then some (u, node) else none
    | none => none

/-- The context of a request's connection is held or reads well (R129, R438). -/
def contextReads (s : State) (k : Nat) (c : Conn) : Bool := s.cache.contains k || (chargedFailing s c.base 128).isEmpty

/-- A request of an open connection is accepted: its context reads and its credits suffice (R129, R133, R135). What the part
then is, before the request is judged by its sequence, and the connection. -/
def requestIn (s : State) (rq : Req) (len : Nat) : Option (State × Conn) :=
  match heardInOrder s rq.rx with
  | none => none
  | some u =>
    match connFor u rq.conn rq.rx.node with
    | none => none
    | some c =>
      if contextReads u rq.conn.toNat c = true ∧ c.used + reqCost len ≤ c.grant then
        let v := acceptIn (useContext u rq.conn.toNat) rq.rx.node
        some ({ v with conns := tset v.conns rq.conn.toNat { c with used := c.used + reqCost len } }, c)
      else none

/-- An accepted request is new: its sequence is the one expected (R146). What the part then is, and the connection as it was. -/
def taken (s : State) (rq : Req) (len : Nat) : Option (State × Conn) :=
  match requestIn s rq len with
  | none => none
  | some (v, c) =>
    if rq.rseq = c.exp then
      some ({ v with conns := tset v.conns rq.conn.toNat { c with used := c.used + reqCost len, exp := c.exp + 1 } }, c)
    else none

/-- The answer that a request without effect receives. -/
def replied (t : State) (rq : Req) (type : Byte) (len : Nat) (epoch : W16) (a : Answered) (replay : Bool) : State :=
  enqueue t rq.rx.node { reply := mkReply rq.conn rq.rseq type epoch a, replay := replay, credit := reqCost len }

/-- A new request is answered: the response is stored for a replay and queued for the host (R137, R146). -/
def responded (t : State) (rq : Req) (type : Byte) (len : Nat) (c : Conn) (a : Answered) : State :=
  let rep := mkReply rq.conn rq.rseq type (epochOf t c.d) a
  enqueue { t with conns := tmod t.conns rq.conn.toNat fun x => storeReply x rq.rseq rep } rq.rx.node
    { reply := rep, replay := false, credit := reqCost len }

/-! ### Memory -/

/-- The canonical form of a list of memory cells. -/
abbrev cellsWf (m : List Host.Cell) : Prop := tsorted m = true ∧ (m.all fun e => decide (e.1 < 2 ^ 23)) = true

/-! ### Fuses -/

/-- What a fuse field holds only grows: a blank field may change, a programmed one never does. -/
def fieldGrows : FuseField → FuseField → Prop
  | .blank, _ => True
  | .partly, y => y = .partly
  | .programmed d, y => y = .programmed d

/-- Fuses are one-time: nothing programmed, revoked or counted is ever taken back (R374, R375). -/
def fusesGrow (a b : Fus) : Prop :=
  (∀ k, fieldGrows (tgetD a.hash k .blank) (tgetD b.hash k .blank)) ∧
  (∀ i : Nat, a.revoked.getLsbD i = true → b.revoked.getLsbD i = true) ∧
  fieldGrows a.imageKey b.imageKey ∧ fieldGrows a.fleetKey b.fleetKey ∧
  a.arb ≤ b.arb ∧ (a.encreq = true → b.encreq = true)

/-- A fuse command being programmed names a field that is still blank, or a counter value not below the fused one (R375). -/
def fuseTargetBlank (f : Fus) : Prop :=
  match f.busy with
  | none => True
  | some (field, value, _) =>
    if field.toNat ≤ 3 then tgetD f.hash field.toNat .blank = .blank
    else if field.toNat = 4 then f.imageKey = .blank
    else if field.toNat = 5 then f.fleetKey = .blank
    else if field.toNat = 12 then f.arb ≤ value.toNat
    else True

end Sys2Proof.Machine
end

