-- ==== Sys2Proof/Certificates/Slice0/Obligations.lean ====
section
/-! DEFINITION. The statements for the provers: what the commands of every chapter do, over every state, and what every step
keeps. -/

open Sys2Proof Sys2Proof.Machine

/-- A step with a command at the front of the queue is the command's meaning with the rest of the queue. -/
def Obligations.StepRunsTheFrontCommand : Prop :=
  ∀ (c : Instr) (q : List Instr) (s : State), s.pending = c :: q → step s = exec c { s with pending := q }

/-- With no command waiting a step answers next: one core cycle of frame time within the frame, and nothing else (R13; that an
empty queue idles is the model's choice, log entry 2). No command's meaning touches the queue of commands that wait behind
it. -/
def Obligations.QueueIsFirstInFirstOut : Prop :=
  (∀ s : State, s.pending = [] →
    (running s = true →
      (s.now.sub.toNat < 6249 → step s = .next { s with now := { s.now with sub := s.now.sub + 1 } }) ∧
      (s.now.sub.toNat = 6249 → s.now.slot.toNat < 63 →
        step s = .next { s with now := { s.now with slot := s.now.slot + 1, sub := 0 } }) ∧
      (s.now.sub.toNat = 6249 → s.now.slot = 63 → step s = .next s)) ∧
    (running s = false → step s = .next s)) ∧
  (∀ (c : Instr) (s t : State), exec c s = .next t → t.pending = s.pending)

/-- Every step keeps buffer memory in its canonical form: addresses strictly rising, within the 8 MiB. -/
def Obligations.MemoryStaysCanonical : Prop :=
  ∀ s t : State, Memory.wf s → step s = .next t → Memory.wf t

/-- R377: a step changes what the fuses hold only while an accepted FUS.PCMD is being programmed, and then only as that command
names: its field, whole or, for a key field, partial. -/
def Obligations.FusesChangeOnlyOnAnAcceptedCommand : Prop :=
  ∀ s t : State, step s = .next t →
    { t.fus with busy := none } = { s.fus with busy := none } ∨
      ∃ f v d ok, s.fus.busy = some (f, v, d) ∧ t.fus = { burn s.fus f.toNat v.toNat d ok with busy := none }

/-- Fuses are one-time (R375, R376): where a command being programmed names a blank field, no step takes back anything that is
programmed, revoked, partial or counted, and a command being programmed still names a blank field after the step. -/
def Obligations.FusesAreOneTime : Prop :=
  ∀ s t : State, fuseTargetBlank s.fus → step s = .next t → fusesGrow s.fus t.fus ∧ fuseTargetBlank t.fus

/-- The invariants hold at reset. What reset leaves, as chapter 16 and chapter 10 give it: no record, no connection, no region,
no extent, no ring, EVE 0, EVR and RDM at their reset values, every lock open, domain 0's admission and window registers, the
frame count unset. (Where the rules leave a choice, this states the model's own: log entries 6 and 7.) -/
def Obligations.ResetLeavesTheManualsValues : Prop :=
  (Memory.wf State.reset ∧ fuseTargetBlank State.reset.fus) ∧
  (State.reset.pending = [] ∧ State.reset.recorder.seq = 0 ∧ State.reset.recorder.recs = [] ∧ State.reset.conns = [] ∧
  State.reset.regions = [] ∧ State.reset.extents = [] ∧ State.reset.sqs = [] ∧ State.reset.cqs = [] ∧ State.reset.mem = [] ∧
  State.reset.movers = [] ∧ State.reset.retired = [] ∧ State.reset.clk.locked = false ∧
  (hdr State.reset blkGLB).rdm = 0xFFFF ∧ (hdr State.reset blkDOM).rdm = 1 ∧
  (∀ b, (hdr State.reset b).eve = 0 ∧ (hdr State.reset b).evs = 0 ∧ (hdr State.reset b).lock = false ∧
    (hdr State.reset b).denied = 0 ∧ (hdr State.reset b).errValid = false ∧ (hdr State.reset b).scr = 0) ∧
  regGet State.reset blkCLK 0xC0 = 0x024014FA ∧ regGet State.reset blkDOM 0x100 = 0x1001 ∧
  regGet State.reset blkDOM 0x108 = 0xFFFFFFFFFFFFFFFF ∧ regGet State.reset blkDOM 0x118 = 0x00400000 ∧
  stamp State.reset = 0)

/-- Whatever event copies an occurrence makes, it touches nothing but the recorder, the headers' event and error fields, event
queues and the count of dropped copies. An occurrence of a code that is not "event": a new record numbered one above SEQ, or
one tally raise, as R450 says; the block's EVS bit is set whatever EVE holds; nothing else but event copies, ERR and their
queues changes (R447, R448, R450, R451, R559). -/
def Obligations.OccurrenceIsRecorded : Prop :=
  (∀ (s : State) (b : Nat) (c : BitVec 12) (p0 p1 : W32), OnlyNoted s (occur s b c p0 p1)) ∧
  (∀ (s : State) (b : Nat) (c : BitVec 12) (p0 p1 : W32), isEventOnly c = false → c ≠ 0x113 →
    (∀ n, evsBitOf b c = some n → (hdr s b).eve.getLsbD n = false) →
    Recorded s (occur s b c p0 p1) b c p0 p1 ∧ OnlyNoted s (occur s b c p0 p1) ∧
    (∀ n, n < 16 → evsBitOf b c = some n → evSet (occur s b c p0 p1) b n = true) ∧
    (occur s b c p0 p1).conns = s.conns)

/-- R27: a silent violation advances the domain's epoch by one modulo 65,536 and records or tallies VIOLATION; it leaves no other
trace. -/
def Obligations.ViolationLeavesNoOtherTrace : Prop :=
  ∀ (s : State) (d : Dom) (v : Viol) (o : Origin),
    Recorded s (violate s d v o) blkDOM 0x206 (violP0 d v o) v.p1 ∧
    violate s d v o = { s with epochs := (violate s d v o).epochs, recorder := (violate s d v o).recorder } ∧
    epochOf (violate s d v o) d = epochOf s d + 1 ∧
    ∀ e : Dom, e ≠ d → epochOf (violate s d v o) e = epochOf s e

/-- R152, R154: a copy made on a connection whose queue has room takes the next EVSEQ modulo 65,536 and joins the held copies in
a record of the event queue that no other copy holds; on a full queue the EVSEQ is used up and the copy is dropped. (Where
the rules leave a choice, this states the model's own: log entries 197 and 208.) -/
def Obligations.CopyTakesTheNextEvseq : Prop :=
  ∀ (s : State) (k : Nat) (c : Conn) (kind : Byte) (b : Nat) (code : BitVec 12) (p0 p1 : W32), tget s.conns k = some c →
    (queueCount s k c < 32 →
      pushEvent s k kind b code p0 p1 =
        ({ s with conns := tset s.conns k { c with
            evseq := c.evseq + 1
            held := c.held ++ [{ evseq := c.evseq + 1, kind := kind, source := BitVec.ofNat 8 b, code := code, time := stamp s
                                 p0 := p0, p1 := p1, made := s.frames, pos := freePos (queueOf s k c) c.evNext }]
            evNext := (freePos (queueOf s k c) c.evNext + 1) % 32 } }, none) ∧
      freePos (queueOf s k c) c.evNext < 32 ∧ ∀ e ∈ queueOf s k c, e.pos ≠ freePos (queueOf s k c) c.evNext) ∧
    (32 ≤ queueCount s k c →
      pushEvent s k kind b code p0 p1 = ({ s with conns := tset s.conns k { c with evseq := c.evseq + 1 } }, some (c.evseq + 1)))

/-- How a register write is taken (R25, R546, R550, R551): to a reserved address a silent violation of kind RESERVED; without the
right a silent violation of kind REG_WRITE; under the lock ignored and counted; nothing while the part accepts no request:
before READY, in the drain, in the harmless state. (Where the rules leave a choice, this states the model's own: log entries
19, 21, 22 and 28.) -/
def Obligations.RegisterWriteIsGuarded : Prop :=
  ∀ (s : State) (w : Dom) (addr : BitVec 20) (v : W64),
    (accepting s = false → exec (.registerWrite w addr v) s = .next s) ∧
    (accepting s = true → listed (addrBlk addr) (addrOff addr) = false →
      exec (.registerWrite w addr v) s = .next (violate s w { kind := 6, p1 := BitVec.ofNat 32 addr.toNat } {})) ∧
    (accepting s = true → listed (addrBlk addr) (addrOff addr) = true → canWrite s w (addrBlk addr) (addrOff addr) = false →
      exec (.registerWrite w addr v) s = .next (violate s w { kind := 1, p1 := BitVec.ofNat 32 addr.toNat } {})) ∧
    (accepting s = true → listed (addrBlk addr) (addrOff addr) = true → canWrite s w (addrBlk addr) (addrOff addr) = true →
      (hdr s (addrBlk addr)).lock = true → lockable (addrBlk addr) (addrOff addr) = true →
      ∃ t, exec (.registerWrite w addr v) s = .next t ∧
        (hdr t (addrBlk addr)).denied = (hdr s (addrBlk addr)).denied + 1 ∧ t = { s with hdrs := t.hdrs } ∧
        (∀ b, b ≠ addrBlk addr → hdr t b = hdr s b) ∧
        hdr t (addrBlk addr) = { hdr s (addrBlk addr) with denied := (hdr t (addrBlk addr)).denied })

/-- R63: a write of CLK.WALLT commits the pair and records WALL_SET; a write of CLK.WALLF alone commits nothing. -/
def Obligations.WallPairIsCommitted : Prop :=
  ∀ (s : State) (w : Dom) (v : W64),
    (mayWrite s w blkCLK 0xD8 = true →
      exec (.wallSet w v) s = .next (occur
        { s with regs := tset s.regs (regAddr blkCLK 0xD8) v
                 clk := { s.clk with wall := some ((regGet s blkCLK 0xD0).setWidth 32, v) } }
        blkCLK 0x009 ((regGet s blkCLK 0xD0).setWidth 32) (BitVec.ofNat 32 (v.toNat / 1000000)))) ∧
    (mayWrite s w blkCLK 0xD0 = true →
      ∃ t, exec (.registerWrite w (BitVec.ofNat 20 (regAddr blkCLK 0xD0)) v) s = .next t ∧
        (regGet t blkCLK 0xD0).setWidth 32 = v.setWidth 32 ∧ t = { s with regs := t.regs } ∧
        regsBut s t [regAddr blkCLK 0xD0])

/-- FORCE and SOURCE_LIST_WRITE (R45, R52): a FORCE of a QUALIFIED source is remembered, source and entry, for the boundary, any
other changes nothing; a source-list write stores the entry and leaves the timekeeper as it is. (Where the rules leave a
choice, this states the model's own: log entry 45.) -/
def Obligations.ForceAndSourceList : Prop :=
  ∀ (s : State) (w : Dom) (v : W64),
    (mayWrite s w blkCLK 0xE0 = true →
      (∀ key, bit v 7 = true → qualifiedEntry s (fld v 1 0) = some key →
        exec (.force w v) s = .next { s with clk := { s.clk with
          forceReq := some { entry := BitVec.ofNat 2 (fld v 1 0), node := keyNode s key } } }) ∧
      ((bit v 7 = false ∨ qualifiedEntry s (fld v 1 0) = none) → exec (.force w v) s = .next s)) ∧
    ∀ n : BitVec 2, mayWrite s w blkCLK (0x80 + 8 * n.toNat) = true →
      ∃ t, exec (.sourceListWrite w n v) s = .next t ∧
        regGet t blkCLK (0x80 + 8 * n.toNat) = (v &&& 0xF7) ||| (regGet s blkCLK (0x80 + 8 * n.toNat) &&& ~~~0xF7) ∧
        t = { s with regs := t.regs, clk := { s.clk with listDirty := true } } ∧
        regsBut s t [regAddr blkCLK (0x80 + 8 * n.toNat)]

/-- TICK (R37) in frame time, received cleanly from a listed source whose last tick was the one before: OFFSET is INTERVAL minus
the core's own count over it, in hundredths of a ppm, and the source is usable for this frame. In acquisition a TICK that no
entry of the source list matches changes nothing (R44). A TICK that reports more than 1000 ppm makes its source FAULTY for 16
frames (R38). (Where the rules leave a choice, this states the model's own: log entries 50, 191, 199 and 207.) -/
def Obligations.TicksAreMeasured : Prop :=
  ((∀ (s : State) (rx : Rx) (sequence : Byte) (interval count : W32), acquiring s = true → tickHeeded s rx = false →
    exec (.tick rx sequence interval count) s = .next s) ∧
  ∀ (s r : State) (rx : Rx) (sequence : Byte) (interval count : W32),
    running s = true → rx.seg ≠ .c → receiveAB s rx true = (r, true) → tickHeeded s rx = true →
    (srcOf r (srcKey rx.node)).faulty = 0 → (srcOf r (srcKey rx.node)).lastSeq = some (sequence - 1) → 0 < count.toNat →
    tickOut interval.toNat count.toNat = false →
    ∃ t, exec (.tick rx sequence interval count) s = .next t ∧
      (srcOf t (srcKey rx.node)).offset =
        ((interval.toNat : Int) - (count.toNat : Int)) * 100000000 / (count.toNat : Int) ∧
      (srcOf t (srcKey rx.node)).usable = true ∧ (srcOf t (srcKey rx.node)).heard = true ∧
      (srcOf t (srcKey rx.node)).lastSeq = some sequence ∧
      (∀ k, k ≠ srcKey rx.node → srcOf t k = srcOf r k) ∧
      t = { r with clk := t.clk, links := t.links } ∧ t.clk.tk = r.clk.tk ∧ t.clk.drain = r.clk.drain) ∧
  (∀ (s r : State) (rx : Rx) (sequence : Byte) (interval count : W32),
    running s = true → rx.seg ≠ .c → receiveAB s rx true = (r, true) → tickHeeded s rx = true →
    (srcOf r (srcKey rx.node)).faulty = 0 → (srcOf r (srcKey rx.node)).lastSeq = some (sequence - 1) → 0 < count.toNat →
    tickOut interval.toNat count.toNat = true →
    ∃ t, exec (.tick rx sequence interval count) s = .next t ∧ (srcOf t (srcKey rx.node)).state = .faulty ∧
      (srcOf t (srcKey rx.node)).faulty = 16 ∧ (srcOf t (srcKey rx.node)).usable = false ∧
      (∀ k, k ≠ srcKey rx.node → srcOf t k = srcOf r k) ∧ t = { r with clk := t.clk, links := t.links })

/-- FORWARDED_CLOCK_LOST and FORWARDED_CLOCK_LOCK (R40, R48): losing the clock that is timekeeper starts holdover and records
TICK_LOST; losing another changes only its own measurement; a lock in frame time only marks the forwarded clock present.
FAULTY_EXPIRY, SOURCE_QUALIFIED, SOURCE_DEMOTION (R38, R41, R45). (Where the rules leave a choice, this states the model's
own: log entries 45, 48, 52, 186, 200 and 201.) -/
def Obligations.ClockSourcesChange : Prop :=
  (∀ s : State, running s = true →
    (s.clk.cki = true → s.clk.drain = false → s.clk.holdover = false → tkIsC s.clk = true →
      ∃ c, exec .forwardedClockLost s = .next (occur { s with clk := c } blkCLK 0x004
          (put32 ((s.clk.tk.map (·.entry.toNat)).getD 0) 2 0) s.now.frame) ∧
        c.holdover = true ∧ c.holdcnt = 0 ∧ c.cki = false ∧ c.ckiLocked = false ∧ c.tk = s.clk.tk ∧ c.drain = false) ∧
    (s.clk.cki = true → tkIsC s.clk = false →
      exec .forwardedClockLost s = .next { s with clk := { s.clk with
        cki := false, ckiLocked := false
        srcs := tset s.clk.srcs 64 { srcOf s 64 with heard := false, usable := false } } }) ∧
    exec .forwardedClockLock s = .next { s with clk := { s.clk with cki := true, ckiLocked := true } }) ∧
  (∀ (s : State) (node : BitVec 6),
    ((srcOf s (srcKey node)).state = .faulty → ((srcOf s (srcKey node)).faulty = 0 ∨ acquiring s = true) →
      ∃ t, exec (.faultyExpiry node) s = .next t ∧
        (srcOf t (srcKey node)).state = (if (srcOf s (srcKey node)).silent < 2 then .heard else .absent) ∧
        (srcOf t (srcKey node)).comps = [] ∧ (srcOf t (srcKey node)).lastSeq = none ∧
        (∀ k, k ≠ srcKey node → srcOf t k = srcOf s k) ∧ t = { s with clk := { s.clk with srcs := t.clk.srcs } }) ∧
    (∀ n, entryOf s (srcKey node) = some n → (srcOf s (srcKey node)).state = .heard → 8 ≤ (srcOf s (srcKey node)).run →
      isKeeper s.clk (srcKey node) = false →
      exec (.sourceQualified node) s = .next (occur
        (setSrc s (srcKey node) { srcOf s (srcKey node) with state := .qualified, qualFor := 0 })
        blkCLK 0x008 (put32 n 2 0) 0)) ∧
    (atBoundary s = true → ∃ t, exec .sourceDemotion s = .next t ∧ t.clk.listDirty = false ∧
      t.clk.srcs = s.clk.srcs.filter (fun e => (entryOf s e.1).isSome) ∧
      (t.clk.tk.map (·.node)) = (s.clk.tk.map (·.node)) ∧ t = { s with clk := t.clk }))

/-- ACQUISITION_WINDOW_END (R47): the window closes on the highest-priority source heard, which is chosen; with none heard the
window closes and nothing is chosen. TIMEKEEPER_SWITCH, TIMEKEEPER_REVERT, FORCE_SWITCH (R50-R53): the due entry's source
becomes timekeeper, frame time does not step, SWITCHOVER carries the old and the new entry; a FORCE goes before a switch and
a switch before a revert; a FORCE whose source is no longer QUALIFIED lapses; a source that becomes QUALIFIED at this
boundary is noted so first. (Where the rules leave a choice, this states the model's own: log entries 45, 51, 189, 190 and
202.) -/
def Obligations.TimekeepersAreChosen : Prop :=
  (∀ s : State, acquiring s = true → s.clk.window = true →
    (∀ n key, firstHeard s = some n → entryStands s n = some key →
      (onSeg .c (keyNode s key) = true → s.clk.ckiLocked = false) →
      (onSeg .c (keyNode s key) = false → agreed (srcOf s (srcKey (keyNode s key))).comps = none) →
      exec .acquisitionWindowEnd s = .next { s with clk := { s.clk with
        window := false, chosen := some { entry := BitVec.ofNat 2 n, node := keyNode s key } } }) ∧
    (firstHeard s = none →
      exec .acquisitionWindowEnd s = .next { s with clk := { s.clk with window := false } })) ∧
  ((∀ (s : State) (n key : Nat), mayElect s = true →
    (forceEntry s = none → switchEntry s = some (n, key) →
      ∃ c, exec .timekeeperSwitch s = .next (occur { noteQualified s key with clk := c } blkCLK 0x005
          (BitVec.ofNat 32 ((s.clk.tk.map (·.entry.toNat)).getD 0)) (BitVec.ofNat 32 n)) ∧
        c.tk = some ⟨BitVec.ofNat 2 n, keyNode s key⟩ ∧ c.pll = s.clk.pll ∧ c.holdover = false ∧ c.switched = true) ∧
    (forceEntry s = none → switchEntry s = none → revertEntry s = some (n, key) →
      ∃ c, exec .timekeeperRevert s = .next (occur { noteQualified s key with clk := c } blkCLK 0x005
          (BitVec.ofNat 32 ((s.clk.tk.map (·.entry.toNat)).getD 0)) (BitVec.ofNat 32 n)) ∧
        c.tk = some ⟨BitVec.ofNat 2 n, keyNode s key⟩ ∧ c.pll = s.clk.pll ∧ c.holdover = false ∧ c.switched = true) ∧
    (forceEntry s = some (n, key) →
      ∃ c, exec .forceSwitch s = .next (occur { noteQualified s key with clk := c } blkCLK 0x005
          (BitVec.ofNat 32 ((s.clk.tk.map (·.entry.toNat)).getD 0)) (BitVec.ofNat 32 n)) ∧
        c.tk = some ⟨BitVec.ofNat 2 n, keyNode s key⟩ ∧ c.pll = s.clk.pll ∧ c.holdover = false ∧ c.switched = true ∧
        c.forceReq = none)) ∧
  (∀ s : State, atBoundary s = true → forceEntry s = none →
    exec .forceSwitch s = .next { s with clk := { s.clk with forceReq := none } }) ∧
  ∀ (s : State) (key : Nat), newlyQualified (srcOf s key) = false → noteQualified s key = s)

/-- FRAME_BOUNDARY (R61): the count advances by one, 0xFFFFFFFF to 1, slot and sub-slot are 0, and a wrap is recorded.
HOLDOVER_EXPIRED and DRAIN_TIMEOUT (R59, R60, R23): at the boundary that ends 16 frames of holdover with no switch due the
drain begins; 2 ms into it frame counting stops at the last completed slot and the harmless state is entered for clock loss.
(Where the rules leave a choice, this states the model's own: log entries 2, 46, 54, 186, 187, 188 and 234.) -/
def Obligations.FrameTimeRunsAndStops : Prop :=
  (∀ (s : State) (cki : Option Int), running s = true →
    ∃ t, exec (.frameBoundary cki) s = .next t ∧
      t.now.frame = (if s.now.frame = 0xFFFFFFFF then 1 else s.now.frame + 1) ∧ t.now.slot = 0 ∧ t.now.sub = 0 ∧
      t.frames = s.frames + 1 ∧ t.mem = s.mem ∧ t.fus = s.fus ∧ t.regions = s.regions ∧ t.extents = s.extents ∧
      t.entries = s.entries) ∧
  (∀ s : State, running s = true →
    (atBoundary s = true → switchDue s = false → s.clk.holdover = true → s.clk.drain = false → 16 ≤ s.clk.holdcnt →
      ∃ t, exec .holdoverExpired s = .next t ∧ t.clk.drain = true ∧ t.clk.holdover = true ∧ t.now = s.now) ∧
    (s.clk.drain = true → s.clk.drainAt + 800000 ≤ cycles s →
      ∃ t, exec .drainTimeout s = .next t ∧ t.clk.stopped = true ∧ t.clk.tk = none ∧ t.clk.locked = false ∧
        t.pmu.harmless = true ∧ t.pmu.causes.getLsbD 4 = true ∧ t.now.sub = 6249 ∧
        (s.now.slot ≠ 0 → t.now.frame = s.now.frame ∧ t.now.slot = s.now.slot - 1) ∧
        (s.now.slot = 0 → t.now.slot = 63 ∧ t.now.frame = (if s.now.frame = 1 then 0xFFFFFFFF else s.now.frame - 1))))

/-- JOIN on segments A and B (R93, R94): a free index of a table that is not full is joined and answered JOINED with its advance;
a full table refuses FULL; an index held by another nonce heard within 64 frames refuses DUPLICATE; the same nonce joins
again with no record. RANGE (R592): a joined node with its nonce is RANGED, its advance taken and its link restarted; one
that is not joined is refused NOT_JOINED; on segment C a RANGE only shows that the joined host sends (R76). JOIN on segment C
(R76): with no host joined, the host enters, is recorded and answered JOINED; frame for the rest. (Where the rules leave a
choice, this states the model's own: log entries 57, 61, 192, 193 and 211.) -/
def Obligations.JoinsAndRangesAreJudged : Prop :=
  (∀ (s u : State) (rx : Rx) (i : BitVec 4) (nonce : W32), rx.seg ≠ .c → joinHeard s rx i nonce = some u →
    (isJoined (nodeSt (segAB u rx.seg) i.toNat) = false → joinedCount (segAB u rx.seg) < 12 →
      ∃ t, exec (.join rx i nonce) s = .next t ∧
        (nodeSt (segAB t rx.seg) i.toNat).state = .joined ∧ (nodeSt (segAB t rx.seg) i.toNat).nonce = nonce ∧
        (nodeSt (segAB t rx.seg) i.toNat).advance = BitVec.ofInt 16 rx.edge ∧
        tget (segAB t rx.seg).answers i.toNat = some { kind := 3, value := BitVec.ofInt 16 rx.edge } ∧
        linkOf t rx.node = { retx := (linkOf u rx.node).retx } ∧ t.now = u.now ∧ t.mem = u.mem) ∧
    (isJoined (nodeSt (segAB u rx.seg) i.toNat) = false → 12 ≤ joinedCount (segAB u rx.seg) →
      exec (.join rx i nonce) s = .next (answerAB (occur u (segBlk rx.seg) 0x107
        (put32 rx.node.toNat 6 0 ||| put32 4 4 8) nonce) rx.seg i.toNat 4 0)) ∧
    (isJoined (nodeSt (segAB u rx.seg) i.toNat) = true → (nodeSt (segAB u rx.seg) i.toNat).nonce ≠ nonce →
      u.frames - (nodeSt (segAB u rx.seg) i.toNat).lastGood < 64 →
      exec (.join rx i nonce) s = .next (answerAB (occur u (segBlk rx.seg) 0x107
        (put32 rx.node.toNat 6 0 ||| put32 5 4 8) nonce) rx.seg i.toNat 5 0)) ∧
    (isJoined (nodeSt (segAB u rx.seg) i.toNat) = true → (nodeSt (segAB u rx.seg) i.toNat).nonce = nonce →
      silenced (nodeSt (segAB u rx.seg) i.toNat) = false →
      ∃ t, exec (.join rx i nonce) s = .next t ∧ t.recorder = u.recorder ∧
        (nodeSt (segAB t rx.seg) i.toNat).advance = BitVec.ofInt 16 rx.edge ∧
        tget (segAB t rx.seg).answers i.toNat = some { kind := 3, value := BitVec.ofInt 16 rx.edge } ∧
        linkOf t rx.node = { retx := (linkOf u rx.node).retx })) ∧
  (∀ (s u : State) (rx : Rx) (i : BitVec 4) (nonce : W32),
    (rx.seg ≠ .c → joinHeard s rx i nonce = some u →
      (isJoined (nodeSt (segAB u rx.seg) i.toNat) = true → (nodeSt (segAB u rx.seg) i.toNat).nonce = nonce →
        (nodeSt (segAB u rx.seg) i.toNat).state ≠ .muted →
        ∃ t, exec (.range rx i nonce) s = .next t ∧ (nodeSt (segAB t rx.seg) i.toNat).state = .joined ∧
          (nodeSt (segAB t rx.seg) i.toNat).advance = BitVec.ofInt 16 rx.edge ∧
          tget (segAB t rx.seg).answers i.toNat = some { kind := 2, value := BitVec.ofInt 16 rx.edge } ∧
          linkOf t rx.node = { retx := (linkOf u rx.node).retx } ∧ t.recorder = u.recorder) ∧
      (isJoined (nodeSt (segAB u rx.seg) i.toNat) = false →
        exec (.range rx i nonce) s = .next (answerAB (occur u (segBlk rx.seg) 0x107
          (put32 rx.node.toNat 6 0 ||| put32 6 4 8) nonce) rx.seg i.toNat 6 0))) ∧
    (rx.seg = .c → exec (.range rx i nonce) s = .next { s with segC := { s.segC with
      host := s.segC.host.map fun h =>
        if segOn s .c = true ∧ rx.node = nodeId .c h.index then { h with lastGood := s.frames } else h } })) ∧
  (∀ (s : State) (rx : Rx) (i : BitVec 4) (nonce : W32), rx.seg = .c → segOn s .c = true → i ≠ 0 → i ≠ 15 →
    rx.node = nodeId .c i → s.segC.host = none →
    ∃ t, exec (.join rx i nonce) s = .next t ∧ t.segC.host = some { index := i, nonce := nonce, lastGood := s.frames } ∧
      tget t.segC.answers i.toNat = some { kind := 3, value := 0 } ∧
      linkOf t rx.node = { retx := (linkOf s rx.node).retx } ∧ t.segA = s.segA ∧ t.segB = s.segB ∧ t.mem = s.mem)

/-- MUTE_END (R101): when the mute has run out the node must range, unless it has ranged early; then it is joined. EVICT,
NODE_REMOVED (R96): a GO notes the index for the frame boundary; there an index that is due leaves the joined table with its
link, its answer and its advice; its counts of near and hit packets stay. (Where the rules leave a choice, this states the
model's own: log entries 59, 193 and 206.) -/
def Obligations.NodesAreUnmutedAndLeave : Prop :=
  (∀ (s : State) (g : Seg) (i : BitVec 4), g ≠ .c → (nodeSt (segAB s g) i.toNat).state = .muted →
    (nodeSt (segAB s g) i.toNat).muteLeft = 0 →
    exec (.muteEnd g i) s = .next (setSegAB s g (setNode (segAB s g) i.toNat { nodeSt (segAB s g) i.toNat with
      state := if (nodeSt (segAB s g) i.toNat).rangedEarly then .joined else .mustRange, rangedEarly := false, rerange := false }))) ∧
  (∀ (s : State) (g : Seg), g ≠ .c →
    (∀ (w : Dom) (v : W64), mayWrite s w (segBlk g) 0x188 = true → bit v 7 = true →
      exec (.evict w g v) s = .next (setSegAB s g { segAB s g with evicts := (segAB s g).evicts ++ [BitVec.ofNat 4 (fld v 3 0)] })) ∧
    (∀ i : BitVec 4, (segAB s g).evictDue = [i] → isJoined (nodeSt (segAB s g) i.toNat) = true →
      ∃ t, exec (.nodeRemoved g) s = .next t ∧ isJoined (nodeSt (segAB t g) i.toNat) = false ∧
        (nodeSt (segAB t g) i.toNat).near = (nodeSt (segAB s g) i.toNat).near ∧
        (nodeSt (segAB t g) i.toNat).hits = (nodeSt (segAB s g) i.toNat).hits ∧
        tget (segAB t g).answers i.toNat = none ∧ tget (segAB t g).advise i.toNat = none ∧ (segAB t g).evictDue = [] ∧
        linkOf t (nodeId g i) = { retx := (linkOf s (nodeId g i)).retx } ∧
        (∀ j, j ≠ i.toNat → nodeSt (segAB t g) j = nodeSt (segAB s g) j) ∧ t.mem = s.mem))

/-- MAP_ANNOUNCE, MAP_ACTIVE (R84, R85): a GO that passes the rule's checks makes the staged map pending, one that fails sets
REASON and announces nothing; at the activation frame the pending map, version and strait take effect and are recorded.
(Where the rules leave a choice, this states the model's own: log entry 60.) -/
def Obligations.MapsAreAnnouncedAndTakeEffect : Prop :=
  ∀ (s : State) (g : Seg), g ≠ .c →
    (∀ (w : Dom) (v : W64), mayWrite s w (segBlk g) 0x88 = true → bit v 12 = true →
      let u := regStore s (segBlk g) 0x88 v
      let r := mapRefusal u g (BitVec.ofNat 32 (fld v 63 32)) (BitVec.ofNat 4 (fld v 11 8))
      (r = 0 → exec (.mapAnnounce w g v) s = .next (setSegAB u g { segAB s g with
        reason := 0
        pend := some { map := stagedMap u g, ver := BitVec.ofNat 8 (fld v 7 0), strait := BitVec.ofNat 4 (fld v 11 8)
                       act := BitVec.ofNat 32 (fld v 63 32) } })) ∧
      (r ≠ 0 → exec (.mapAnnounce w g v) s = .next (setSegAB u g { segAB s g with reason := r }))) ∧
    (∀ p : PendMap, (segAB s g).pend = some p → pendReached p s.now.frame = true →
      exec (.mapActive g) s = .next (occurAt
        (setSegAB s g { segAB s g with map := p.map, ver := p.ver, strait := p.strait, pend := none })
        p.act 0 (segBlk g) 0x108 (put32 (segNum g) 2 0 ||| put32 p.ver.toNat 8 8 ||| put32 p.strait.toNat 4 16) p.act))

/-- ERRORED_RECEPTION (R70, R78, R97, R105, R106): each thing a damaged packet showed counts, on A and B in any packet of a slot;
the first of a slot takes it, counts towards BURST_ERRORS in an UP or the tick slot, and as a hit counts as one whatever its
CRC; only a lost lock is recorded at once. LANE_ALIGN_LOST, LANE_ALIGN, SEG_WAKE (R67, R75, R107, R492): the failing lanes
are recorded and the losses counted; four lanes within 6 characters align; a wake-enabled segment whose signal passes its
threshold for 1 µs wakes the part from Deep Hold; a powered receiver shows carrier as SIG passes SIGTHR for 20 ns. (Where the
rules leave a choice, this states the model's own: log entries 35, 57, 58, 63, 173 and 204.) -/
def Obligations.ErrorsLanesAndWake : Prop :=
  (∀ (s : State) (rx : Rx) (e : RxErrors) (crcBad : Bool),
    (rx.seg = .c → segOn s .c = true →
      exec (.erroredReception rx e crcBad) s = .next { s with segC := { s.segC with
        crcErr := addIf s.segC.crcErr crcBad, codeErr := addIf (addIf s.segC.codeErr e.code) e.disparity } }) ∧
    (rx.seg ≠ .c → segOn s rx.seg = true → deafTo s rx = false → (segAB s rx.seg).pendHits = [] →
      ∃ t, exec (.erroredReception rx e crcBad) s = .next t ∧
        (segAB t rx.seg).crcErr = addIf (segAB s rx.seg).crcErr crcBad ∧
        (segAB t rx.seg).codeErr = addIf (addIf (segAB s rx.seg).codeErr e.code) e.disparity ∧
        (segAB t rx.seg).cdr = addIf (segAB s rx.seg).cdr e.lock ∧ (segAB t rx.seg).taken = some rx.slot ∧
        t.mem = s.mem ∧ t.links = s.links ∧
        ((segAB s rx.seg).taken = some rx.slot → (segAB t rx.seg).errSlots = (segAB s rx.seg).errSlots ∧
          (segAB t rx.seg).nodes = (segAB s rx.seg).nodes) ∧
        ((segAB s rx.seg).taken ≠ some rx.slot →
          (segAB t rx.seg).errSlots = (segAB s rx.seg).errSlots ++ (if upOrTick s rx.seg rx.slot then [rx.slot] else []) ∧
          (edgeClass (halfStrait s rx.seg) rx.edge rx.air ≠ .hit → (segAB t rx.seg).nodes = (segAB s rx.seg).nodes ∧
            (e.lock = false → t.recorder = s.recorder)) ∧
          (edgeClass (halfStrait s rx.seg) rx.edge rx.air = .hit → rightSlot s rx true = true →
            silenced (nodeSt (segAB s rx.seg) (nodeIdx rx.node)) = false →
            (isJoined (nodeSt (segAB s rx.seg) (nodeIdx rx.node)) = true ∨ rx.slot = 1) →
            (nodeSt (segAB t rx.seg) (nodeIdx rx.node)).hits = (nodeSt (segAB s rx.seg) (nodeIdx rx.node)).hits + 1)))) ∧
  (∀ s : State,
    (∀ lanes : BitVec 4, (live s = true ∨ s.phase = .acquiring) → s.segC.aligned = 0xF → lanes ≠ 0 →
      exec (.laneAlignLost lanes) s = .next (occur
        { s with segC := { s.segC with aligned := 0xF &&& ~~~lanes, losses := s.segC.losses + 1 } }
        blkSEGC 0x10B (put32 lanes.toNat 4 0) 0)) ∧
    (∀ skew : W16, (live s = true ∨ s.phase = .acquiring) → bit (regGet s blkSEGC 0x80) 0 = true →
      ((List.range 4).all fun i => decide (skew.toNat / 16 ^ i % 16 ≤ 6)) = true →
      exec (.laneAlign skew) s = .next { s with segC := { s.segC with aligned := 0xF, skew := skew } }) ∧
    ∀ x : SegSignal,
      (s.phase = .deepHold → wakeSeen s x.seg x.mv x.ns = true → s.pmu.seglatch.getLsbD (segNum x.seg) = true →
        exec (.segWake x) s = .next { s with
          phase := .porHeld, pmu := { s.pmu with lastsrc := 1#4 <<< segNum x.seg }, clk := { s.clk with dhExit := true }
          pins := { s.pins with pwron := true } }) ∧
      (s.phase = .deepHold → wakeSeen s x.seg x.mv x.ns = false → exec (.segWake x) s = .next s) ∧
      (coreOn s = true → x.seg ≠ .c → 20 ≤ x.ns → exec (.segWake x) s = .next (setSegAB s x.seg { segAB s x.seg with
        carrier := decide (thrMv (fld (regGet s (segBlk x.seg) 0x80) 11 8) < x.mv) })))

/-- A sequenced packet at link level (R115, R113): one already received is dropped and counted, one ahead is dropped and counted,
nothing else changing but the link's own account of the slot; the expected one that R113 rejects is counted, recorded
PACKET_REJECTED and acknowledged: the next sequence is expected. (Where the rules leave a choice, this states the model's
own: log entries 65, 67 and 207.) -/
def Obligations.PacketsPassTheLinkInOrder : Prop :=
  ∀ (s : State) (rx : Rx),
    (∀ u, accepted s rx = some u → ∃ h, heardInOrder s rx = some h ∧ u = setLink h rx.node (takeIn (linkOf h rx.node)) ∧
      (linkOf u rx.node).rxExp = (linkOf h rx.node).rxExp + 1 ∧ (linkOf h rx.node).rxExp = rx.lseq) ∧
    (∀ (bytes : List Byte) (p : Packet), packetOfBytes bytes = some p →
      (∀ u, malformed p = true → accepted s (rxOf rx p.hd) = some u → exec (.packetRejected rx bytes) s = .next
        (occur { u with linkReject := u.linkReject + 1 } blkLNK 0x111 (headWord p) (put32 p.hd.node.toNat 6 0))) ∧
      (malformed p = false → exec (.packetRejected rx bytes) s = .next s)) ∧
    ∀ (i : Instr) (rq : Req) (ty : Byte) (len : Nat), requestOf i = some (rq, ty, len) → rq.rx = rx →
      (∀ p u, packetOf i = some p → malformed p = true → accepted s rx = some u → exec i s = .next
        (occur { u with linkReject := u.linkReject + 1 } blkLNK 0x111 (headWord p) (put32 rx.node.toNat 6 0))) ∧
      ((receive s rx).2 = true → (linkOf (receive s rx).1 rx.node).lost = false →
        let u := hearSequenced (receive s rx).1 rx
        (judgeSeq (linkOf u rx.node) rx.lseq = .duplicate → exec i s = .next { u with linkDup := u.linkDup + 1 }) ∧
        (judgeSeq (linkOf u rx.node) rx.lseq = .ahead → exec i s = .next { u with linkAhead := u.linkAhead + 1 }))

/-- The bytes of a packet read back (R109, R110, R112, R113, R124): every packet that a well-formed command stands for passes
R113, is spelt whole by its bytes, carries a good CRC and is, by its TYPE, that command again. The record of R141 keeps its
fields. (Where the rules leave a choice, this states the model's own: log entry 235.) -/
def Obligations.PacketsReadBack : Prop :=
  (∀ (i : Instr) (p : Packet) (rx : Rx) (count : W32), i.wf = true → packetRx i = some (rx, count) → packetOf i = some p →
    malformed p = false ∧ packetOfBytes (packetBytes p) = some p ∧ crcGood (sentBytes p) = true ∧ commandOf rx count p = i) ∧
  ∀ r : RespRec, fld (respWord r) 15 0 = r.rseq.toNat ∧ fld (respWord r) 23 16 = r.type.toNat ∧
    fld (respWord r) 27 24 = r.rst.toNat ∧ fld (respWord r) 47 32 = r.param.toNat ∧ fld (respWord r) 63 48 = r.epoch.toNat

/-- ACK (R116, R119): the packets its LACK covers are no longer unacknowledged and the rest of A's or B's go out again; nothing
but the link changes. Retransmission (R119, R120): at the end of an UP slot in which the joined host was not heard, and after
RTXC on C, every unacknowledged packet is to be sent again, oldest first; nothing else changes. LINK_LOST and EVENT_DROPPED
(R121, R154): a joined host silent for LOSTFR frames with packets unacknowledged loses its link: answers go, event copies
stay, and on A or B it must range; the oldest copy held at 64 frames' age goes and is noted. (Where the rules leave a choice,
this states the model's own: log entries 66, 80, 81, 82, 209 and 236.) -/
def Obligations.AcksRetransmissionsAndLosses : Prop :=
  (∀ (s u : State) (rx : Rx), receive s rx = (u, true) → (linkOf u rx.node).lost = false →
    ∃ t, exec (.ack rx) s = .next t ∧
      (rx.ackv = true → (linkOf t rx.node).unacked = dropAcked (linkOf u rx.node).unacked rx.lack ∧
        (rx.seg ≠ .c → (linkOf t rx.node).resend = (linkOf t rx.node).unacked)) ∧
      (rx.ackv = false → (linkOf t rx.node).unacked = (linkOf u rx.node).unacked) ∧
      (∀ j, j ≠ rx.node.toNat → tget t.links j = tget u.links j) ∧
      (linkOf t rx.node).heard = true ∧ (linkOf t rx.node).rxExp = (linkOf u rx.node).rxExp ∧ t = { u with links := t.links }) ∧
  (∀ s : State,
    (∀ (g : Seg) (k : BitVec 6) (node : BitVec 6), g ≠ .c → segOn s g = true →
      slotNode (settleHit (enterSlot s g k) g (k.toNat + 1)) g k false = some node →
      (nodeSt (segAB (settleHit (enterSlot s g k) g (k.toNat + 1)) g) (nodeIdx node)).state = .joined →
      let u := settleHit (enterSlot s g k) g (k.toNat + 1)
      ((linkOf u node).gotUp = false → (linkOf u node).lost = false →
        exec (.upSlotEnd g k) s = .next (setLink u node { linkOf u node with resend := (linkOf u node).unacked })) ∧
      ((linkOf u node).gotUp = true →
        exec (.upSlotEnd g k) s = .next (setLink u node { linkOf u node with gotUp := false }))) ∧
    (∀ h, s.segC.host = some h → (linkOf s (nodeId .c h.index)).lost = false → rtxDue s (linkOf s (nodeId .c h.index)) = true →
      exec .retransmitTimerC s = .next
        (setLink s (nodeId .c h.index) { linkOf s (nodeId .c h.index) with resend := (linkOf s (nodeId .c h.index)).unacked }))) ∧
  (∀ s : State,
    (∀ node : BitVec 6, linkJoined s node = true → (linkOf s node).lost = false → (linkOf s node).unacked ≠ [] →
      lostFrames s ≤ (linkOf s node).silent →
      ∃ t, exec (.linkLost node) s = .next t ∧
        t.recorder = (occur s blkLNK 0x110 (put32 node.toNat 6 0) 0).recorder ∧ (linkOf t node).lost = true ∧ (linkOf t node).queue = [] ∧
        (linkOf t node).resend = [] ∧ (linkOf t node).unacked = (linkOf s node).unacked.filter carriesEvents ∧
        (∀ j, j ≠ node.toNat → tget t.links j = tget s.links j) ∧
        (∀ g : Seg, g ≠ .c → onSeg g node = true → (nodeSt (segAB t g) (nodeIdx node)).state = .mustRange) ∧
        t.mem = s.mem ∧ t.regions = s.regions ∧ t.segC = s.segC) ∧
    ∀ (conn : BitVec 10) (c : Conn) (e : EventRec) (rest : List EventRec), tget s.conns conn.toNat = some c →
      (linkOf s c.node).lost = false → c.held = e :: rest → 64 ≤ s.frames - e.made →
      exec (.eventDropped conn) s = .next (noteDrop
        { s with conns := tset s.conns conn.toNat { c with held := c.held.filter fun x => decide (x.evseq ≠ e.evseq) } }
        conn.toNat e.evseq))

/-- DOWN_SLOT (R117, R118, R123): to a reachable host a packet due again goes first and is marked RETX; with 16 packets
unacknowledged nothing new goes out, only an ACK that is owed or, on A and B, due for waiting traffic; then queued answers
before event copies, event copies before read data, each with the next LSEQ; with nothing to send an owed ACK goes. On A and
B the packet occupies the slot. (Where the rules leave a choice, this states the model's own: log entries 62, 195, 198, 203
and 212.) -/
def Obligations.DownSlotSendsInOrder : Prop :=
  ∀ (s u : State) (g : Seg) (k node : BitVec 6), downHost s g k = some (u, node) →
    let l := linkOf u node
    let pk := fun (lseq : Byte) (retx : Bool) (body : TxBody) => txPacket node lseq (l.rxExp - 1) l.rxAny retx body
    let sent := fun (lseq : Byte) (retx : Bool) (body : TxBody) =>
      Output.packet node lseq (l.rxExp - 1) l.rxAny retx body (charsOn (nodeSeg node) (pk lseq retx body))
    let ack := txAckPacket node (l.rxExp - 1) l.rxAny
    let acked := holdSlot (setLink (emit u (.ackPkt node (l.rxExp - 1) l.rxAny (charsOn (nodeSeg node) ack))) node
      { l with owed := false }) g k (airOf (charsOn (nodeSeg node) ack))
    (∀ p rest, l.resend = p :: rest →
      exec (.downSlot g k) s = .next (holdSlot (setLink (emit u (sent p.lseq true p.body)) node
        { l with resend := rest, retx := l.retx + 1, owed := false, unacked := markSent (cycles u) p.lseq l.unacked }) g k
        (airOf (charsOn (nodeSeg node) (pk p.lseq true p.body))))) ∧
    (l.resend = [] → 16 ≤ l.unacked.length →
      ((l.owed = true ∨ (g ≠ .c ∧ waiting u node = true)) → exec (.downSlot g k) s = .next acked) ∧
      (l.owed = false → (g = .c ∨ waiting u node = false) → exec (.downSlot g k) s = .next u)) ∧
    (l.resend = [] → l.unacked.length < 16 →
      (∀ q rest r n e b c v y, takeFirst isReply l.queue = some (q, rest) → q.reply = .openReply r n e b c v y →
        ∃ t, exec (.downSlot g k) s = .next t ∧ (linkOf t node).txNext = l.txNext + 1 ∧ (linkOf t node).queue = rest ∧
          (linkOf t node).unacked = l.unacked ++ [{ lseq := l.txNext, body := .openReply q.reply, sent := cycles u }] ∧
          t.out = u.out ++ [sent l.txNext false (.openReply q.reply)]) ∧
      (∀ q rest conn r, takeFirst isReply l.queue = some (q, rest) → q.reply = .resp conn r →
        ∃ t, exec (.downSlot g k) s = .next t ∧ (linkOf t node).txNext = l.txNext + 1 ∧
          (linkOf t node).queue = (packResp conn q.replay 32 l.queue).2.2 ∧
          t.out = u.out ++ [sent l.txNext false (.resp conn q.replay (packResp conn q.replay 32 l.queue).1)]) ∧
      (∀ j more c, takeFirst isReply l.queue = none → heldConns u node = j :: more → tget u.conns j = some c → c.held ≠ [] →
        (∀ e ∈ c.held.take 8, copyFailing u c e = []) →
        ∃ t, exec (.downSlot g k) s = .next t ∧ (linkOf t node).txNext = l.txNext + 1 ∧
          (linkOf t node).unacked = l.unacked ++
            [{ lseq := l.txNext, body := .events (BitVec.ofNat 10 j) (c.held.take 8), sent := cycles u }] ∧
          tget t.conns j = some { c with held := c.held.filter fun e => !(isNext (c.held.take 8) e) } ∧
          t.out = u.out ++ [sent l.txNext false (.events (BitVec.ofNat 10 j) (c.held.take 8))]) ∧
      (∀ q rest, takeFirst isReply l.queue = none → heldConns u node = [] → l.queue = q :: rest →
        ∃ t, exec (.downSlot g k) s = .next t ∧ (linkOf t node).txNext = l.txNext + 1 ∧ (linkOf t node).queue = rest ∧
          t.out = u.out ++ [sent l.txNext false (.rdata q.replay q.reply)]) ∧
      (heldConns u node = [] → l.queue = [] →
        (l.owed = true → exec (.downSlot g k) s = .next acked) ∧ (l.owed = false → exec (.downSlot g k) s = .next u)))

/-- OPEN (R124-R128, R156): an OPEN outside the admission rule is refused 1 and a silent violation of kind 8; one already made is
answered again; with no free number it is refused 2, with no room for its charge 3; otherwise the lowest free number opens
with the granted credits, EXPSEQ at RSEQ0, its charge in the highest free run of the domain's window. CLOSE and CON.KILL
(R132): the connection is gone, the record CONN_CLOSED names it, its queued answers go; CLOSE is answered DONE, a kill is not
answered. (Where the rules leave a choice, this states the model's own: log entries 12, 73, 90, 208 and 209.) -/
def Obligations.ConnectionsOpenAndClose : Prop :=
  (∀ (s u : State) (rx : Rx) (nonce key : W32) (d : Dom) (events pin : Bool) (credits : Byte) (rseq0 : W16),
    passes (.openConn rx nonce key d events pin credits rseq0) = true → accepted s rx = some u →
    (admits u d rx.node key = false →
      exec (.openConn rx nonce key d events pin credits rseq0) s =
        .next (refuseOpen (violate u d { kind := 8, p1 := put32 rx.node.toNat 6 0 } {}) rx.node d nonce 1)) ∧
    (admits u d rx.node key = true → ∀ k c, sameOpen u rx.node d nonce = some (k, c) →
      exec (.openConn rx nonce key d events pin credits rseq0) s = .next (enqueue u rx.node
        { reply := .openReply nonce 0 c.pinned (BitVec.ofNat 10 k) (BitVec.ofNat 8 c.grant) c.evseq (epochOf u d)
          replay := false, credit := 0 })) ∧
    (admits u d rx.node key = true → sameOpen u rx.node d nonce = none →
      (tlowestFree u.conns 1024 = none →
        exec (.openConn rx nonce key d events pin credits rseq0) s = .next (refuseOpen u rx.node d nonce 2)) ∧
      ∀ k, tlowestFree u.conns 1024 = some k →
        (chargeRun u d (9600 + 256 * min credits.toNat (maxCred u)) = none →
          exec (.openConn rx nonce key d events pin credits rseq0) s = .next (refuseOpen u rx.node d nonce 3)) ∧
        ∀ a, chargeRun u d (9600 + 256 * min credits.toNat (maxCred u)) = some a →
          ∃ t p, exec (.openConn rx nonce key d events pin credits rseq0) s = .next t ∧
            (tget t.conns k).map Conn.quiet = some
              { d := d, events := events, pinned := p, node := rx.node, grant := min credits.toNat (maxCred u), used := 0
                nonce := nonce, exp := rseq0, openFrame := u.now.frame, base := a
                len := 9600 + 256 * min credits.toNat (maxCred u) } ∧
            (∀ j, j ≠ k → (tget t.conns j).map Conn.quiet = (tget u.conns j).map Conn.quiet) ∧
            (pin = false → p = false) ∧ t.pmu.armed = false ∧ t.regions = u.regions ∧ t.segA = u.segA ∧ t.segB = u.segB)) ∧
  ((∀ (s u : State) (rq : Req) (c : Conn), taken s rq 0 = some (u, c) →
    exec (.close rq) s = .next (responded (closeConn u rq.conn.toNat 0) rq 0x12 0 c { rst := 0 })) ∧
  (∀ (s : State) (w : Dom) (v : W64), mayWrite s w blkCON 0xA0 = true → bit v 15 = true →
    exec (.conKill w v) s = .next (closeConn s (fld v 9 0) 1)) ∧
  ∀ (s : State) (k cause : Nat) (c : Conn), tget s.conns k = some c →
    tget (closeConn s k cause).conns k = none ∧
    (∀ j, j ≠ k → (tget (closeConn s k cause).conns j).map Conn.quiet = (tget s.conns j).map Conn.quiet) ∧
    (linkOf (closeConn s k cause) c.node).queue =
      (linkOf s c.node).queue.filter (fun q => decide (replyConn q.reply ≠ some k)) ∧
    (closeConn s k cause).mem = s.mem ∧ (closeConn s k cause).regions = s.regions)

/-- REGION_WRITE (R138, R178): inside the rights every byte of DATA lands at the region's base plus the offset and nothing else
in memory changes; outside them nothing is stored and a silent violation is noted; either way the answer is DONE. REGION_READ
(R137, R438): inside the rights the bytes as stored, RST DONE; failing bytes read zero with RST PARITY and are noted; outside
the rights zeros and a silent violation. (Where the rules leave a choice, this states the model's own: log entries 11, 68 and
69.) -/
def Obligations.RegionRequestsMoveBytes : Prop :=
  (∀ (s u : State) (c : Conn) (rq : Req) (key : W32) (offset : BitVec 23) (data : List Byte),
    passes (.regionWrite rq key offset data) = true → taken s rq data.length = some (u, c) →
    (∀ a, checkRegion u c.d key offset.toNat data.length true = .ok a → a + data.length ≤ 2 ^ 23 →
      ∃ t, exec (.regionWrite rq key offset data) s = .next (responded t rq 0x20 data.length c { rst := 0 }) ∧
        memRead t a data.length = data ∧ (∀ x, x < a ∨ a + data.length ≤ x → memGet t x = memGet u x) ∧
        t = { u with mem := t.mem, badMem := t.badMem }) ∧
    (∀ v, checkRegion u c.d key offset.toNat data.length true = .error v →
      exec (.regionWrite rq key offset data) s =
        .next (responded (violate u c.d v { conn := rq.conn }) rq 0x20 data.length c { rst := 0 }))) ∧
  (∀ (s u : State) (c : Conn) (rq : Req) (key : W32) (offset : BitVec 23) (len : W32),
    passes (.regionRead rq key offset len) = true → taken s rq 4 = some (u, c) →
    let n := len.toNat
    (∀ a, checkRegion u c.d key offset.toNat n false = .ok a →
      (failing u a n = [] →
        exec (.regionRead rq key offset len) s = .next (responded u rq 0x21 4 c { rst := 0, data := memRead u a n })) ∧
      (failing u a n ≠ [] → exec (.regionRead rq key offset len) s =
        .next (responded (noteFailing u 1 (failing u a n)) rq 0x21 4 c { rst := 5, data := memReadZeroed u a n }))) ∧
    (∀ v, checkRegion u c.d key offset.toNat n false = .error v →
      exec (.regionRead rq key offset len) s =
        .next (responded (violate u c.d v { conn := rq.conn }) rq 0x21 4 c { rst := 0, data := List.replicate n 0 })))

/-- REG_WRITE, REG_READ, DOORBELL and DOORBELL_REGISTER (R113, R196, R197, R557): the request acts as the access of its
connection's domain and is answered; a doorbell of 1 to 32767 entries that fit raises TAIL, one that does not is recorded
DOORBELL_OVERRUN, anything else changes nothing. (Where the rules leave a choice, this states the model's own: log entries 18
and 68.) -/
def Obligations.RegisterRequestsAndDoorbells : Prop :=
  (∀ (s u : State) (c : Conn) (rq : Req) (addr : BitVec 20) (v : W64),
    passes (.regWrite rq addr v) = true → taken s rq 8 = some (u, c) →
    let t := writeReg u c.d { conn := rq.conn } addr.toNat v
    ((tget t.conns rq.conn.toNat).isSome = true → exec (.regWrite rq addr v) s = .next (responded t rq 0x22 8 c { rst := 0 })) ∧
    (tget t.conns rq.conn.toNat = none → exec (.regWrite rq addr v) s = .next t)) ∧
  (∀ (s u : State) (c : Conn) (rq : Req) (addr : BitVec 20) (n : BitVec 5),
    passes (.regRead rq addr n) = true → taken s rq 0 = some (u, c) →
    (readDenied u c.d addr.toNat (n.toNat + 1) = none →
      exec (.regRead rq addr n) s = .next (responded (readMany u c.d addr.toNat (n.toNat + 1)).1 rq 0x23 0 c
        { rst := 0, data := bytesOf (readMany u c.d addr.toNat (n.toNat + 1)).2 }) ∧
      (n = 0 → groupOf (addrBlk addr) (addrOff addr) = none →
        readMany u c.d addr.toNat (n.toNat + 1) = (u, [liveReg u c.d (addrBlk addr) (addrOff addr)]))) ∧
    (∀ v, readDenied u c.d addr.toNat (n.toNat + 1) = some v →
      exec (.regRead rq addr n) s = .next (responded (violate u c.d v { conn := rq.conn }) rq 0x23 0 c
        { rst := 0, data := bytesOf (List.replicate (n.toNat + 1) 0) }))) ∧
  (∀ (s u : State) (c : Conn) (rq : Req) (n : BitVec 6) (tail : W16), taken s rq 0 = some (u, c) →
    exec (.doorbell rq n tail) s =
      .next (responded (checkedDoorbell u c.d n.toNat tail { conn := rq.conn }) rq 0x24 0 c { rst := 0 })) ∧
  ∀ (s : State) (w : Dom) (n : BitVec 6) (v : W64) (q : Sq), mayWrite s w blkWQS (0x800 + 8 * n.toNat) = true →
    tget s.sqs n.toNat = some q →
    ((v.setWidth 16 - q.tail).toNat ≠ 0 → (v.setWidth 16 - q.tail).toNat < 32768 →
      (q.tail - q.head).toNat + (v.setWidth 16 - q.tail).toNat ≤ ringSize (sqCfg s n.toNat) →
      ∃ t sure, exec (.doorbellRegister w n v) s = .next t ∧ t = { s with sqs := t.sqs } ∧
        tget t.sqs n.toNat = some { q with
          tail := v.setWidth 16, receipts := q.receipts ++ [(v.setWidth 16, cycles s)], sureCounts := q.sureCounts ++ sure } ∧
        ∀ j, j ≠ n.toNat → tget t.sqs j = tget s.sqs j) ∧
    (((v.setWidth 16 - q.tail).toNat = 0 ∨ 32768 ≤ (v.setWidth 16 - q.tail).toNat) →
      exec (.doorbellRegister w n v) s = .next s) ∧
    ((v.setWidth 16 - q.tail).toNat < 32768 → ringSize (sqCfg s n.toNat) < (q.tail - q.head).toNat + (v.setWidth 16 - q.tail).toNat → (v.setWidth 16 - q.tail).toNat ≠ 0 →
      exec (.doorbellRegister w n v) s = .next (occurRing
        { s with sqs := tset s.sqs n.toNat { q with dbovr := q.dbovr + 1 } } blkWQS q.owner 0x301
        (put32 n.toNat 6 0 ||| put32 q.owner.toNat 4 8) (put32 (v.setWidth 16).toNat 16 0)))

/-- SEND and POST (R139, R140): a SEND to an open connection of the same domain, or by domain 0 of any, with a posted buffer
takes its oldest one and stores DATA there, the target receiving one MESSAGE copy; without a posted buffer it is answered
NO_BUFFER and changes nothing; to any other it is a silent violation; a POST appends the buffers that pass the check, eight
at most held, and answers how many. (Where the rules leave a choice, this states the model's own: log entries 75, 76, 196 and
197.) -/
def Obligations.SendAndPost : Prop :=
  ∀ (s u : State) (c : Conn) (rq : Req),
    (∀ (target : BitVec 10) (data : List Byte), passes (.send rq target data) = true → taken s rq data.length = some (u, c) →
      (∀ tc, tget u.conns target.toNat = some tc → (tc.d = c.d ∨ c.d = 0) → tc.posted = [] →
        exec (.send rq target data) s = .next (responded u rq 0x25 data.length c { rst := 4 })) ∧
      (∀ tc e rest a, tget u.conns target.toNat = some tc → (tc.d = c.d ∨ c.d = 0) → tc.posted = e :: rest →
        checkRegion u tc.d (BitVec.ofNat 32 (fld e 31 0)) (fld e 54 32) 256 true = .ok a →
        ∃ t, exec (.send rq target data) s = .next (responded t rq 0x25 data.length c { rst := 0 }) ∧
          t.mem = (memWrite u a data).mem ∧
          (tget t.conns target.toNat).map Conn.quiet = some { tc with posted := rest, evseq := 0, held := [], evNext := 0 } ∧
          (∀ j, j ≠ target.toNat → (tget t.conns j).map Conn.quiet = (tget u.conns j).map Conn.quiet)) ∧
      (tget u.conns target.toNat = none → c.d = 0 →
        exec (.send rq target data) s = .next (responded u rq 0x25 data.length c { rst := 4 })) ∧
      (((tget u.conns target.toNat).all fun tc => decide (tc.d ≠ c.d)) = true → c.d ≠ 0 →
        exec (.send rq target data) s = .next (responded
          (violate u c.d { kind := 9, p1 := put32 target.toNat 10 0 } { conn := rq.conn }) rq 0x25 data.length c { rst := 0 }))) ∧
    (∀ es : List W64, passes (.post rq es) = true → taken s rq (8 * es.length) = some (u, c) → (∀ e ∈ es, postWf e = true) →
      let r := judgePosts u c.d es (c.posted, 0, none)
      let t := { u with conns := tmod u.conns rq.conn.toNat fun x => { x with posted := r.1 } }
      exec (.post rq es) s = .next (responded (match r.2.2 with
        | some v => violate t c.d v { conn := rq.conn }
        | none => t) rq 0x26 (8 * es.length) c { rst := 0, param := BitVec.ofNat 16 r.2.1 })) ∧
    (∀ (e : W64) (a : Nat), taken s rq 8 = some (u, c) → postWf e = true →
      checkRegion u c.d (BitVec.ofNat 32 (fld e 31 0)) (fld e 54 32) 256 true = .ok a → c.posted.length < 8 →
      ∃ t, exec (.post rq [e]) s = .next (responded t rq 0x26 8 c { rst := 0, param := 1 }) ∧
        t = { u with conns := t.conns } ∧ (tget t.conns rq.conn.toNat).map (·.posted) = some (c.posted ++ [e]) ∧
        ∀ j, j ≠ rq.conn.toNat → tget t.conns j = tget u.conns j)

/-- A request that is not the next one has no effect of its own (R146, R147): a repeat within the last 32 whose response is
stored and reads well is answered with that response again, an older one STALE, one ahead GAP. A request that exceeds its
connection's credits is not accepted (R135): CREDIT_VIOLATION is recorded, the link's expected sequence stays, and nothing
else changes but the context's place in the cache. One on a connection that is not open for its sender is accepted and
answered NO_CONN, its epoch free (R133). (Where the rules leave a choice, this states the model's own: log entries 68, 69 and
71.) -/
def Obligations.RequestsOutOfTurnHaveNoEffect : Prop :=
  (∀ (i : Instr) (s v : State) (c : Conn) (rq : Req) (ty : Byte) (len : Nat), requestOf i = some (rq, ty, len) →
    passes i = true → requestIn s rq len = some (v, c) → rq.rseq ≠ c.exp →
    let dd := (rq.rseq - c.exp).toNat
    let stale := replied (occur v blkCON 0x205 (put32 rq.conn.toNat 10 0) (put32 rq.rseq.toNat 16 0)) rq ty len
      (epochOf v c.d) { rst := 1 } false
    (65504 ≤ dd → (∀ rep, storedReply c rq.rseq = some rep →
        chargedFailing v (c.base + 128 + 264 * (rq.rseq.toNat % 32)) 264 = [] →
        exec i s = .next (enqueue (occur v blkCON 0x204 (put32 rq.conn.toNat 10 0) (put32 rq.rseq.toNat 16 0)) rq.rx.node
          { reply := rep, replay := true, credit := reqCost len })) ∧
      (storedReply c rq.rseq = none → exec i s = .next stale)) ∧
    (32768 ≤ dd → dd < 65504 → exec i s = .next stale) ∧
    (dd < 32768 → exec i s = .next (replied v rq ty len (epochOf v c.d) { rst := 2 } false))) ∧
  (∀ (i : Instr) (s u : State) (rq : Req) (ty : Byte) (len : Nat), requestOf i = some (rq, ty, len) → passes i = true →
    heardInOrder s rq.rx = some u →
    (∀ c, connFor u rq.conn rq.rx.node = some c → contextReads u rq.conn.toNat c = true → c.grant < c.used + reqCost len →
      exec i s = .next (occur (useContext u rq.conn.toNat) blkLNK 0x112 (put32 rq.conn.toNat 10 0) 0) ∧
      (occur (useContext u rq.conn.toNat) blkLNK 0x112 (put32 rq.conn.toNat 10 0) 0).links = u.links) ∧
    (connFor u rq.conn rq.rx.node = none → ∃ epoch, exec i s = .next (enqueue
      { acceptIn u rq.rx.node with freeCtr := u.freeCtr + 1 } rq.rx.node
      { reply := mkReply rq.conn rq.rseq ty epoch { rst := 3 }, replay := false, credit := 0 })))

/-- Windows, budgets and regions (R32, R161-R171): a window that passes the checks of R162 is stored and one that fails leaves
every window and notes domain and reason in DOM.RESULT; a registration that passes takes the lowest free index and answers it
with its new tag, a refused one answers its reason, each with the next SEQ; a deregistration of the domain's own region drops
its posted buffers and frees the descriptor, or marks it DYING while it is pinned; of another's, or of none, it is a silent
violation and only SEQ advances; a DYING descriptor that nothing pins any more is freed. (Where the rules leave a choice,
this states the model's own: log entries 10, 83, 84, 85 and 86.) -/
def Obligations.WindowsAndRegions : Prop :=
  ∀ (s : State) (w d : Dom) (v : W64),
    (mayWrite s w blkDOM (0x118 + 0x40 * d.toNat) = true →
      (windowReason s d.toNat (fld v 10 0) (fld v 27 16) = 0 →
        exec (.windowWrite w d v) s = .next (regStore s blkDOM (0x118 + 0x40 * d.toNat) v)) ∧
      (windowReason s d.toNat (fld v 10 0) (fld v 27 16) ≠ 0 →
        exec (.windowWrite w d v) s = .next (regSet s blkDOM 0x80
          (put d.toNat 4 0 ||| put (windowReason s d.toNat (fld v 10 0) (fld v 27 16)) 3 4)))) ∧
    (mayWrite s w blkDOM (0x130 + 0x40 * d.toNat) = true →
      ∃ t, exec (.latencyBudget w d v) s = .next t ∧
        regGet t blkDOM (0x130 + 0x40 * d.toNat) = (v &&& 0xFFFFF) ||| (regGet s blkDOM (0x130 + 0x40 * d.toNat) &&& ~~~0xFFFFF) ∧
        regsBut s t [regAddr blkDOM (0x130 + 0x40 * d.toNat)] ∧ t.pmu.rest = BitVec.ofNat 3 (selectRest (regStore s blkDOM (0x130 + 0x40 * d.toNat) v)) ∧
        t.mem = s.mem ∧ t.regions = s.regions ∧ t.entries = s.entries ∧ t.links = s.links) ∧
    (mayWrite s w blkRGN (0x80 + 8 * d.toNat) = true → bit v 0 = false →
      (∀ i, registerRefusal s d (bit v 3) (fld v 22 8 * 256) ((fld v 37 23 + 1) * 256) = 0 → tlowestFree s.regions 256 = some i →
        ∃ tag, tag ≠ 0 ∧ tag ≠ tgetD s.tags i 0 ∧
          exec (.regionRegister w d v) s = .next (regionResult
            { s with
              regions := tset s.regions i { d := d, tag := tag, rd := bit v 1, wr := bit v 2, wide := bit v 3
                                            base := fld v 22 8 * 256, len := (fld v 37 23 + 1) * 256 }
              tags := tset s.tags i tag, freeCtr := s.freeCtr + 1 } d i tag.toNat 0)) ∧
      (∀ r, registerRefusal s d (bit v 3) (fld v 22 8 * 256) ((fld v 37 23 + 1) * 256) = r → r ≠ 0 →
        exec (.regionRegister w d v) s = .next (regionResult s d 0 0 r))) ∧
    (mayWrite s w blkRGN (0x80 + 8 * d.toNat) = true → bit v 0 = true → ∀ r, tget s.regions (fld v 55 48) = some r →
      (r.d = d → r.dying = false → regionPinned (dropPosted s (fld v 55 48) r) (fld v 55 48) r = false →
        exec (.regionDeregister w d v) s = .next (regionResult
          { dropPosted s (fld v 55 48) r with regions := terase s.regions (fld v 55 48) } d (fld v 55 48) r.tag.toNat 0)) ∧
      (r.d = d → r.dying = false → regionPinned (dropPosted s (fld v 55 48) r) (fld v 55 48) r = true →
        exec (.regionDeregister w d v) s = .next (regionResult
          { dropPosted s (fld v 55 48) r with regions := tset s.regions (fld v 55 48) { r with dying := true } }
          d (fld v 55 48) r.tag.toNat 6)) ∧
      (r.d = d → r.dying = true → exec (.regionDeregister w d v) s = .next (regionResult s d (fld v 55 48) r.tag.toNat 6)) ∧
      (r.d ≠ d → exec (.regionDeregister w d v) s = .next
        (violate (regionSeqOnly s d) d { kind := 3, p1 := put32 (fld v 55 48) 8 24 } {}))) ∧
    (mayWrite s w blkRGN (0x80 + 8 * d.toNat) = true → bit v 0 = true → tget s.regions (fld v 55 48) = none →
      exec (.regionDeregister w d v) s = .next
        (violate (regionSeqOnly s d) d { kind := 3, p1 := put32 (fld v 55 48) 8 24 } {})) ∧
    ∀ (i : Byte) (r : Region), tget s.regions i.toNat = some r → r.dying = true → regionPinned s i.toNat r = false →
      exec (.regionFreed i) s = .next { s with regions := terase s.regions i.toNat }

/-- EXT.CMD (R172-R176): an install stores the staged extent unless it is malformed, overlaps another domain's extent or shares a
target with an extent where either carries ADMIN, and answers the code and the clashing index; a remove clears VALID; a read-
back shows the extent in STAGE0 and STAGE1; the fourth operation is refused 3. No other extent changes. (Where the rules
leave a choice, this states the model's own: log entries 87 and 88.) -/
def Obligations.ExtentCommands : Prop :=
  ∀ (s : State) (w : Dom) (v : W64), mayWrite s w blkEXT 0x90 = true → bit v 11 = true →
    (fld v 10 9 = 0 → ∀ j, installResult s (stagedExtent s) = (0, j) →
      exec (.extentInstall w v) s =
        .next (regSet { s with extents := tset s.extents (fld v 8 0) (stagedExtent s) } blkEXT 0x98 (put 0 3 0 ||| put j 9 4))) ∧
    (fld v 10 9 = 0 → ∀ r j, installResult s (stagedExtent s) = (r, j) → r ≠ 0 →
      exec (.extentInstall w v) s = .next (regSet s blkEXT 0x98 (put r 3 0 ||| put j 9 4))) ∧
    (fld v 10 9 = 1 → ∃ t, exec (.extentRemove w v) s = .next t ∧ regGet t blkEXT 0x98 = 0 ∧
      tget t.extents (fld v 8 0) = (tget s.extents (fld v 8 0)).map (fun x => { x with valid := false }) ∧
      (∀ j, j ≠ fld v 8 0 → tget t.extents j = tget s.extents j) ∧ t = { s with extents := t.extents, regs := t.regs }) ∧
    (fld v 10 9 = 2 → ∃ t, exec (.extentReadBack w v) s = .next t ∧ regGet t blkEXT 0x98 = 0 ∧
      regGet t blkEXT 0x80 = ((tget s.extents (fld v 8 0)).map extentWord0).getD 0 ∧
      regGet t blkEXT 0x88 = ((tget s.extents (fld v 8 0)).map extentWord1).getD 0 ∧
      t = { s with regs := t.regs } ∧ regsBut s t [regAddr blkEXT 0x80, regAddr blkEXT 0x88, regAddr blkEXT 0x98]) ∧
    (fld v 10 9 = 3 → exec (.extentOpInvalid w v) s = .next (regSet s blkEXT 0x98 (put 3 3 0 ||| put 0 9 4)))

/-- SQ_CLAIM, SQ_RELEASE, CQ_CLAIM, CQ_RELEASE (R182-R184, R216) each complete: a claim gives the lowest free ring to the domain,
and answers NONE_FREE (1) with none left, LIMIT (2) at sixteen; a release frees the domain's own ring while it is disabled,
idle and, for a completion ring, named by no enabled ring, and clears its BASE and CFG, the waits that watch a submission
ring seeing its DONE return to 0; else it answers BUSY (3); of another's ring, or of an unclaimed one, it is a silent
violation. Each outcome stands in CLAIMRESd with the next SEQ. (Where the rules leave a choice, this states the model's own:
log entries 91 and 93.) -/
def Obligations.RingsAreClaimedAndReleased : Prop :=
  ∀ (s : State) (w : Dom) (v : W64),
  (∀ k, mayWrite s w blkWQS 0x80 = true → bit v 0 = false → tlowestFree s.sqs 64 = some k →
    (s.sqs.filter fun e => decide (e.2.owner = w)).length < 16 →
    exec (.sqClaim w v) s = .next (claimResult { s with sqs := tset s.sqs k { owner := w } } blkWQS w k 0)) ∧
  (mayWrite s w blkWQS 0x80 = true → bit v 0 = false → tlowestFree s.sqs 64 = none →
    exec (.sqClaim w v) s = .next (claimResult s blkWQS w 0 1)) ∧
  (∀ k, mayWrite s w blkWQS 0x80 = true → bit v 0 = false → tlowestFree s.sqs 64 = some k →
    16 ≤ (s.sqs.filter fun e => decide (e.2.owner = w)).length →
    exec (.sqClaim w v) s = .next (claimResult s blkWQS w 0 2)) ∧
  (∀ k, mayWrite s w blkWQC 0x80 = true → bit v 0 = false → tlowestFree s.cqs 64 = some k →
    (s.cqs.filter fun e => decide (e.2.owner = w)).length < 16 →
    exec (.cqClaim w v) s = .next (claimResult { s with cqs := tset s.cqs k { owner := w } } blkWQC w k 0)) ∧
  (mayWrite s w blkWQC 0x80 = true → bit v 0 = false → tlowestFree s.cqs 64 = none →
    exec (.cqClaim w v) s = .next (claimResult s blkWQC w 0 1)) ∧
  (∀ k, mayWrite s w blkWQC 0x80 = true → bit v 0 = false → tlowestFree s.cqs 64 = some k →
    16 ≤ (s.cqs.filter fun e => decide (e.2.owner = w)).length →
    exec (.cqClaim w v) s = .next (claimResult s blkWQC w 0 2)) ∧
  (∀ q, mayWrite s w blkWQS 0x80 = true → bit v 0 = true → tget s.sqs (fld v 13 8) = some q → q.owner = w → cfgEnable (sqCfg s (fld v 13 8)) = false → sqIdle s (fld v 13 8) = true →
    exec (.sqRelease w v) s = .next (testWaits (claimResult (clearRing { s with sqs := terase s.sqs (fld v 13 8) } blkWQS (fld v 13 8)) blkWQS w (fld v 13 8) 0) (fld v 13 8))) ∧
  (∀ q, mayWrite s w blkWQS 0x80 = true → bit v 0 = true → tget s.sqs (fld v 13 8) = some q → q.owner = w → (cfgEnable (sqCfg s (fld v 13 8)) = true ∨ sqIdle s (fld v 13 8) = false) →
    exec (.sqRelease w v) s = .next (claimResult s blkWQS w (fld v 13 8) 3)) ∧
  (mayWrite s w blkWQS 0x80 = true → bit v 0 = true → ((tget s.sqs (fld v 13 8)).all fun q => decide (q.owner ≠ w)) = true →
    exec (.sqRelease w v) s = .next
      (violate (claimSeqOnly s blkWQS w) w { kind := 1, p1 := BitVec.ofNat 32 (regAddr blkWQS 0x80) } {})) ∧
  (∀ q, mayWrite s w blkWQC 0x80 = true → bit v 0 = true → tget s.cqs (fld v 13 8) = some q → q.owner = w → cfgEnable (cqCfg s (fld v 13 8)) = false →
    cqIdle s (fld v 13 8) = true → namedByEnabled s (fld v 13 8) = false →
    exec (.cqRelease w v) s = .next (claimResult (clearRing { s with cqs := terase s.cqs (fld v 13 8) } blkWQC (fld v 13 8)) blkWQC w (fld v 13 8) 0)) ∧
  (∀ q, mayWrite s w blkWQC 0x80 = true → bit v 0 = true → tget s.cqs (fld v 13 8) = some q → q.owner = w → (cfgEnable (cqCfg s (fld v 13 8)) = true ∨
      cqIdle s (fld v 13 8) = false ∨ namedByEnabled s (fld v 13 8) = true) →
    exec (.cqRelease w v) s = .next (claimResult s blkWQC w (fld v 13 8) 3)) ∧
  (mayWrite s w blkWQC 0x80 = true → bit v 0 = true → ((tget s.cqs (fld v 13 8)).all fun q => decide (q.owner ≠ w)) = true →
    exec (.cqRelease w v) s = .next
      (violate (claimSeqOnly s blkWQC w) w { kind := 1, p1 := BitVec.ofNat 32 (regAddr blkWQC 0x80) } {})) ∧
  (let u := claimResult (clearRing { s with sqs := terase s.sqs (fld v 13 8) } blkWQS (fld v 13 8)) blkWQS w (fld v 13 8) 0
   tget u.sqs (fld v 13 8) = none ∧ sqBase u (fld v 13 8) = 0 ∧ sqCfg u (fld v 13 8) = 0 ∧ (∀ j, j ≠ (fld v 13 8) → tget u.sqs j = tget s.sqs j) ∧
   u = { s with sqs := u.sqs, regs := u.regs } ∧ regGet u blkWQS (0x100 + 8 * w.toNat) =
     put (fld v 13 8) 6 0 ||| put (fld (regGet s blkWQS (0x100 + 8 * w.toNat)) 63 48 + 1) 16 48 ∧
   ((∀ e ∈ s.sqs, ∀ x, e.2.wait = some x → x.ring.toNat ≠ (fld v 13 8)) → testWaits u (fld v 13 8) = u)) ∧
  (let u := claimResult (clearRing { s with cqs := terase s.cqs (fld v 13 8) } blkWQC (fld v 13 8)) blkWQC w (fld v 13 8) 0
   tget u.cqs (fld v 13 8) = none ∧ cqBase u (fld v 13 8) = 0 ∧ cqCfg u (fld v 13 8) = 0 ∧ (∀ j, j ≠ (fld v 13 8) → tget u.cqs j = tget s.cqs j) ∧
   u = { s with cqs := u.cqs, regs := u.regs } ∧ regGet u blkWQC (0x100 + 8 * w.toNat) =
     put (fld v 13 8) 6 0 ||| put (fld (regGet s blkWQC (0x100 + 8 * w.toNat)) 63 48 + 1) 16 48)

/-- SQ_ENABLE, SQ_DISABLE, CQ_ENABLE, CQ_DISABLE, SQ_POINTER_WRITE (R186, R187, R223-R225): an enable that passes R187 sets
ENABLE with CFGERR 0, one that fails stays disabled with its error; a disable of an idle submission ring clears ENABLE and
records RING_IDLE, one with entries in flight only clears it; a completion ring that an enabled or busy ring names keeps
ENABLE; PTR takes a value only while the ring is disabled and idle. (Where the rules leave a choice, this states the model's
own: log entries 92, 93 and 94.) -/
def Obligations.RingsAreEnabledAndDisabled : Prop :=
  ∀ (s : State) (w : Dom) (n : BitVec 6) (v : W64),
    (∀ q, mayWrite s w blkWQS (0x400 + 8 * n.toNat) = true → tget s.sqs n.toNat = some q →
      (cfgEnable (sqCfg s n.toNat) = false → sqIdle s n.toNat = true →
        let new := (v &&& regMask blkWQS (0x400 + 8 * n.toNat)) ||| (sqCfg s n.toNat &&& ~~~ regMask blkWQS (0x400 + 8 * n.toNat))
        let err := sqEnableError s q.owner (sqBase s n.toNat) new
        cfgEnable new = true → exec (.sqEnable w n v) s = .next (regSet s blkWQS (0x400 + 8 * n.toNat)
          ((new &&& ~~~ (put 7 3 16 ||| 1)) ||| put err 3 16 ||| putB (decide (err = 0)) 0))) ∧
      (cfgEnable (sqCfg s n.toNat) = true → bit v 0 = false → q.batches = [] → waitPending s n.toNat = false →
        let u := regSet s blkWQS (0x400 + 8 * n.toNat) (sqCfg s n.toNat &&& ~~~ (1 : W64))
        (sqIdle s n.toNat = true → exec (.sqDisable w n v) s = .next (occurRing
          { u with sqs := tset s.sqs n.toNat { q with idleTold := true } } blkWQS q.owner 0x302
          (put32 n.toNat 6 0 ||| put32 q.owner.toNat 4 8) 0)) ∧
        (sqIdle s n.toNat = false →
          exec (.sqDisable w n v) s = .next { u with sqs := tset s.sqs n.toNat { q with idleTold := false } }))) ∧
    (∀ c, mayWrite s w blkWQC (0x400 + 8 * n.toNat) = true → tget s.cqs n.toNat = some c →
      (cfgEnable (cqCfg s n.toNat) = false → cqIdle s n.toNat = true →
        let new := (v &&& regMask blkWQC (0x400 + 8 * n.toNat)) ||| (cqCfg s n.toNat &&& ~~~ regMask blkWQC (0x400 + 8 * n.toNat))
        let err := cqEnableError s c.owner (cqBase s n.toNat) new
        cfgEnable new = true → exec (.cqEnable w n v) s = .next (regSet s blkWQC (0x400 + 8 * n.toNat)
          ((new &&& ~~~ (put 3 2 16 ||| 1)) ||| put err 2 16 ||| putB (decide (err = 0)) 0))) ∧
      (cfgEnable (cqCfg s n.toNat) = true → bit v 0 = false →
        (namedByBusy s n.toNat = true → exec (.cqDisable w n v) s = .next s) ∧
        (namedByBusy s n.toNat = false → exec (.cqDisable w n v) s =
          .next (regSet s blkWQC (0x400 + 8 * n.toNat) (cqCfg s n.toNat &&& ~~~ (1 : W64)))))) ∧
    (mayWrite s w blkWQS (0x600 + 8 * n.toNat) = true →
      (cfgEnable (sqCfg s n.toNat) = false → sqIdle s n.toNat = true → exec (.sqPointerWrite w n v) s = .next { s with
        sqs := tmod s.sqs n.toNat fun q => { q with head := v.setWidth 16, tail := v.setWidth 16, receipts := [], sureCounts := [] } }) ∧
      ((cfgEnable (sqCfg s n.toNat) = true ∨ sqIdle s n.toNat = false) → exec (.sqPointerWrite w n v) s = .next s))

/-- ENTRY_FETCH (R192, R194, R200, R203): of the ring whose turn it is, the entry of count HEAD is taken with its eight words,
OWN is cleared in memory and in no other byte, HEAD advances; an entry without OWN ends BAD_DESCRIPTOR with bit 0, one of bad
format with bit 2; one that passes every check is in flight, fetched; a ring whose turn it is not is left alone. (Where the
rules leave a choice, this states the model's own: log entries 99, 100, 101, 106 and 219.) -/
def Obligations.EntriesAreFetchedInTurn : Prop :=
  ∀ (s : State) (n : BitVec 6) (q : Sq) (a : Nat), tget s.sqs n.toNat = some q →
    ((fetchHeld s = true ∨ nextRing s ≠ some n.toNat) → exec (.entryFetch n) s = .next s) ∧
    (fetchHeld s = false → nextRing s = some n.toNat →
      slotAddr s (sqBase s n.toNat) (64 * (q.head.toNat % ringSize (sqCfg s n.toNat))) = some a → a + 64 ≤ 2 ^ 23 →
      retiredIn s a 64 = none → failing s a 64 = [] → entryOf? s ⟨n, q.head⟩ = none →
      let ws := wordsOf 8 (memRead s a 64)
      (weOwn ws = false → ∃ t e, exec (.entryFetch n) s = .next t ∧ entryOf? t ⟨n, q.head⟩ = some e ∧
        e.words = ws ∧ e.d = q.owner ∧ e.phase = .ended ∧ e.status = 0x15 ∧ e.result = 1 ∧
        (tget t.sqs n.toNat).map (·.head) = some (q.head + 1)) ∧
      (weOwn ws = true → formatOk s q.owner ws = false → ∃ t e, exec (.entryFetch n) s = .next t ∧
        entryOf? t ⟨n, q.head⟩ = some e ∧ e.words = ws ∧ e.phase = .ended ∧ e.status = 0x15 ∧ e.result = 4 ∧
        (tget t.sqs n.toNat).map (·.head) = some (q.head + 1)) ∧
      (weOwn ws = true → formatOk s q.owner ws = true → weOpcode ws ≠ opMIRROR → areaViolation s q.owner (areasOf ws) = none →
        flashViolation s q.owner ws = none → baselineLimited s ws = false →
        ∃ t e, exec (.entryFetch n) s = .next t ∧ entryOf? t ⟨n, q.head⟩ = some e ∧ e.words = ws ∧ e.d = q.owner ∧
          e.phase = .fetched ∧ e.begun = false ∧ (tget t.sqs n.toNat).map (·.head) = some (q.head + 1) ∧
          memGet t a = memGet s a &&& 0xFE ∧ (∀ x, x ≠ a → memGet t x = memGet s x) ∧ t.recorder = s.recorder ∧
          t.epochs = s.epochs ∧ t.regs = s.regs ∧ t.regions = s.regions))

/-- NOP, WAIT_COUNT, WAIT_TIMEOUT and ENTRY_EXPIRY (R191, R216-R218, R247): each ends its entry, which then alone is changed; a
WAIT_COUNT whose count is not reached waits on its ring; one that names a ring not the domain's is a silent violation. An
entry whose slot of the entry store fails parity leaves flight and the part becomes harmless (R202). (Where the rules leave a
choice, this states the model's own: log entries 97, 98 and 219.) -/
def Obligations.EntriesOfTheQueuesEnd : Prop :=
  (∀ (s : State) (r : EntryRef) (e : Entry) (st : Byte) (res : W32), entryOf? s r = some e → (e.phase = .fetched ∨ e.phase = .running) →
    entryOf? (endEntry s r st res) r = some { e with phase := .ended, status := st, result := res } ∧
    (∀ x, x ≠ r → entryOf? (endEntry s r st res) x = entryOf? s x) ∧
    endEntry s r st res = { s with entries := (endEntry s r st res).entries }) ∧
  ∀ (s : State) (r : EntryRef) (e : Entry), entryOf? s r = some e →
    (∀ i, slotBad e = true → (i = .nop r ∨ i = .waitCount r ∨ i = .waitTimeout r ∨ i = .entryExpiry r ∨ i = .completion r) →
      exec i s = .next (entryStoreFails s e) ∧ entryOf? (entryStoreFails s e) r = none ∧
      (entryStoreFails s e).pmu.harmless = true) ∧
    (slotBad e = false → freshEntry s r opNOP = some e → exec (.nop r) s = .next (endEntry s r 0 0)) ∧
    (slotBad e = false → freshEntry s r opWAIT = some e →
      (∀ q, tget s.sqs (fld (ew e.words 1) 5 0) = some q → q.owner = e.d → waitMet q.done (BitVec.ofNat 32 (fld (ew e.words 1) 63 32)) = true →
        exec (.waitCount r) s = .next (endEntry s r 0 q.done)) ∧
      (∀ q, tget s.sqs (fld (ew e.words 1) 5 0) = some q → q.owner = e.d → waitMet q.done (BitVec.ofNat 32 (fld (ew e.words 1) 63 32)) = false →
        exec (.waitCount r) s = .next { (setEntry s { e with phase := .running }) with
          sqs := tmod s.sqs r.sq.toNat fun x =>
            { x with wait := some ⟨r.count, BitVec.ofNat 6 (fld (ew e.words 1) 5 0), (BitVec.ofNat 32 (fld (ew e.words 1) 63 32))⟩ } }) ∧
      (((tget s.sqs (fld (ew e.words 1) 5 0)).all fun q => decide (q.owner ≠ e.d)) = true →
        exec (.waitCount r) s = .next (endEntry (violate s e.d
          { kind := 2, p1 := BitVec.ofNat 32 (regAddr blkWQS (0xA00 + 8 * fld (ew e.words 1) 5 0)) } { ring := r.sq }) r 0 0))) ∧
    (slotBad e = false → ∀ q x, tget s.sqs r.sq.toNat = some q → q.wait = some x → x.count = r.count → e.phase = .running →
      fld (ew e.words 2) 15 0 ≠ 0 → e.fetchedAt + fld (ew e.words 2) 15 0 ≤ s.frames →
      exec (.waitTimeout r) s = .next (endEntry
        { occurRing s blkWQS q.owner 0x303 (put32 r.sq.toNat 6 0 ||| put32 q.owner.toNat 4 8) (put32 e.cid.toNat 16 0) with
          sqs := tset s.sqs r.sq.toNat { q with wait := none } } r 0x13 (watchedDone s q.owner x.ring.toNat))) ∧
    (slotBad e = false → ∀ f, e.expiresAt = some f → f ≤ s.frames → e.begun = false →
      (e.phase = .fetched ∨ e.phase = .running) → exec (.entryExpiry r) s = .next (endEntry s r 0x17 0))

/-- COMPLETION and CQ_POKE (R205, R207, R208): with a free slot the four words are written there and nowhere else, the ring's
TAIL advances, the entry leaves flight; with the slot still owned the completion is held, nothing is written and RING_FULL is
recorded; a poke writes what is held once the slot is free. (Where the rules leave a choice, this states the model's own: log
entry 95.) -/
def Obligations.CompletionsAreWritten : Prop :=
  ∀ (s : State) (q a : Nat) (c : Cq), tget s.cqs q = some c → complBlocked s = false →
    slotAddr s (cqBase s q) (32 * (c.tail.toNat % ringSize (cqCfg s q))) = some a → a + 32 ≤ 2 ^ 23 → retiredIn s a 32 = none →
    parityBad s a = false →
    (∀ (r : EntryRef) (e : Entry), entryOf? s r = some e → e.phase = .ended → e.storeBad = false → e.batch = 0 →
      cfgCq (sqCfg s r.sq.toNat) = q →
      c.held = [] →
      let u := setEntry s { guaranteeEnds s e with phase := .held }
      let x := complOf (guaranteeEnds s e)
      ((memGet s a).getLsbD 0 = false → ∃ t, exec (.completion r) s = .next t ∧
        memRead t a 32 = bytesOf (complWords u x c.owner) ∧ (∀ y, y < a ∨ a + 32 ≤ y → memGet t y = memGet s y) ∧
        tget t.cqs q = some { c with tail := c.tail + 1, full := false } ∧ (∀ j, j ≠ q → tget t.cqs j = tget s.cqs j) ∧
        entryOf? t r = none ∧ t.regs = s.regs ∧ t.regions = s.regions) ∧
      ((memGet s a).getLsbD 0 = true → c.full = false → exec (.completion r) s = .next (occurRing
        { u with cqs := tset s.cqs q { c with held := [x], full := true } } blkWQC c.owner 0x305
        (put32 q 6 0 ||| put32 c.owner.toNat 4 8) 0))) ∧
    (∀ (w : Dom) (n : BitVec 6) (v : W64) (x : Compl), n.toNat = q → mayWrite s w blkWQC (0x800 + 8 * q) = true → c.held = [x] →
      (memGet s a).getLsbD 0 = false → ∃ t, exec (.cqPoke w n v) s = .next t ∧
        memRead t a 32 = bytesOf (complWords s x c.owner) ∧ (∀ y, y < a ∨ a + 32 ≤ y → memGet t y = memGet s y) ∧
        tget t.cqs q = some { c with tail := c.tail + 1, held := [], full := false })

/-- READ, CHECK_READ and the source of a COPY (R233, R234, R239, R321): an entry in flight that may start has one more sense
started on its LUN, the last thing the bus shows; memory and registers stay. One that may not, and is not urgent, waits.
PROGRAM, MIRROR_PROGRAM, the destination of a COPY and ERASE (R235-R240, R253, R291): a leg that may start, no URGENT
transfer going before its sectors, closes a cache sequence it does not continue, sends its encoded sectors and the confirm
and occupies its LUN; with a failing byte in its areas nothing is sent and the leg ends DATA_PARITY; an erase sends the block
address of every plane; memory stays. (Where the rules leave a choice, this states the model's own: log entries 15, 107, 123,
124, 214, 215, 216 and 226.) -/
def Obligations.FlashOperationsStart : Prop :=
  (∀ (s : State) (i : Instr) (r : EntryRef) (op : Nat) (e : Entry),
    ((i = .read r ∧ op = opREAD) ∨ (i = .checkRead r ∧ op = opCHECK) ∨ (i = .copy r ∧ op = opCOPY ∧ readDecided e = false)) →
    activeEntry s r op = some e → slotBad e = false →
    let pfa := ew e.words 1
    (mayStart s e (pfaLun pfa) = true → ∃ t e' p k o more, exec i s = .next t ∧ entryOf? t r = some e' ∧ e'.phase = .running ∧
      e'.begun = true ∧ e'.senses = e.senses + 1 ∧ e'.words = e.words ∧
      (lunOf t (pfaLun pfa)).cur = some { kind := .read, owner := some o } ∧ o.ref = r ∧ o.verify = false ∧
      t.out.getLast? = some (.flashSense (BitVec.ofNat 8 (pfaLun pfa)) p (pfaBlock pfa) (pfaPage pfa) (weType e.words) k more) ∧
      t.mem = s.mem ∧ t.regs = s.regs ∧ t.links = s.links) ∧
    (mayStart s e (pfaLun pfa) = false → e.cls ≠ 0 → exec i s = .next s)) ∧
  ((∀ (s : State) (i : Instr) (r : EntryRef) (op k : Nat) (e : Entry) (g : Leg),
    ((i = .program r ∧ op = opPROGRAM ∧ k = 0) ∨ (∃ b, i = .mirrorProgram r b ∧ op = opMIRROR ∧ k = b2n b) ∨
      (i = .copy r ∧ op = opCOPY ∧ k = 0 ∧ readDecided e = true)) →
    activeEntry s r op = some e → slotBad e = false → e.legs[k]? = some g → g.started = false →
    let l := pfaLun (legPfa e k)
    mayStart s e l = true →
    (busAllows s e (g.lun / 32) = false → exec i s = .next s) ∧
    (busAllows s e (g.lun / 32) = true → areaFailing s e = [] → ∃ t e' o, exec i s = .next t ∧ entryOf? t r = some e' ∧
      e'.phase = .running ∧ e'.begun = true ∧ (e'.legs[k]?).map (·.started) = some true ∧
      (lunOf t l).cur = some { kind := .program, owner := some o } ∧ o.ref = r ∧ o.leg = k ∧
      t.out = (sendSectors (closeSeq s e l true) e k).out ++ [.flashConfirm (BitVec.ofNat 8 l) (cacheMore (closeSeq s e l true) e l)] ∧
      t.mem = s.mem ∧ t.regs = s.regs) ∧
    (busAllows s e (g.lun / 32) = true → areaFailing s e ≠ [] → ∃ t e', exec i s = .next t ∧ entryOf? t r = some e' ∧
      (e'.legs[k]?).map (·.status) = some (some 0x16) ∧ t.out = s.out ∧ t.mem = s.mem ∧ t.fchs = s.fchs)) ∧
  (∀ (s : State) (r : EntryRef) (e : Entry), activeEntry s r opERASE = some e → slotBad e = false →
    let l := pfaLun (ew e.words 1)
    mayStart s e l = true →
    ∃ t e' o, exec (.erase r) s = .next t ∧ entryOf? t r = some e' ∧ e'.phase = .running ∧ e'.begun = true ∧
      (lunOf t l).cur = some { kind := .erase, owner := some o } ∧ o.ref = r ∧
      t.out = (closeSeq s e l false).out ++ (planesOf e.words).map (fun p => .flashErase (BitVec.ofNat 8 l) (BitVec.ofNat 2 p)
        (pfaBlock (ew e.words 1)) (weType e.words)) ∧ t.mem = s.mem ∧ t.regs = s.regs))

/-- SECTOR_DECODED (R233, R253, R304, R305, R319, R323): of a waiting sector of a read whose turn on the bus has come and which a
decoder serves, data that passes the checks is written to the sector's own places, an erased sector reads as FF bytes, and
anything else, and every CHECK_READ, writes nothing; the entry whose only sector this is ends OK, OK_RETRIED after more than
one sense, or UNCORRECTABLE when no sense is left. A sector whose turn has not come waits. (Where the rules leave a choice,
this states the model's own: log entries 15, 125, 126, 215 and 225.) -/
def Obligations.DecodesEndSectors : Prop :=
  ∀ (s : State) (r : EntryRef) (leg : Bool) (plane : BitVec 2) (sector : BitVec 4) (soft : Bool) (d : DecodeResult) (e : Entry)
    (p : PlaneRd) (x : SecRd), entryOf? s r = some e → e.phase = .running → e.storeBad = false →
    (weOpcode e.words = opREAD ∨ weOpcode e.words = opCHECK ∨ (weOpcode e.words = opCOPY ∧ readDecided e = false)) →
    e.planes.find? (fun p => decide (p.plane = plane.toNat)) = some p →
    p.sectors.find? (fun x => decide (x.sector = sector.toNat)) = some x → p.ready = true → x.state = .pending →
    roundDone p x = false → p.soft = soft →
    let pfa := pfaAt (ew e.words 1) p.plane sector.toNat
    let c := pfaChannel (ew e.words 1)
    let lim := erasedLimit s c
    let md := (derandomise pfa d).2
    let good := d.ok = true ∧ sectorCheck pfa e.words (derandomise pfa d).1 md = 0
    (sectorTurn s e leg plane.toNat sector.toNat = false → exec (.sectorDecoded r leg plane sector soft d) s = .next s) ∧
    (sectorTurn s e leg plane.toNat sector.toNat = true → decoderServes s e c soft = true →
     ∃ t, exec (.sectorDecoded r leg plane sector soft d) s = .next t ∧
      (weOpcode e.words = opCHECK ∨ (lim < d.zeros ∧ ¬ good) → t.mem = s.mem) ∧
      (weOpcode e.words ≠ opCHECK → d.zeros ≤ lim → t.mem = (takeErased s e p.plane sector.toNat).mem) ∧
      (weOpcode e.words ≠ opCHECK → lim < d.zeros → good → t.mem =
        (writeArea (writeArea s (dataAt s e (areaIndex e p.plane sector.toNat)) (xtsOut false e.words e.key pfa (derandomise pfa d).1))
          (metaAt s e (areaIndex e p.plane sector.toNat)) (md.take 32)).mem) ∧
      (lim < d.zeros → soft = false → t.eccHard = s.eccHard + 1 ∧ t.eccHfail = s.eccHfail + (if d.ok then 0 else 1)) ∧
      t.regs = s.regs ∧ t.regions = s.regions ∧ (∀ k, k ≠ c → fchOf t k = fchOf s k) ∧
      (weOpcode e.words = opREAD → e.planes = [p] → p.sectors = [x] → e.failmask = 0 → e.softUsed = false → p.retried = false →
        soft = false → lim < d.zeros →
        (good → ∃ e', entryOf? t r = some e' ∧ e'.phase = .ended ∧ e'.status = (if 1 < p.tried.length then 1 else 0)) ∧
        (d.ok = false → nextHard s c (weType e.words) p = none → softAllowed s c (weType e.words) = false →
          areaIndex e p.plane sector.toNat < 16 →
          ∃ e', entryOf? t r = some e' ∧ e'.phase = .ended ∧ e'.status = 0x10)))

/-- PARAM_READ, GET_FEATURES, SET_FEATURES, SUSPEND_POLICY, TARGET_RESET, ABACUS_EXPORT and ABACUS_IMPORT (R241-R245): an admin
entry that may start has its effect and ends OK with its result; a target reset takes its LUNs into reset and counts the
entries it ended; an abacus transfer ends OK with the groups transferred and skipped, which are all the groups it names.
(Where the rules leave a choice, this states the model's own: log entries 109, 110, 130, 131 and 229.) -/
def Obligations.AdminEntriesAct : Prop :=
  (∀ (s : State) (r : EntryRef) (op : Nat) (e : Entry), activeEntry s r op = some e → slotBad e = false →
    let l := pfaLun (ew e.words 1)
    let u := closeSeq s e l false
    mayAdmin s e l = true →
    (op = opPARAM → ∀ (page : List Byte) (ok : Bool), exec (.paramRead r page ok) s = .next (endEntry (setEntry
      (writeArea (emit u (.flashParam (BitVec.ofNat 8 l))) (areaBase s (weKey e.words) (weOffset e.words))
        (page.take (fld (ew e.words 3) 12 0))) { e with begun := true }) r 0 (if ok then 1 else 0))) ∧
    (op = opGETF → ∀ p : W32, exec (.getFeatures r p) s = .next (endEntry (setEntry
      (emit u (.flashGetFeature (BitVec.ofNat 8 l) (bit (ew e.words 3) 8) (BitVec.ofNat 8 (fld (ew e.words 3) 7 0))))
      { e with begun := true }) r 0 (if retryFeature s (l / 32) = some (fld (ew e.words 3) 7 0)
        then stepBytes s (l / 32) (lunOf s l).stepType (lunOf s l).step else p))) ∧
    (op = opSETF → exec (.setFeatures r) s = .next (endEntry (setEntry
      (emit u (.flashFeature (BitVec.ofNat 8 l) (bit (ew e.words 3) 8) (BitVec.ofNat 8 (fld (ew e.words 3) 7 0))
        (BitVec.ofNat 32 (fld (ew e.words 3) 63 32)))) { e with begun := true }) r 0 0)) ∧
    (op = opSUSPOL → exec (.suspendPolicy r) s = .next (endEntry (setEntry
      { u with policies := tset s.policies l
                 { eraseOk := bit (ew e.words 3) 0, progOk := bit (ew e.words 3) 1, maxSus := fld (ew e.words 3) 5 2 } }
      { e with begun := true }) r 0 0))) ∧
  (∀ (s : State) (r : EntryRef) (e : Entry), activeEntry s r opTRESET = some e → slotBad e = false →
    let l := pfaLun (ew e.words 1)
    (serving s && (fchOf s (l / 32)).up && eligible s e l && firstInLine s e l && !(targetClaimed s e l)) = true →
    ∃ t e', exec (.targetReset r) s = .next t ∧ entryOf? t r = some e' ∧ e'.phase = .running ∧
      e'.result = BitVec.ofNat 32 (entriesOn s (resetLuns s e)).length ∧
      (∀ k ∈ resetLuns s e, (lunOf t k).state = .resetting ∧ (lunOf t k).under = none ∧ ((lunOf t k).cur.map (·.kind)) = some .reset) ∧
      t.out = s.out ++ [.flashReset (BitVec.ofNat 3 (l / 32)) (l % 32 / 4) (if bit (ew e.words 3) 0 then some l else none)] ∧
      t.mem = s.mem) ∧
  (∀ (s : State) (r : EntryRef) (e : Entry), serving s = true → slotBad e = false →
    (freshEntry s r opEXPORT = some e → ∃ t e' n m, exec (.abacusExport r) s = .next t ∧ entryOf? t r = some e' ∧ e'.phase = .ended ∧
      e'.status = 0 ∧ e'.result = put32 n 16 0 ||| put32 m 16 16 ∧ n + m = 64 * (fld (ew e.words 1) 15 8 + 1)) ∧
    (freshEntry s r opIMPORT = some e → ∃ t e' n m, exec (.abacusImport r) s = .next t ∧ entryOf? t r = some e' ∧ e'.phase = .ended ∧
      e'.status = 0 ∧ e'.result = put32 n 16 0 ||| put32 m 16 16 ∧ n + m = 64 * (fld (ew e.words 1) 15 8 + 1) ∧ t.mem = s.mem))

/-- What the flash and the scheduler's clock show (R256, R257, R262, R271, R281, R282, R285, R286, R293): a poll that is due goes
out and counts, or waits for the sector boundary; a ready status read after RB_N rises ends the group's one operation; a
stuck RB_N falls back to polling; a suspend overdue returns the LUN to busy; an operation past twice its limit ends its entry
TIMEOUT and resets its LUN; a window brings the shares written into force; a reservation that keeps every channel at 48 or
below is stored, another is refused and named; a rate ordered takes effect. (Where the rules leave a choice, this states the
model's own: log entries 13, 108, 112, 114, 122, 217, 218 and 231.) -/
def Obligations.FlashEventsAct : Prop :=
  ∀ (s : State) (c : BitVec 3),
    (∀ n : BitVec 5, (fchOf s c.toNat).up = true → (lunOf s (32 * c.toNat + n.toNat)).cur.isSome = true →
      (lunOf s (32 * c.toNat + n.toNat)).pollNow = false → (lunOf s (32 * c.toNat + n.toNat)).pollAt ≤ latest s →
      rbCase s c.toNat (decide (16 ≤ n.toNat)) = false →
      ((xferOn s c.toNat).isSome = true → exec (.pollDue c n) s =
        .next (setLun s (32 * c.toNat + n.toNat) { lunOf s (32 * c.toNat + n.toNat) with pollNow := true })) ∧
      (xferOn s c.toNat = none → ∃ t, exec (.pollDue c n) s = .next t ∧
        t.out = s.out ++ [.flashPoll (BitVec.ofNat 8 (32 * c.toNat + n.toNat))
          (if 1 < lunsOfTarget s c.toNat (n.toNat / 4) then 0x78 else 0x70)] ∧
        (fchOf t c.toNat).polls = (fchOf s c.toNat).polls + 1 ∧
        (lunOf t (32 * c.toNat + n.toNat)).pollAt =
          max (cycles s) (lunOf s (32 * c.toNat + n.toNat)).pollAt + pollCycles s c.toNat ∧
        (∀ l, l ≠ 32 * c.toNat + n.toNat → lunOf t l = lunOf s l) ∧ t = { s with out := t.out, fchs := t.fchs })) ∧
    (∀ (g : Bool) (sr : Byte) (l : Nat), (fchOf s c.toNat).up = true → rbCase s c.toNat g = true → groupBusy s c.toNat g = [l] →
      sr &&& neverMask s (l / 32) = 0 → srReady sr = true → srArray sr = true → (lunOf s l).state = .busy → (lunOf s l).under = none →
      ∃ t, exec (.rbRise c g sr) s = .next t ∧ (lunOf t l).cur = none ∧ t.mem = s.mem) ∧
    (∀ g : Bool, (fchOf s c.toNat).up = true → (fchOf s c.toNat).rbFallback = false → groupBusy s c.toNat g = [] →
      exec (.rbStuck c g) s = .next (occur (setFch s c.toNat { fchOf s c.toNat with rbFallback := true }) (blkFCH + c.toNat) 0x404
        (put32 (b2n g) 1 0) 0)) ∧
    (∀ (n : BitVec 5) (o : ArrayOp), (lunOf s (32 * c.toNat + n.toNat)).cur = some o →
      (lunOf s (32 * c.toNat + n.toNat)).state = .suspending →
      2 * suspendUs s c.toNat o.kind ((o.owner.map (·.type)).getD 0) ≤ (latest s - (lunOf s (32 * c.toNat + n.toNat)).susAt) / 400 →
      exec (.suspendFailed c n) s = .next (occur (setLun s (32 * c.toNat + n.toNat)
        { lunOf s (32 * c.toNat + n.toNat) with state := .busy, suspendFailed := true }) (blkFCH + c.toNat) 0x406
        (put32 (32 * c.toNat + n.toNat) 8 0) 0)) ∧
    (∀ n : BitVec 5, (fchOf s c.toNat).up = true → overLimit s (32 * c.toNat + n.toNat) = true →
      ∃ t, exec (.lunTimeout c n) s = .next t ∧ (lunOf t (32 * c.toNat + n.toNat)).state = .resetting ∧
        (lunOf t (32 * c.toNat + n.toNat)).under = none ∧ t.timeoutCnt = s.timeoutCnt + 1 ∧ t.mem = s.mem ∧
        (∀ o w e, (lunOf s (32 * c.toNat + n.toNat)).cur = some o → o.owner = some w → entryOf? s w.ref = some e →
          weOpcode e.words ≠ opMIRROR → (e.phase = .fetched ∨ e.phase = .running) →
          ∃ e', entryOf? t w.ref = some e' ∧ e'.phase = .ended ∧ e'.status = 0x13)) ∧
    (∀ x, (fchOf s c.toNat).nextRate = some x → ∃ t, exec (.rateChange c) s = .next t ∧ (fchOf t c.toNat).rate = x ∧
      (fchOf t c.toNat).nextRate = none ∧ (∀ k, k ≠ c.toNat → fchOf t k = fchOf s k) ∧
      t = { s with fchs := t.fchs, entries := t.entries, sqs := t.sqs } ∧
      (100 ≤ x.toNat → t.entries = s.entries ∧ t.sqs = s.sqs)) ∧
    (atBoundary s = true → s.now.frame.toNat % 4 = 0 → exec .schedulingWindow s = .next { s with
      charges := [], wstart := s.now.frame, shares := (List.range 16).map fun d => (d, regGet s blkSCH (0x100 + 8 * d)) }) ∧
    (∀ (w d : Dom) (v : W64), mayWrite s w blkSCH (0x100 + 8 * d.toNat) = true →
      let q := put (fld (regGet s blkSCH (0x180 + 8 * d.toNat)) 63 48 + 1) 16 48
      (overChannel s d.toNat v = none → exec (.reservationWrite w d v) s =
        .next (regSet (regStore s blkSCH (0x100 + 8 * d.toNat) v) blkSCH (0x180 + 8 * d.toNat) q)) ∧
      (∀ k, overChannel s d.toNat v = some k → exec (.reservationWrite w d v) s =
        .next (occur (regSet s blkSCH (0x180 + 8 * d.toNat) (1 ||| put k 3 1 ||| q)) blkSCH 0x30A
          (put32 d.toNat 4 0 ||| put32 k 3 4) 0)))

/-- JOB_DISPATCH and WATCHDOG (R341-R343, R352, R355-R357): a job runs from its entry point with both counters zero, an empty
stack and its latch filled; at its yield the sequencer is idle, otherwise the job is still there; a cause raised, a mismatch
of the duplicated engine, or a job unended 80,000 core cycles after its dispatch, brings the harmless state, and a cause
stops the sequencer with itself in MCK. (Where the rules leave a choice, this states the model's own: log entries 132, 133,
134, 135, 227 and 231.) -/
def Obligations.SequencerRunsJobs : Prop :=
  (∀ (s : State) (ch : BitVec 3) (job : BitVec 4) (lun : BitVec 5) (given : List Byte) (bus : List BusSample), live s = true →
    (seqOf s ch.toNat).state = 1 → ((fchOf s ch.toNat).harmless && (fchOf s ch.toNat).ended) = false →
    jobAllowed s ch.toNat job.toNat lun.toNat = true →
    let q := { seqOf s ch.toNat with
      state := 2, job := job, jobLun := lun, pc := BitVec.ofNat 14 (entryPoint s job.toNat), stack := []
      k0 := 0, k1 := 0, jobs := (seqOf s ch.toNat).jobs + 1, since := cycles s, held := 0
      latch := fillLatch s ch.toNat job.toNat lun.toNat given }
    let x := runJob (setSeq s ch.toNat q) { n := ch.toNat, lun := lun.toNat, latch := q.latch } { q := q } bus
    (x.2.check = none → exec (.jobDispatch ch job lun given bus true) s =
      .next (setSeq x.1 ch.toNat (if x.2.done then { x.2.q with state := 1 } else { x.2.q with held := x.2.held }))) ∧
    (∀ cause a, x.2.check = some (cause, a) → ∃ t, exec (.jobDispatch ch job lun given bus true) s = .next t ∧
      (seqOf t ch.toNat).state = 3 ∧ t.pmu.harmless = true) ∧
    (∃ t, exec (.jobDispatch ch job lun given bus false) s = .next t ∧ t.pmu.harmless = true)) ∧
  (∀ (s : State) (ch : BitVec 3), (seqOf s ch.toNat).state = 2 → (seqOf s ch.toNat).since + 80000 ≤ latest s →
    ∃ t, exec (.watchdog ch) s = .next t ∧ (seqOf t ch.toNat).state = 3 ∧ t.pmu.harmless = true ∧
      (seqOf t ch.toNat).mck = put 5 4 0 ||| put (seqOf s ch.toNat).job.toNat 4 4 ||| put (seqOf s ch.toNat).pc.toNat 14 8 |||
        put (32 * ch.toNat + (seqOf s ch.toNat).jobLun.toNat) 8 24)

/-- CHANNEL_DISCOVERY and DISCOVERY_RB_TIMEOUT (R269, R270, R277-R280, R365): a channel the personality leaves unused, a pair
supply outside both classes, or no target that passes, leaves the channel harmless; otherwise it is up at its rate with
exactly the targets that pass every item, and their LUNs idle; with a timeout, a target that did not show ready counts as
absent. Discovery has ended either way, and no other channel changes. (Where the rules leave a choice, this states the
model's own: log entries 115, 116, 117, 118, 121 and 232.) -/
def Obligations.ChannelsAreDiscovered : Prop :=
  ∀ (s : State) (c : BitVec 3) (mv : Nat) (ts : List TargetReport) (ready : Byte), mayDiscover s c.toNat = true →
    let reading := pairReading s c.toNat mv
    let shows : List TargetReport → State → Prop := fun ts t =>
      let f := fchOf t c.toNat
      let down := f.up = false ∧ f.harmless = true ∧ f.found = 0 ∧ f.luns = []
      f.ended = true ∧ (∀ k, k ≠ c.toNat → fchOf t k = fchOf s k) ∧ t.mem = s.mem ∧ t.regs = s.regs ∧ t.links = s.links ∧
      (channelUnused s c.toNat = true → down ∧ f.vccqBad = false) ∧
      (channelUnused s c.toNat = false → vccqClass reading = none → down ∧ f.vccqBad = true ∧ f.vccqMv = reading) ∧
      (channelUnused s c.toNat = false → ∀ v18, vccqClass reading = some v18 →
        let t0 := ((presentTargets ts).find? fun x => decide (x.1 = 0)).map (·.2)
        let m := wantMode s c.toNat v18 t0
        let good := (presentTargets ts).filter fun x => decide (verdict s c.toNat m t0 x.2 = 0)
        f.vccqBad = false ∧ f.vccq18 = v18 ∧ f.vccqMv = reading ∧
        f.mismatch = targetMask ((presentTargets ts).filter fun x => decide (verdict s c.toNat m t0 x.2 ≠ 0)) ∧
        (good = [] → down) ∧
        (good ≠ [] → f.up = true ∧ f.harmless = false ∧ f.found = targetMask good ∧
          f.rate = BitVec.ofNat 8 (wantRate s c.toNat (good.map (·.2))) ∧ f.jesd = wantJesd s c.toNat t0 ∧
          (∀ x ∈ good, ∀ i, i < min 4 x.2.luns → (lunOf t (32 * c.toNat + (4 * x.1 + i))).state = .idle)))
    (∃ t, exec (.channelDiscovery c mv ts) s = .next t ∧ shows ts t) ∧
    (∃ t, exec (.discoveryRbTimeout c mv ts ready) s = .next t ∧
      shows (ts.mapIdx fun i r => { r with present := r.present && ready.getLsbD i }) t)

/-- KEY_LOAD, KEY_ZERO and SLOT_ASSIGN (R307-R310): a load of the domain's own slot from staged halves that differ puts the key
there and counts; equal halves load nothing; a zero empties the slot and is recorded; every GO clears the staging area and
answers with the next SEQ; of a slot not the domain's it is a silent violation; a changed assignment empties the slot. (Where
the rules leave a choice, this states the model's own: log entry 139.) -/
def Obligations.KeysFollowTheirSlots : Prop :=
  ∀ (s : State) (w d : Dom) (v : W64),
    (mayWrite s w blkXTS (0x200 + 8 * d.toNat) = true → bit v 7 = true →
      let k := fld v 4 0
      (((keySlot s k).assigned && decide ((keySlot s k).d = d)) = false →
        exec (.keyLoad w d v) s = .next (violate (keySeqOnly (clearStage s d) d) d
          { kind := 1, p1 := BitVec.ofNat 32 (regAddr blkXTS (0x200 + 8 * d.toNat)) } {})) ∧
      ((keySlot s k).assigned = true → (keySlot s k).d = d → bit v 5 = false → slotRetiring s k = false →
        (stagedKey s d).take 32 ≠ (stagedKey s d).drop 32 → ∃ t, exec (.keyLoad w d v) s = .next t ∧
          (keySlot t k).key = some (stagedKey s d) ∧ (keySlot t k).loads = (keySlot s k).loads + 1 ∧
          (∀ j, j ≠ k → keySlot t j = keySlot s j) ∧ t.mem = s.mem ∧ t.entries = s.entries ∧
          regGet t blkXTS (0x280 + 8 * d.toNat) =
            put k 5 0 ||| put (fld (regGet s blkXTS (0x280 + 8 * d.toNat)) 63 48 + 1) 16 48 ∧
          (∀ i, i < 8 → stageWord t d i = 0)) ∧
      ((keySlot s k).assigned = true → (keySlot s k).d = d → bit v 5 = true → slotRetiring s k = false →
        ∃ t, exec (.keyZero w d v) s = .next t ∧ (keySlot t k).key = none ∧ (keySlot t k).d = d ∧
          (∀ j, j ≠ k → keySlot t j = keySlot s j) ∧ t.mem = s.mem ∧ t.entries = s.entries)) ∧
    ∀ k : BitVec 5, mayWrite s w blkXTS (0x100 + 8 * k.toNat) = true →
      (BitVec.ofNat 4 (fld v 3 0) = (keySlot s k.toNat).d → bit v 4 = (keySlot s k.toNat).assigned →
        exec (.slotAssign w k v) s = .next s) ∧
      ((BitVec.ofNat 4 (fld v 3 0) ≠ (keySlot s k.toNat).d ∨ bit v 4 ≠ (keySlot s k.toNat).assigned) →
        ∃ t, exec (.slotAssign w k v) s = .next t ∧ (keySlot t k.toNat).key = none ∧
          (keySlot t k.toNat).d = BitVec.ofNat 4 (fld v 3 0) ∧ (keySlot t k.toNat).assigned = bit v 4 ∧
          (∀ j, j ≠ k.toNat → keySlot t j = keySlot s j) ∧ t.mem = s.mem)

/-- FUS.PCMD and FUSE_PROGRAMMED (R375, R376): a GO clears the staging registers and answers in PRES with the next SEQ; a command
whose field's condition holds starts programming, one whose does not is recorded FUSE_REFUSED and leaves every fuse; a FIELD
the table does not list is INVALID; after programming the field is whole, or for a key field partial. (Where the rules leave
a choice, this states the model's own: log entries 146, 147, 148 and 228.) -/
def Obligations.FuseCommandsAreJudged : Prop :=
  (∀ (s : State) (w : Dom) (v : W64) (i : Instr),
    (i = .fuseKeyHash w v ∨ i = .fuseImageKey w v ∨ i = .fuseFleetKey w v ∨ i = .fuseRevoke w v ∨ i = .fuseCounterAdvance w v ∨
      i = .fuseEncreq w v ∨ i = .fuseInvalid w v) →
    mayWrite s w blkFUS 0x120 = true → s.fus.busy = none → bit v 15 = true →
    let field := fld v 3 0
    let value := fld v 14 8
    let r := fuseCondition s field value (fuseStage s)
    (r = 0 → ∃ t, exec i s = .next t ∧
      t.fus = { s.fus with busy := some (BitVec.ofNat 4 field, BitVec.ofNat 7 value, fuseStage s) } ∧
      (∀ k, k < 4 → regGet t blkFUS (0x100 + 8 * k) = 0) ∧
      regGet t blkFUS 0x128 = put field 4 4 ||| put (fld (regGet s blkFUS 0x128) 63 48 + 1) 16 48 ∧
      t = { s with fus := t.fus, regs := t.regs }) ∧
    (r ≠ 0 → ∃ u, exec i s = .next (occur u blkFUS 0xF07 (put32 field 4 0 ||| put32 r 3 4) 0) ∧ u.fus = s.fus ∧
      (∀ k, k < 4 → regGet u blkFUS (0x100 + 8 * k) = 0) ∧
      regGet u blkFUS 0x128 = put r 3 0 ||| put field 4 4 ||| put (fld (regGet s blkFUS 0x128) 63 48 + 1) 16 48 ∧
      u = { s with regs := u.regs })) ∧
  (∀ (s : State) (n v : Nat) (d : List Byte), (n = 6 ∨ n = 7 ∨ 13 < n) → fuseCondition s n v d = 3) ∧
  (∀ (s : State) (v : Nat) (d : List Byte) (k : Nat), k < 4 →
    (tgetD s.fus.hash k .blank = .blank → (d.all fun b => decide (b = 0)) = false → fuseCondition s k v d = 0) ∧
    (tgetD s.fus.hash k .blank = .partly → fuseCondition s k v d = 4) ∧
    (∀ x, tgetD s.fus.hash k .blank = .programmed x → fuseCondition s k v d = 1) ∧
    (s.fus.revoked.getLsbD k = true → fuseCondition s (8 + k) v d = 1)) ∧
  (∀ (s : State) (v : Nat) (d : List Byte), (s.fus.encreq = true → fuseCondition s 13 v d = 1) ∧
    (s.boot.pair = none → fuseCondition s 12 v d = 2)) ∧
  ∀ (s : State) (f : BitVec 4) (v : BitVec 7) (d : List Byte) (ok : Bool), s.fus.busy = some (f, v, d) →
    exec (.fuseProgrammed ok) s = .next (occur
      { s with fus := { burn s.fus f.toNat v.toNat d ok with busy := none } } blkFUS (if ok then 0xF05 else 0xF06) (put32 f.toNat 4 0) 0)

/-- CONTAINER_CHECK (R371, R529, R530, R539): while a load looks for its containers, each copy is judged in its turn: absent, a
copy that did not read, or the verdict of the checks in order; a rejected copy is recorded, an accepted one is taken, and a
copy out of turn is not read. PAIR_OUTCOME (R343, R378, R379, R531): once both verdicts stand and no sequencer runs a job, a
matching pair is loaded and the baseline ends; under BOOTSEL 0b10 a pair of FCH0 that does not load gives way to FCH1's;
anything else runs the ROM baseline. (Where the rules leave a choice, this states the model's own: log entries 140, 141, 142
and 232.) -/
def Obligations.ContainersAndPairs : Prop :=
  (∀ (s : State) (pers : Bool) (src : BitVec 2) (secondary : Bool) (b : Option (List Byte)) (fs : List CopyFault),
    loading s = true → s.boot.from_ = src →
    let v := fun (x : Boot) => if pers then x.pv else x.sv
    let w := fun (x : Boot) => if pers then x.sv else x.pv
    (copyTurn (v s.boot) src secondary = false → exec (.containerCheck pers src secondary b fs) s = .next s) ∧
    (copyTurn (v s.boot) src secondary = true → src = 2 → baseKey (regGet s blkBOOT (if pers then 0x90 else 0x88)) = 0 →
      ∃ t, exec (.containerCheck pers src secondary b fs) s = .next t ∧ v t.boot = { tried := (v s.boot).tried + 1 } ∧
        w t.boot = w s.boot ∧ t.recorder = s.recorder ∧ t.mem = s.mem ∧ t.out = s.out) ∧
    (copyTurn (v s.boot) src secondary = true → src.toNat < 2 →
      (b = none → ∃ t, exec (.containerCheck pers src secondary b fs) s = .next t ∧ v t.boot = { tried := (v s.boot).tried + 1 } ∧
        w t.boot = w s.boot ∧ t.recorder = s.recorder ∧ t.mem = s.mem) ∧
      (∀ x, b = some x → fs ≠ [] → ∃ t, exec (.containerCheck pers src secondary b fs) s = .next t ∧
        v t.boot = { code := 2, tried := (v s.boot).tried + 1 } ∧ w t.boot = w s.boot ∧ t.mem = s.mem) ∧
      (∀ x, b = some x → fs = [] → ∃ t, exec (.containerCheck pers src secondary b fs) s = .next t ∧
        (v t.boot).code = BitVec.ofNat 4 (checkContainer s pers x).1 ∧ (v t.boot).taken = (checkContainer s pers x).2 ∧
        (v t.boot).tried = (v s.boot).tried + 1 ∧ w t.boot = w s.boot ∧ t.mem = s.mem ∧
        t.recorder = (recordRejected s (checkContainer s pers x).1 (ptypeOf pers) src.toNat x).recorder ∧
        (headerOk pers x = false → (v t.boot).code = 2 ∧ (v t.boot).taken = none)))) ∧
  ∀ s : State, loading s = true →
    ((storesFree s && (settled s s.boot.sv && settled s s.boot.pv)) = false → exec .pairOutcome s = .next s) ∧
    (storesFree s = true → settled s s.boot.sv = true → settled s s.boot.pv = true →
    (pairCode s.boot.sv s.boot.pv ≠ 0 → s.boot.from_ = 0 → s.glb.bootsel = 2 →
      exec .pairOutcome s = .next { s with boot := { s.boot with sv := {}, pv := {}, from_ := 1 } }) ∧
    (∀ x y, pairCode s.boot.sv s.boot.pv = 0 → s.boot.sv.taken = some x → s.boot.pv.taken = some y →
      ∃ t, exec .pairOutcome s = .next t ∧ t.boot.baseline = false ∧ t.boot.outcome = 0 ∧ t.boot.source = s.boot.from_ ∧
        (t.boot.pair.map (·.simg)) = some x ∧ (t.boot.pair.map (·.pers)) = some y ∧ t.boot.lastHash = y.hash ∧
        (∀ n, n < 8 → (seqOf t n).state = 1) ∧ t.mem = s.mem) ∧
    (pairCode s.boot.sv s.boot.pv ≠ 0 → ¬ (s.boot.from_ = 0 ∧ s.glb.bootsel = 2) →
      ∃ t, exec .pairOutcome s = .next t ∧ t.boot.baseline = true ∧ t.boot.pair = none ∧
        t.boot.outcome = BitVec.ofNat 3 (pairCode s.boot.sv s.boot.pv) ∧ (∀ n, n < 8 → (seqOf t n).state = 1) ∧ t.mem = s.mem))

/-- CWY.ASSIGN, MOVn.CMD, MOVn.POKE and the ends of register sets (R387, R391, R397, R398, R408, R412, R423, R427): an idle mover
is assigned with every register at reset or freed, a working one answers BUSY; GO starts an idle mover on its program or its
shadow set, pinning its regions; STOP idles one, or lets the bursts read be written first; CLEAR leaves ERROR; a poke of a
parked LINK whose word is now another instruction runs on; a set's end takes the armed set or goes idle with MOVER_DONE; a
grant among the ready requesters moves its port's turn and one burst. (Where the rules leave a choice, this states the
model's own: log entries 149, 153, 157 and 223.) -/
def Obligations.MoverCommands : Prop :=
  ∀ (s : State) (n : BitVec 4),
    (∀ (w : Dom) (v : W64), mayWrite s w blkCWY 0x80 = true → bit v 15 = true → BitVec.ofNat 4 (fld v 3 0) = n →
      (∀ m, tget s.movers n.toNat = some m → m.state ≠ .idle → m.state ≠ .error →
        exec (.moverAssign w v) s = .next (assignResult s n.toNat true)) ∧
      ((∀ m, tget s.movers n.toNat = some m → m.state = .idle ∨ m.state = .error) → bit v 8 = true →
        ∃ t, exec (.moverFree w v) s = .next t ∧ tget t.movers n.toNat = none ∧
          (∀ j, j ≠ n.toNat → tget t.movers j = tget s.movers j) ∧ t = { s with movers := t.movers, hdrs := t.hdrs, regs := t.regs }) ∧
      ((∀ m, tget s.movers n.toNat = some m → m.state = .idle ∨ m.state = .error) → bit v 8 = false →
        ∃ t, exec (.moverAssign w v) s = .next t ∧ tget t.movers n.toNat = some { d := BitVec.ofNat 4 (fld v 7 4) } ∧
          (hdr t (blkMOV + n.toNat)).evr = 1#16 <<< fld v 7 4 ∧ (hdr t (blkMOV + n.toNat)).eve = 0 ∧
          (∀ j, j ≠ n.toNat → tget t.movers j = tget s.movers j) ∧ t = { s with movers := t.movers, hdrs := t.hdrs, regs := t.regs })) ∧
    (∀ (w : Dom) (v : W64) (m : Mover), mayWrite s w (blkMOV + n.toNat) 0x88 = true → tget s.movers n.toNat = some m →
      (v = 1 → m.state = .idle → m.prog = true → exec (.moverGo w n v) s = .next (setMov s n.toNat
        { m with state := .run, sysstop := false, lc := 0, draining := false, setDone := false, pins := pinsOf s m })) ∧
      (v = 1 → m.state = .idle → m.prog = false → exec (.moverGo w n v) s = .next (setMov s n.toNat
        { m with state := .run, sysstop := false, lc := 0, draining := false, setDone := false, active := m.shadow, pins := pinsOf s m })) ∧
      (v = 1 → m.state = .run → m.prog = false → m.armed = false → (m.job.map (·.stopping)).getD false = false →
        exec (.moverGo w n v) s = .next (setMov s n.toNat { m with armed := true })) ∧
      (v = 2 → m.state ≠ .error → (∀ j, m.job = some j → j.kind = .move → j.read ≤ j.written) →
        exec (.moverStop w n v) s = .next (setMov s n.toNat
          { m with state := .idle, armed := false, setDone := false, pins := [], draining := false, job := none })) ∧
      (∀ j, v = 2 → m.state ≠ .error → m.job = some j → j.kind = .move → j.written < j.read →
        exec (.moverStop w n v) s = .next (setMov s n.toNat { m with armed := false, job := some { j with stopping := true } })) ∧
      (v = 4 → m.state = .error → exec (.moverClear w n v) s = .next (setMov s n.toNat
        { m with state := .idle, armed := false, setDone := false, pins := [], draining := false, job := none }))) ∧
    (∀ (w : Dom) (v : W64) (m : Mover) (ws : List W64), mayWrite s w (blkMOV + n.toNat) 0x90 = true → tget s.movers n.toNat = some m →
      m.state = .waitLink → fetchWords s n.toNat m 1 = .words ws →
      (opOf ws ≠ 7 → exec (.moverPoke w n v) s = .next (setMov s n.toNat { m with state := .run })) ∧
      (opOf ws = 7 → ew ws 0 &&& ~~~ 0x007FFFFF000003FF = 0 → fld (ew ws 0) 54 32 % 32 = 0 → bit (ew ws 0) 9 = false →
        exec (.moverPoke w n v) s = .next (endInstr s n.toNat m (eocOf ws) (fld (ew ws 0) 54 32)))) ∧
    (∀ m, tget s.movers n.toNat = some m → m.state = .wait → m.waitKind = 2 → m.framesLeft = 0 →
      exec (.moverWake n) s = .next (endInstr s n.toNat m m.waitEoc (m.pc.toNat + 32))) ∧
    (∀ m, tget s.movers n.toNat = some m → m.state = .run → m.prog = false → m.setDone = true → bit m.active.ops 7 = false →
      (m.armed = true → exec (.registerSetEnd n) s = .next (setMov s n.toNat
        { m with ended := m.ended + 1, setDone := false, armed := false, active := m.shadow })) ∧
      (m.armed = false → exec (.registerSetEnd n) s = .next (occur (setMov s n.toNat
        { m with ended := m.ended + 1, setDone := false, state := .idle, armed := false, pins := [], draining := false, job := none })
        (blkMOV + n.toNat) 0x701 (put32 n.toNat 4 0) 0))) ∧
    (∀ (ready : BitVec 17) (g : Nat), live s = true →
      (grantee s s.writePort (candidates s true ready) = some g → exec (.burstGrant true ready) s = .next (grantedBurst
        { s with writePort := granted s s.writePort (candidates s true ready) g } true g)) ∧
      (grantee s s.readPort (candidates s false ready) = some g → exec (.burstGrant false ready) s = .next (grantedBurst { s with
        readPort := granted s s.readPort (candidates s false ready) g
        cwyCnt := tset s.cwyCnt (effPrio s g) (tgetD s.cwyCnt (effPrio s g) 0 + 1) } false g))) ∧
    (∀ (p : Bool) (ready : BitVec 17), live s = false → exec (.burstGrant p ready) s = .next s)

/-- The mover instructions at PC (R402-R411): MOVE and FILL, in a program or a register set, start burst by burst within the
domain's rights; outside them one violation, nothing written, and the mover goes on; CRC stores the complement of its sum;
WAIT holds or waits; LOOP counts down to its target; SIGNAL counts and rings; LINK goes on at its target or parks; END idles
the mover with MOVER_DONE; an OP that the table does not list faults. (Where the rules leave a choice, this states the
model's own: log entries 150, 151, 152, 154, 155, 156, 221, 222 and 224.) -/
def Obligations.MoverInstructions : Prop :=
  ∀ (s : State) (n : BitVec 4) (m : Mover) (ws : List W64), tget s.movers n.toNat = some m → m.state = .run → m.job = none →
    (m.prog = true → fetchInstr s n.toNat m = .words ws →
      (opOf ws = 1 → reservedSet ws 0x00FFFFFF00001E00 3 = false →
        let j : MoveJob := ⟨ew ws 1, ew ws 2, fld (ew ws 0) 55 32, fld (ew ws 0) 10 9, bit (ew ws 0) 11, bit (ew ws 0) 12⟩
        (∀ u m' b, doMove s n.toNat m j = .started u m' b → exec (.move n) s = .next
          (setMov u n.toNat { m' with job := some { b with eoc := eocOf ws } })) ∧
        (∀ u m', doMove s n.toNat m j = .denied u m' → exec (.move n) s = .next (stepOn u n.toNat m' (eocOf ws))) ∧
        (∀ u m' c a, doMove s n.toNat m j = .faulted u m' c a → exec (.move n) s = .next (movFault u n.toNat m' c a))) ∧
      (opOf ws = 2 → reservedSet ws 0x00FFFFFF00000000 3 = false → fld (ew ws 0) 55 32 ≠ 0 → fld (ew ws 0) 55 32 ≤ 8388608 →
        xbitsOk (ew ws 1) = true → isRing (ew ws 1) = false →
        (∀ a, checkOperand s m (ew ws 1) (fld (ew ws 0) 55 32) true = .ok a → exec (.fill n) s = .next (setMov s n.toNat
          { m with job := some { kind := .fill, dst := a, start := a % 256, len := fld (ew ws 0) 55 32, pat := ew ws 2,
                                 pins := [operandPin (ew ws 1)], eoc := eocOf ws } })) ∧
        (∀ v, checkOperand s m (ew ws 1) (fld (ew ws 0) 55 32) true = .error v →
          exec (.fill n) s = .next (stepOn (violate s m.d v (movOrigin n.toNat)) n.toNat m (eocOf ws)))) ∧
      (opOf ws = 3 → reservedSet ws 0x600 (if bit (ew ws 0) 10 then 2 else 1) = false →
        (bit (ew ws 0) 10 = false → exec (.crc n) s = .next (stepOn s n.toNat
          { m with crc := if bit (ew ws 0) 9 then 0xFFFFFFFF else m.crc } (eocOf ws))) ∧
        (∀ a, bit (ew ws 0) 10 = true → xbitsOk (ew ws 1) = true → isRing (ew ws 1) = false →
          checkOperand s m (ew ws 1) 4 true = .ok a → exec (.crc n) s = .next (stepOn
            (memWrite s a (leBytes 4 (~~~ m.crc).toNat)) n.toNat
            { m with crc := if bit (ew ws 0) 9 then 0xFFFFFFFF else m.crc } (eocOf ws)))) ∧
      (opOf ws = 4 → waitBad m ws = false →
        let m' := { m with state := .wait, waitKind := BitVec.ofNat 2 (fld (ew ws 0) 10 9), waitWord := ew ws 1, waitEoc := eocOf ws
                           framesLeft := if fld (ew ws 0) 10 9 = 2 then fld (ew ws 1) 15 0 else 0 }
        (fld (ew ws 0) 10 9 = 2 → exec (.wait n) s = .next (setMov s n.toNat m')) ∧
        (fld (ew ws 0) 10 9 = 1 → ∀ q, tget s.sqs (fld (ew ws 1) 5 0) = some q → q.owner = m.d →
          ((q.done + BitVec.ofNat 32 (fld (ew ws 1) 47 32) - m.sigcnt).toNat < 2 ^ 31 →
            exec (.wait n) s = .next (stepOn s n.toNat m' (eocOf ws))) ∧
          (2 ^ 31 ≤ (q.done + BitVec.ofNat 32 (fld (ew ws 1) 47 32) - m.sigcnt).toNat →
            exec (.wait n) s = .next (setMov s n.toNat m'))) ∧
        (fld (ew ws 0) 10 9 = 0 → ∀ p, readProd s m = .count p → (p - m.cons).toNat ≤ ringLen m → m.draining = false →
          (fld (ew ws 1) 31 0 ≤ (p - m.cons).toNat →
            exec (.wait n) s = .next (stepOn s n.toNat { m' with prod := p, draining := true } (eocOf ws))) ∧
          ((p - m.cons).toNat < fld (ew ws 1) 31 0 →
            exec (.wait n) s = .next (setMov s n.toNat { m' with prod := p })))) ∧
      (opOf ws = 5 → reservedSet ws 0x007FFFFFFFFF0000 1 = false → fld (ew ws 0) 31 16 ≠ 0 → fld (ew ws 0) 54 32 % 32 = 0 →
        let lc := if m.lc = 0 then fld (ew ws 0) 31 16 - 1 else m.lc.toNat - 1
        exec (.loop n) s = .next (endInstr s n.toNat { m with lc := BitVec.ofNat 16 lc } (eocOf ws)
          (if lc ≠ 0 then fld (ew ws 0) 54 32 else m.pc.toNat + 32))) ∧
      (opOf ws = 6 → reservedSet ws 0x0000003F00000200 1 = false → bit (ew ws 0) 9 = false →
        (ringOwner s blkWQS (fld (ew ws 0) 37 32) = some m.d → exec (.signal n) s = .next (checkedDoorbell
          (stepOn s n.toNat { m with sigcnt := m.sigcnt + 1 } (eocOf ws)) m.d (fld (ew ws 0) 37 32) ((m.sigcnt + 1).setWidth 16)
          (movOrigin n.toNat))) ∧
        (ringOwner s blkWQS (fld (ew ws 0) 37 32) ≠ some m.d → exec (.signal n) s = .next (stepOn (violate s m.d
          { kind := 1, p1 := BitVec.ofNat 32 (regAddr blkWQS (0x800 + 8 * fld (ew ws 0) 37 32)) } (movOrigin n.toNat))
          n.toNat m (eocOf ws)))) ∧
      (opOf ws = 7 → ew ws 0 &&& ~~~ 0x007FFFFF000003FF = 0 → fld (ew ws 0) 54 32 % 32 = 0 →
        (bit (ew ws 0) 9 = false → exec (.link n) s = .next (endInstr s n.toNat m (eocOf ws) (fld (ew ws 0) 54 32))) ∧
        (bit (ew ws 0) 9 = true → exec (.link n) s = .next
          (movEvent (setMov s n.toNat { m with state := .waitLink }) n.toNat 0x703 m.pc.toNat))) ∧
      (opOf ws = 8 → ew ws 0 &&& ~~~ 0x1FF = 0 → eocOf ws = false → exec (.endProgram n) s = .next (movEvent (setMov s n.toNat
        { m with ended := m.ended + 1, state := .idle, armed := false, setDone := false, pins := [], draining := false })
        n.toNat 0x701 m.pc.toNat)) ∧
      ((opOf ws = 0 ∨ 8 < opOf ws) → exec (.move n) s = .next (movFault s n.toNat m 1 0))) ∧
    (m.prog = false → m.setDone = false → m.active.ops &&& 0xE1 = 0 →
      (∀ u m' b, doMove s n.toNat m (setJob m) = .started u m' b → exec (.move n) s = .next
        (setMov u n.toNat { m' with job := some { b with store := none } })) ∧
      (∀ u m', doMove s n.toNat m (setJob m) = .denied u m' → exec (.move n) s = .next (setMov u n.toNat { m' with setDone := true })) ∧
      (∀ u m' c a, doMove s n.toNat m (setJob m) = .faulted u m' c a → exec (.move n) s = .next (movFault u n.toNat m' c a))) ∧
    (m.prog = false → m.setDone = false → m.active.ops = 1 →
      (∀ u m' b, doFill s n.toNat m m.active.dst (fld m.active.len 23 0) m.active.pat = .started u m' b →
        exec (.fill n) s = .next (setMov u n.toNat { m' with job := some { b with store := none } })))

/-- The bursts of a job (R384, R392-R395, R405): a contiguous MOVE without SWAP, CRC or CHECK whose source reads well and does
not overlap its destination has, once each of its bursts has been read into the lane and written, copied the source's bytes
and left every other byte; a FILL has written its pattern; any burst of a job that stores neither a consumer word nor a CRC
leaves every byte outside its destination. (Where the rules leave a choice, this states the model's own: log entries 150, 151
and 221.) -/
def Obligations.MoveCopiesItsBytes : Prop :=
  ∀ (s : State) (n : Nat) (m : Mover), n < 16 →
    (∀ (src dst : W64) (len a b : Nat) (eoc : Bool), len ≠ 0 → len ≤ 8388608 → xbitsOk src = true →
      xbitsOk dst = true → isRing src = false → isRing dst = false → checkOperand s m src len false = .ok a →
      checkOperand s m dst len true = .ok b → b + len ≤ 2 ^ 23 → (a + len ≤ b ∨ b + len ≤ a) → failing s a len = [] →
      let i : MoveJob := { src := src, dst := dst, len := len, swap := 0, crcacc := false, check := false }
      let j := moveJob m i [(a, len)] b none
      doMove s n m i = .started s m j ∧
      (tget s.movers n = some { m with job := some { j with eoc := eoc } } →
        let u := (List.range (burstsOf j)).foldl (fun u _ => grantedBurst (grantedBurst u false n) true n) s
        (∀ x, x < len → memGet u (b + x) = memGet s (a + x)) ∧ (∀ x, (x < b ∨ b + len ≤ x) → memGet u x = memGet s x) ∧
        u.regs = s.regs ∧ u.regions = s.regions ∧
        ∃ m', tget u.movers n = some m' ∧ m'.job = none ∧ m'.bursts = m.bursts + BitVec.ofNat 32 (burstsOf j))) ∧
    (∀ j : BurstJob, tget s.movers n = some m → m.job = some j → j.kind = .fill → j.written = 0 → j.stopping = false →
      j.cons = none → j.store = none → j.dst + j.len ≤ 2 ^ 23 → 0 < j.len → (∀ x, x < j.len → isGone s (j.dst + x) = false) →
      let u := (List.range (burstsOf j)).foldl (fun u _ => grantedBurst u true n) s
      (∀ x, x < j.len → memGet u (j.dst + x) = patByte j.pat (j.dst + x)) ∧
      (∀ x, (x < j.dst ∨ j.dst + j.len ≤ x) → memGet u x = memGet s x)) ∧
    (∀ j : BurstJob, tget s.movers n = some m → m.job = some j → j.cons = none → j.store = none →
      (grantedBurst s false n).mem = s.mem ∧
      ∀ x, (x < j.dst ∨ j.dst + j.len ≤ x) → memGet (grantedBurst s true n) x = memGet s x)

/-- PAGE_RETIRE and SCRUB_CLEAR (R442-R445): a page that nothing forbids is retired and recorded, one already retired, charged or
named by an entry in flight is not; the outcome stands in RETRES with the next SEQ; a scrub write clears the summary of its
own domain alone. (Where the rules leave a choice, this states the model's own: log entry 158.) -/
def Obligations.PagesRetireAndSummariesClear : Prop :=
  ∀ (s : State) (w : Dom) (v : W64),
    (mayWrite s w blkBUF 0x80 = true → bit v 15 = true →
      let page := fld v 10 0
      let u := regSet s blkBUF 0x88
        (put page 11 0 ||| put (retireResult s page) 3 11 ||| put (fld (regGet s blkBUF 0x88) 63 48 + 1) 16 48)
      (page ∉ s.retired → chargedIn s (page * 4096) 4096 = none → (∀ e ∈ s.entries, namesPage s page e = false) →
        exec (.pageRetire w v) s = .next (occur { u with retired := ninsert s.retired page } blkBUF 0x802 (put32 page 11 0)
          (put32 ((windowDom s (page * 4096)).getD 15) 4 0))) ∧
      ((page ∈ s.retired ∨ (chargedIn s (page * 4096) 4096).isSome = true ∨ ∃ e ∈ s.entries, namesPage s page e = true) →
        exec (.pageRetire w v) s = .next u ∧ retireResult s page ≠ 0)) ∧
    ∀ d : Dom, mayWrite s w blkBUF (0x300 + 0x10 * d.toNat) = true →
      ∃ t, exec (.scrubClear w d v) s = .next t ∧ tgetD t.scrubs d.toNat {} = {} ∧
        (∀ k, k ≠ d.toNat → tget t.scrubs k = tget s.scrubs k) ∧ t = { s with scrubs := t.scrubs }

/-- R456: a write of REC.FREEZE with FREEZE latches FSEQ ← SEQ, sets FROZEN and records RECORDER_FROZEN, with FRZMAX as REC.CFG
then holds it; while it lasts no tally raise applies to a record numbered FSEQ or below, and a new record is written as ever;
a write with THAW ends it; with a nonzero FRZMAX every frame boundary brings its end one frame nearer, and at the last it
ends. A write of REC.XCMD and the bursts of its export (R386, R457, R459): the area is checked as a domain 0 write and the
export waits for the service lane; each burst writes up to 16 records from FIRST on, 16 bytes each, those that do not exist
as zeros, and XSTAT counts them; when a check fails nothing is written and the violation is counted; a command during an
export is ignored. (Where the rules leave a choice, this states the model's own: log entries 159, 160 and 161.) -/
def Obligations.TheRecorderIsFrozenAndExported : Prop :=
  ((∀ (s : State) (w : Dom) (v : W64), mayWrite s w blkREC 0x88 = true →
    (bit v 1 = false → bit v 0 = true →
      let max := fld (regGet s blkREC 0x80) 15 0
      let f : Freeze := ⟨s.recorder.seq, if max = 0 then none else some max⟩
      exec (.freeze w v) s = .next (occur { s with recorder := { s.recorder with fseq := s.recorder.seq, frozen := some f } }
        blkREC 0x901 (put32 max 16 0) s.recorder.seq)) ∧
    (bit v 1 = true → exec (.thaw w v) s = .next { s with recorder := { s.recorder with frozen := none } })) ∧
  (∀ (r : Recorder) (f : Freeze) (c : BitVec 12) (p0 p1 : W32) (i : Nat) (e : Rec),
    r.frozen = some f → raisable r c p0 p1 = some (i, e) → f.fseq.toNat < e.seq.toNat) ∧
  (∀ (r : Recorder) (e : Rec), (newRecord r e).seq = r.seq + 1 ∧ (newRecord r e).frozen = r.frozen ∧
    ((tget (newRecord r e).recs (recIndex (r.seq + 1))).map (·.seq)) = some (r.seq + 1)) ∧
  ∀ (s : State) (f : Freeze), s.recorder.frozen = some f →
    (f.left = some 0 → exec .freezeExpiry s = .next { s with recorder := { s.recorder with frozen := none } }) ∧
    (f.left ≠ some 0 → exec .freezeExpiry s = .next s) ∧
    (∀ n cki, running s = true → f.left = some (n + 1) →
      ∃ t, exec (.frameBoundary cki) s = .next t ∧ t.recorder.frozen = some ⟨f.fseq, some n⟩)) ∧
  ((∀ (s : State) (w : Dom) (v : W64), mayWrite s w blkREC 0xB8 = true → bit v 63 = true →
    let n := fld v 39 32 + 1
    let dst := regGet s blkREC 0xB0
    let area := checkRegion s 0 (baseKey dst) (baseOffset dst) (16 * n) true
    (s.recorder.xjob.isSome = true → exec (.recorderExport w v) s = .next s) ∧
    (∀ a, s.recorder.xjob = none → area = .ok a → exec (.recorderExport w v) s = .next { s with recorder := { s.recorder with
      xseq := s.recorder.xseq + 1, xcount := 0, xjob := some { next := BitVec.ofNat 32 (fld v 31 0), left := n, addr := a } } }) ∧
    (∀ x, s.recorder.xjob = none → area = .error x → exec (.recorderExport w v) s = .next
      (violate { s with recorder := { s.recorder with xseq := s.recorder.xseq + 1, xcount := 0 } } 0 x {}))) ∧
  (∀ (s : State) (j : Export), s.recorder.xjob = some j →
    let t := grantedBurst s true 16
    t.mem = (memWrite s j.addr ((List.range (min 16 j.left)).flatMap fun i => recBytes s (j.next + BitVec.ofNat 32 i))).mem ∧
    t.recorder.xcount = s.recorder.xcount + BitVec.ofNat 9 (min 16 j.left) ∧
    (j.left ≤ 16 → t.recorder.xjob = none) ∧
    (16 < j.left → t.recorder.xjob = some { next := j.next + 16, left := j.left - 16, addr := j.addr + 256 }) ∧
    t = { s with mem := t.mem, badMem := t.badMem, recorder := t.recorder, hdrs := t.hdrs, conns := t.conns, evDrop := t.evDrop }) ∧
  ∀ (s : State) (q : W32), (recBytes s q).length = 16 ∧ (recordOf s q = none → recBytes s q = List.replicate 16 0))

/-- R458: a write of REC.FLUSHSEQ from the present value up to SEQ is accepted and records REC_FLUSHED; any other is ignored;
power-up with VDDIO in one of its classes (R573) leaves FLUSHSEQ 0. -/
def Obligations.FlushesAreRecorded : Prop :=
  (∀ (s : State) (w : Dom) (v : W64), mayWrite s w blkREC 0x98 = true →
    let old := s.recorder.flushSeq
    let new : W32 := v.setWidth 32
    (old.toNat ≤ new.toNat → new.toNat ≤ s.recorder.seq.toNat → exec (.recFlush w v) s =
      .next (occur { s with recorder := { s.recorder with flushSeq := new } } blkREC 0x902 old new)) ∧
    (¬ (old.toNat ≤ new.toNat ∧ new.toNat ≤ s.recorder.seq.toNat) → exec (.recFlush w v) s = .next s)) ∧
  ∀ (s : State) (b : BitVec 2) (p : Byte) (mv : Nat), s.phase = .porHeld → vddioClass mv ≠ none →
    ∃ t, exec (.powerUp b p mv) s = .next t ∧ t.recorder.flushSeq = 0

/-- Field commands that read and select (R460-R465, R472, R478, R479): a tag in a field answers a request that names it, after
pending commits have flipped: a block with its bytes, error 0x10 past the last block, 0xA1 for a tile closed to the field;
inventory, quiet, select and ready move its state; the rest of the machine does not change. Writing by the field (R464, R474,
R479, R480): a depot block is written in an unlocked session and flips after the command; 0x10, 0x12 and 0xA1 are the
refusals; UNLOCK with the stored password opens the session; a wrong one counts as a failure, its error byte free (the
model's choice, log entry 3); a password of zero, three failures of a session or sixteen in all refuse. (Where the rules
leave a choice, this states the model's own: log entries 162, 164, 165, 166 and 230.) -/
def Obligations.TheTagAnswersTheField : Prop :=
  (∀ s : State,
    (∀ (a : TagAddr), s.tag.field = true → named s a = true →
      let u := flipAll s
      (∀ (ext opt : Bool) (block : W16), let b := blockNo ext block
        (1023 < b → exec (.readSingleBlock a ext opt block) s = .next (emit u (.tagAnswer [1, 0x10]))) ∧
        (b ≤ 1023 → ((tileOf u (b / 16)).fieldread = true ∨ u.tag.unlocked = true) →
          exec (.readSingleBlock a ext opt block) s = .next (emit u (.tagAnswer
            (0 :: ((if opt then [0] else []) ++ slice (tileBytes u (b / 16)) (4 * (b % 16)) 4))))) ∧
        (b ≤ 1023 → (tileOf u (b / 16)).fieldread = false → u.tag.unlocked = false →
          exec (.readSingleBlock a ext opt block) s = .next (emit u (.tagAnswer [1, 0xA1])))) ∧
      (∀ (ext opt : Bool) (first : W16) (m : Byte), let b := blockNo ext first
        b + m.toNat + 1 ≤ (if ext then 1024 else 256) →
        (∀ i, b ≤ i → i ≤ b + m.toNat → (tileOf u (i / 16)).fieldread = true ∨ u.tag.unlocked = true) →
        exec (.readMultipleBlocks a ext opt first m) s = .next (emit u (.tagAnswer
          (0 :: ((List.range (m.toNat + 1)).map (b + ·)).flatMap (blockAnswer u opt))))) ∧
      (exec (.resetToReady a) s =
        .next (emit { u with tag := { u.tag with selected := false, quiet := false } } (.tagAnswer [0]))) ∧
      (∀ ext, exec (.getSystemInformation a ext) s = .next (emit u (.tagAnswer
        (0 :: ([0x0F] ++ leBytes 8 Config.uid.toNat ++ [0, 0] ++ (if ext then leBytes 2 1023 else [0xFF]) ++
          [3, BitVec.ofNat 8 Config.stepping.toNat]))))) ∧
      (∀ f m : Byte, f.toNat + m.toNat < 64 → exec (.tileVersion a f m) s = .next (emit u (.tagAnswer
        (0 :: (List.range (m.toNat + 1)).map fun i => (tileOf u (f.toNat + i)).version)))) ∧
      (∀ bad, exec (.tagUnsupportedCommand a bad) s = .next (emit u (.tagAnswer [1, if bad then 0x02 else 0x01])))) ∧
    (s.tag.field = true →
      (exec (.stayQuiet Config.uid) s =
        .next { flipAll s with tag := { (flipAll s).tag with quiet := true, selected := false } }) ∧
      (exec (.select Config.uid) s =
        .next (emit { flipAll s with tag := { (flipAll s).tag with selected := true, quiet := false } } (.tagAnswer [0]))) ∧
      (∀ uid, uid ≠ Config.uid → exec (.select uid) s = .next { s with tag := { s.tag with selected := false } }) ∧
      (∀ many afi mask, s.tag.quiet = false → (afi = none ∨ afi = some 0) →
        (∀ i, i < mask.length → mask[i]? = some (Config.uid.getLsbD i)) →
        exec (.inventory many afi mask) s = .next (emit (flipAll s) (.tagInventory
          (if many then some (Config.uid.toNat / 2 ^ mask.length % 16) else none) (0 :: 0 :: leBytes 8 Config.uid.toNat)))) ∧
      (∀ many afi mask, (∃ i, i < mask.length ∧ mask[i]? ≠ some (Config.uid.getLsbD i)) → exec (.inventory many afi mask) s = .next s) ∧
      (∃ t, exec .tagFieldLost s = .next t ∧ t.tag.field = false ∧ t.tag.unlocked = false ∧ t.tag.selected = false ∧
        t.tag.quiet = false ∧ t.tag.pwd = s.tag.pwd ∧ t.tag.total = s.tag.total ∧ t.mem = s.mem)) ∧
    (s.tag.field = false → s.phase ≠ .deepHold →
      exec .tagFieldOn s = .next (tagOccur { s with tag := { s.tag with
        field := true, unlocked := false, selected := false, quiet := false, session := 0 } } 0x904 0 0))) ∧
  (∀ (s : State) (a : TagAddr), s.tag.field = true → named s a = true →
    let u := flipAll s
    (∀ (ext : Bool) (block : W16) (d : W32), let b := blockNo ext block
      (1023 < b → exec (.writeSingleBlock a ext block d) s = .next (emit u (.tagAnswer [1, 0x10]))) ∧
      (b < 960 → exec (.writeSingleBlock a ext block d) s = .next (emit u (.tagAnswer [1, 0x12]))) ∧
      (960 ≤ b → b ≤ 1023 → u.tag.unlocked = false →
        exec (.writeSingleBlock a ext block d) s = .next (emit u (.tagAnswer [1, 0xA1]))) ∧
      (960 ≤ b → b ≤ 1023 → u.tag.unlocked = true → ∃ t, exec (.writeSingleBlock a ext block d) s = .next t ∧
        (tileOf t (b / 16)).shadow = patch (tileOf u (b / 16)).comm (4 * (b % 16)) (leBytes 4 d.toNat) ∧
        (tileOf t (b / 16)).comm = (tileOf u (b / 16)).comm ∧ (tileOf t (b / 16)).pending = true ∧
        (∀ j, j ≠ b / 16 → tileOf t j = tileOf u j) ∧ t.out = u.out ++ [.tagAnswer [0]] ∧
        t = { u with tag := { u.tag with tiles := t.tag.tiles }, out := t.out })) ∧
    ∀ p : W32,
      ((u.tag.pwd = 0 ∨ 3 ≤ u.tag.session.toNat ∨ 16 ≤ u.tag.total.toNat) →
        exec (.unlock a p) s = .next (emit u (.tagAnswer [1, 0xA2]))) ∧
      (u.tag.pwd ≠ 0 → u.tag.session.toNat < 3 → u.tag.total.toNat < 16 →
        (p = u.tag.pwd → exec (.unlock a p) s =
          .next (emit (tagOccur { u with tag := { u.tag with unlocked := true, session := 0 } } 0x908 0 0) (.tagAnswer [0]))) ∧
        (p ≠ u.tag.pwd → ∃ t x, exec (.unlock a p) s = .next (emit t (.tagAnswer [1, x])) ∧
          t.tag = { u.tag with session := u.tag.session + 1, total := u.tag.total + 1 } ∧ t.mem = u.mem)))

/-- Tiles on the wired side (R466-R473, R479, R480): a flip shows what was committed, all 64 bytes and one more in the version,
and touches no other tile; domain 0 commits and loads the wired tiles only, sets FIELDREAD for any; the MIRROR, HEALTH and
IDENT compositions put whole tiles in their shadows; PWRESET clears the count of failures; TAG.PWD holds the password. (Where
the rules leave a choice, this states the model's own: log entries 162, 163 and 167.) -/
def Obligations.TilesAreCommittedAndFlipped : Prop :=
  (∀ (s : State) (t : BitVec 6), (tileOf s t.toNat).pending = true → ∃ u, exec (.tileFlip t) s = .next u ∧
    (tileOf u t.toNat).comm = (tileOf s t.toNat).shadow ∧ (tileOf u t.toNat).version = (tileOf s t.toNat).version + 1 ∧
    (tileOf u t.toNat).pending = false ∧ (∀ j, j ≠ t.toNat → tileOf u j = tileOf s j) ∧ u.mem = s.mem ∧
    (coreOn s = false → u.recorder = s.recorder)) ∧
  ∀ (s : State) (w : Dom) (v : W64),
    (mayWrite s w blkTAG 0xE0 = true → bit v 15 = true →
      let t := fld v 5 0
      let x := tileOf s t
      (fld v 9 8 = 0 → isWired t = true → x.pending = false → exec (.commit w v) s = .next (setTile s t { x with pending := true })) ∧
      (fld v 9 8 = 1 → isWired t = true → x.pending = false → exec (.load w v) s = .next (setTile s t { x with shadow := x.comm })) ∧
      (fld v 9 8 ≤ 1 → (isWired t = false ∨ x.pending = true) → exec (.commit w v) s = .next s ∧ exec (.load w v) s = .next s) ∧
      (fld v 9 8 = 2 → exec (.setFieldread w v) s = .next (setTile s t { x with nextRead := some (bit v 12) }))) ∧
    (mayWrite s w blkTAG 0xE8 = true →
      (v = 1 → (∀ e ∈ s.tag.inSlots, e.1 < 96) → s.recorder.bad = [] → ∃ t, exec (.mirror w v) s = .next t ∧ (tileOf t 3).pending = true ∧ (tileOf t 3).comm = (tileOf s 3).comm ∧
        (∀ k, tileOf s k ≠ tileOf t k → 3 ≤ k ∧ k ≤ 27) ∧ t.tag.mirrored.toNat = max s.recorder.seq.toNat s.tag.mirrored.toNat ∧
        t.mem = s.mem) ∧
      (v = 2 → ∃ t, exec (.health w v) s = .next t ∧ (tileOf t 2).pending = true ∧
        (tileOf t 2).shadow = patch (if (tileOf s 2).pending then (tileOf s 2).shadow else (tileOf s 2).comm) 0
          (healthBytes s s.pmu.state.toNat) ∧
        (tileOf t 2).comm = (tileOf s 2).comm ∧ (∀ k, k ≠ 2 → tileOf t k = tileOf s k) ∧
        t.tag.fault = (s.tag.fault && s.pmu.harmless) ∧ t = { s with tag := t.tag }) ∧
      (v = 4 → ∃ t, exec (.ident w v) s = .next t ∧ (tileOf t 0).pending = true ∧
        (tileOf t 0).shadow = patch (if (tileOf s 0).pending then (tileOf s 0).shadow else (tileOf s 0).comm) 0 (identBytes s) ∧
        (tileOf t 0).comm = (tileOf s 0).comm ∧ (∀ k, k ≠ 0 → tileOf t k = tileOf s k) ∧ t = { s with tag := t.tag }) ∧
      (v = 8 → exec (.pwreset w v) s = .next { s with tag := { s.tag with total := 0 } })) ∧
    (mayWrite s w blkTAG 0xF0 = true →
      exec (.passwordWrite w v) s = .next { s with tag := { s.tag with pwd := v.setWidth 32 } })

/-- Rest and Deep Hold (R486, R487, R490-R492, R496): a part that is not busy rests in its selected state and counts the entry, a
busy one runs; PMU.DEEP arms and disarms; a frame boundary at which all of R490 holds enters Deep Hold: power goes, with it
every register, connection and ring, while the fuses, the tag's memory and the VBAT domain stay; an enabled source wakes it.
(Where the rules leave a choice, this states the model's own: log entries 170, 171, 172 and 173.) -/
def Obligations.RestAndDeepHold : Prop :=
  (∀ s : State, live s = true →
    (busyNow s = true → exec .powerState s = .next { s with pmu := { s.pmu with state := 0 } }) ∧
    (busyNow s = false → ∃ t, exec .powerState s = .next t ∧ t = { s with pmu := t.pmu } ∧ t.pmu.state = s.pmu.rest ∧
      (s.pmu.state = s.pmu.rest → t = s) ∧
      (s.pmu.state ≠ s.pmu.rest → t.pmu = { s.pmu with
        state := s.pmu.rest, doze := s.pmu.doze + (if s.pmu.rest = 1 then 1 else 0)
        nap := s.pmu.nap + (if s.pmu.rest = 2 then 1 else 0), hold := s.pmu.hold + (if s.pmu.rest = 3 then 1 else 0) }))) ∧
  (∀ (s : State) (w : Dom) (v : W64), mayWrite s w blkPMU 0x88 = true →
    (bit v 1 = false → bit v 0 = true → exec (.deepHoldArm w v) s = .next { s with pmu := { s.pmu with armed := true } }) ∧
    (bit v 1 = true → exec (.deepHoldDisarm w v) s = .next { s with pmu := { s.pmu with armed := false } })) ∧
  (∀ s : State,
    (atBoundary s = true → s.pmu.armed = true → s.conns = [] → busyNow s = false → s.pmu.packetPrev = false → vbatLow s = false →
      noCommit s = true → ∃ t, exec .deepHoldEnter s = .next t ∧ t.phase = .deepHold ∧ t.pins.pwron = false ∧
        t.fus = s.fus ∧ t.tag.pwd = s.tag.pwd ∧ t.tag.total = s.tag.total ∧ t.pmu.tagwake = s.pmu.tagwake ∧
        t.pmu.seglatch = wakeEnables s ∧ t.pmu.dhcount = s.pmu.dhcount + 1 ∧ t.pmu.armed = false ∧
        t.regs = [] ∧ t.conns = [] ∧ t.sqs = [] ∧ t.entries = [] ∧ t.keys = State.reset.keys ∧ t.pending = s.pending ∧
        (bit (regGet s blkTAG 0x80) 0 = false → t.tag.tiles = s.tag.tiles)) ∧
    ((atBoundary s = false ∨ s.pmu.armed = false ∨ s.conns ≠ [] ∨ busyNow s = true ∨ s.pmu.packetPrev = true ∨ vbatLow s = true ∨ noCommit s = false) →
      exec .deepHoldEnter s = .next s)) ∧
  ∀ (s : State) (src : BitVec 4), s.phase = .deepHold →
    let on := src &&& BitVec.ofNat 4 (s.pmu.seglatch.toNat + 8 * b2n s.pmu.tagwake)
    (on ≠ 0 → exec (.deepHoldWake src) s = .next { s with
      phase := .porHeld, pmu := { s.pmu with lastsrc := on }, clk := { s.clk with dhExit := true }
      pins := { s.pins with pwron := true } }) ∧
    (on = 0 → exec (.deepHoldWake src) s = .next s)

/-- TEMPERATURE_CONVERSION (R498, R499): MON holds the nine readings and the highest of them; warning and throttling follow it
with 5 °C of return, the 140 °C condition without, each only on the second conversion in a row that asks for the change; at
140 °C the part becomes harmless. SUPPLY_DIP and SUPPLY_WARN_END (R501, R502, R508): a dip shorter than 2 µs only counts as a
glitch; a longer one below the warn threshold raises ALERT1_N and is the rail's last and lowest reading; below the brown-out
threshold it makes the part harmless, BROWN holding the rail; the warning ends 1 ms after the last dip. (Where the rules
leave a choice, this states the model's own: log entries 174, 175, 176 and 231.) -/
def Obligations.TemperatureAndSupplies : Prop :=
  (∀ (s : State) (l : List W16), coreOn s = true → l.length = 9 →
    ∃ t h, exec (.temperatureConversion l) s = .next t ∧ h ∈ l ∧ (∀ x ∈ l, x.toInt ≤ h.toInt) ∧
      t.mon.temps = l ∧ t.mon.now = h ∧
      (let want := decide ((if s.mon.warn then warnAt s - 20 else warnAt s) ≤ h.toInt)
       (want = s.mon.warn → t.mon.warn = s.mon.warn ∧ t.mon.prevWarn = false) ∧
       (want ≠ s.mon.warn → s.mon.prevWarn = false → t.mon.warn = s.mon.warn ∧ t.mon.prevWarn = true) ∧
       (want ≠ s.mon.warn → s.mon.prevWarn = true → t.mon.warn = want ∧ t.mon.prevWarn = false)) ∧
      (let want := decide ((if s.mon.throttle then throttleAt s - 20 else throttleAt s) ≤ h.toInt)
       (want = s.mon.throttle → t.mon.throttle = s.mon.throttle ∧ t.mon.prevThr = false) ∧
       (want ≠ s.mon.throttle → s.mon.prevThr = false → t.mon.throttle = s.mon.throttle ∧ t.mon.prevThr = true) ∧
       (want ≠ s.mon.throttle → s.mon.prevThr = true → t.mon.throttle = want ∧ t.mon.prevThr = false)) ∧
      (560 ≤ h.toInt → s.mon.hot = false → s.mon.prevFail = true → t.mon.hot = true ∧ t.pmu.harmless = true ∧
        t.pmu.causes.getLsbD 2 = true) ∧
      (h.toInt < 560 → t.pmu.harmless = s.pmu.harmless ∧ t.pmu.causes = s.pmu.causes) ∧
      (h.toInt < 560 → t.mem = s.mem ∧ t.regs = s.regs ∧ t.cqs = s.cqs ∧ t.now = s.now)) ∧
  ((∀ (s : State) (r : BitVec 4) (mv : W16) (us : Nat), coreOn s = true → r.toNat ≤ 8 → mv.toNat < (railLimits s r.toNat).1 →
    (us < 2 → ∃ t, exec (.supplyDip r mv us) s = .next t ∧ t = { s with mon := { s.mon with volts := t.mon.volts } } ∧
      tget t.mon.volts r.toNat = some { tgetD s.mon.volts r.toNat {} with glitch := (tgetD s.mon.volts r.toNat {}).glitch + 1 } ∧
      ∀ k, k ≠ r.toNat → tget t.mon.volts k = tget s.mon.volts k) ∧
    (2 ≤ us → ∃ t, exec (.supplyDip r mv us) s = .next t ∧ t.mon.supwarn = true ∧ (tgetD t.mon.volts r.toNat {}).mv = mv ∧
      (tgetD t.mon.volts r.toNat {}).glitch = (tgetD s.mon.volts r.toNat {}).glitch ∧ t.pins.alert1 = true ∧
      (∀ k, k ≠ r.toNat → tget t.mon.volts k = tget s.mon.volts k) ∧
      (mv.toNat < (railLimits s r.toNat).2 → t.pmu.harmless = true ∧ t.pmu.causes.getLsbD 3 = true ∧ t.pins.alert0 = true ∧
        t.mon.brown.getLsbD r.toNat = true) ∧
      ((railLimits s r.toNat).2 ≤ mv.toNat → t.pmu.harmless = s.pmu.harmless ∧ t.pmu.causes = s.pmu.causes ∧
        t.mon.brown = s.mon.brown ∧ t.mem = s.mem ∧ t.regs = s.regs ∧ t.entries = s.entries))) ∧
  (∀ s : State, railLimits s 0 = (760, 740) ∧ railLimits s 6 = (1710, 1620) ∧ railLimits s 7 = (1710, 0) ∧
    railLimits s 8 = (2000, 0)) ∧
  ∀ s : State, coreOn s = true → (elapsed s s.mon.dipAt 400000 = false → exec .supplyWarnEnd s = .next s) ∧
   (elapsed s s.mon.dipAt 400000 = true → ∃ t, exec .supplyWarnEnd s = .next t ∧ t.mon.supwarn = false ∧
    t.pins.alert1 = (s.pmu.harmless || s.mon.warn || s.mon.throttle) ∧
    t = { s with mon := { s.mon with supwarn := false }, pins := t.pins }))

/-- FINISH_WINDOW_END, BROWNOUT_RECOVERY and HARMLESS_EXIT (R279, R295, R505, R506, R510): 2 ms after the trigger, or with no
operation in progress, every channel is harmless; 100 µs after the last dip the completions that waited come out; at a frame
boundary with no cause left the part is harmless no longer, its segments' outputs run, and every channel that keeps a found
target is up again. (Where the rules leave a choice, this states the model's own: log entries 177, 178, 179, 218 and 231.) -/
def Obligations.TheHarmlessStateEnds : Prop :=
  ∀ s : State,
    (live s = true → s.pmu.finish = true →
      (elapsed s s.pmu.finishAt 800000 = true ∨ ∀ c, c < 8 → busyLuns s c = 0) → ∃ t, exec .finishWindowEnd s = .next t ∧
      t.pmu.finish = false ∧ t.pmu.harmless = s.pmu.harmless ∧ (∀ c, c < 8 → (fchOf t c).up = false ∧ (fchOf t c).harmless = true)) ∧
    (coreOn s = true → s.pmu.brownWait = true → (elapsed s s.mon.dipAt 40000 = false → exec .brownoutRecovery s = .next s) ∧
     (elapsed s s.mon.dipAt 40000 = true →
      let u : State := { s with pmu := { s.pmu with brownWait := false } }
      (s.pmu.finish = true → exec .brownoutRecovery s = .next u) ∧
      (s.pmu.finish = false → exec .brownoutRecovery s = .next (completeAll u)))) ∧
    (atBoundary s = true → s.pmu.harmless = true → s.pmu.causes = 0 → s.pmu.finish = false →
      ∃ t, exec .harmlessExit s = .next t ∧ t.pmu = { s.pmu with harmless := false } ∧ t.pins.alert0 = false ∧ t.pins.cko = true ∧
        t.mem = s.mem ∧ t.regs = s.regs ∧
        (∀ c, c < 8 → (fchOf s c).ended = true → (fchOf s c).vccqBad = false → (fchOf t c).found ≠ 0 →
          (fchOf t c).up = true ∧ (fchOf t c).harmless = false) ∧
        (s.mon.throttle = false → ∀ c, c < 8 → (fchOf s c).found = 0 → fchOf t c = fchOf s c)) ∧
    ((atBoundary s = false ∨ s.pmu.causes ≠ 0) → exec .harmlessExit s = .next s)

/-- The power-on reset and its release (R516, R517, R532, R157): everything but fuses, the tag's memory and the VBAT domain goes;
at release, with VDDIO in one of its classes (R573), BOOTSEL and the process sensor are latched, POWER_UP is the recorder's
first record, the default tables and DOM.KEY0 are set and acquisition begins. (Where the rules leave a choice, this states
the model's own: log entries 7, 180, 181 and 184.) -/
def Obligations.PowerOnResetAndItsRelease : Prop :=
  (∀ s : State, s.phase ≠ .porHeld → s.phase ≠ .deepHold → ∃ t, exec .powerOnReset s = .next t ∧ t.phase = .porHeld ∧
    t.regs = [] ∧ t.hdrs = [] ∧ t.conns = [] ∧ t.regions = [] ∧ t.entries = [] ∧ t.clk = State.reset.clk ∧ t.glb = {} ∧
    t.mon = {} ∧ t.fchs = [] ∧ t.tag.tiles = s.tag.tiles ∧ t.tag.pwd = s.tag.pwd ∧ t.tag.total = s.tag.total ∧
    t.pmu.dhcount = s.pmu.dhcount ∧ t.pmu.lastsrc = s.pmu.lastsrc ∧ t.pmu.state = 0 ∧ t.pending = s.pending ∧
    (s.fus.busy = none → t.fus = s.fus)) ∧
  ∀ (s : State) (bs : BitVec 2) (pr : Byte) (mv : Nat), s.phase = .porHeld →
    (vddioClass mv = none → exec (.powerUp bs pr mv) s = .next s) ∧
    (vddioClass mv ≠ none → s.clk.noTime = true → s.conns = [] →
    ∃ t, exec (.powerUp bs pr mv) s = .next t ∧ t.phase = .acquiring ∧ t.glb.bootsel = bs ∧ t.mon.proc = pr ∧
      t.glb.last = (if s.clk.dhExit then 1 else 0) ∧ t.fus = s.fus ∧ t.mem = [] ∧
      regGet t blkDOM 0x110 = resetKey0 s ∧ (∀ i, i < 32 → regGet t blkECC (0x100 + 8 * i) = Config.bootLlr i) ∧
      tget t.recorder.recs 0 = some ⟨1, 0x001, 0, true, 1, 0, 0, put32 bs.toNat 2 0 ||| put32 (b2n s.clk.dhExit) 4 4,
        put32 pr.toNat 8 0⟩ ∧
      t.recorder.seq = (if s.tag.field then 2 else 1))

/-- A system reset (R533, R535-R537): a pin low for less than 0.2 µs is nothing; longer, or a request confirmed by 0x5A at the
next frame boundary, closes every connection and takes registers, rings and keys, while memory, retired pages, beads, the
recorder's records, the tag and the fuses stay; SYSCNT counts it and LAST tells its kind. (Where the rules leave a choice,
this states the model's own: log entries 181, 182 and 183.) -/
def Obligations.SystemResetsKeepWhatLasts : Prop :=
  (∀ (s : State) (i : Instr) (ns : Nat) (kind : BitVec 4), (i = .resetNLow ns ∧ kind = 2) ∨ (i = .pgoodLow ns ∧ kind = 3) →
    (ns < 200 → exec i s = .next s) ∧
    (200 ≤ ns → (s.phase = .acquiring ∨ s.phase = .running) → ∃ t, exec i s = .next t ∧ t.phase = .resetHeld ∧
      t.glb.last = kind ∧ t.glb.syscnt = s.glb.syscnt + 1 ∧ t.regs = [] ∧ t.hdrs = [] ∧ t.conns = [] ∧ t.regions = [] ∧
      t.sqs = [] ∧ t.cqs = [] ∧ t.entries = [] ∧ t.keys = State.reset.keys ∧ t.movers = [] ∧ t.mem = s.mem ∧ t.retired = s.retired ∧
      t.beads = s.beads ∧ t.tag = s.tag ∧ s.recorder.flushSeq = t.recorder.flushSeq ∧ t.recorder.frozen = none ∧
      (s.fus.busy = none → t.fus = s.fus) ∧ (kind = 2 → t.pins.resetN = false) ∧ (kind = 3 → t.pins.pgood = false))) ∧
  (∀ (s : State) (w : Dom) (v : W64), mayWrite s w blkGLB 0x88 = true → fld v 1 0 = 1 →
    (fld v 15 8 = 0x5A → s.glb.sysReq = none →
      exec (.systemResetRequest w v) s = .next { s with glb := { s.glb with sysReq := some w } }) ∧
    (fld v 15 8 ≠ 0x5A → exec (.systemResetRequest w v) s = .next s)) ∧
  (∀ (s : State) (bs : BitVec 2) (pr : Byte) (d : Dom), s.glb.sysReq = some d → (atBoundary s = false → exec (.systemReset bs pr) s = .next s) ∧
    (atBoundary s = true → ∃ t, exec (.systemReset bs pr) s = .next t ∧ t.phase = .acquiring ∧ t.glb.sysReq = none ∧ t.glb.last = 4 ∧
      t.glb.syscnt = s.glb.syscnt + 1 ∧ t.glb.bootsel = bs ∧ t.mon.proc = pr ∧ t.conns = [] ∧ t.keys = State.reset.keys ∧
      t.mem = s.mem ∧ t.retired = s.retired ∧ t.tag = s.tag ∧ (s.fus.busy = none → t.fus = s.fus))) ∧
  ∀ (s : State) (bs : BitVec 2) (pr : Byte), s.phase = .resetHeld → ∃ t, exec (.systemResetRelease bs pr) s = .next t ∧
    t.phase = .acquiring ∧ t.glb = { s.glb with bootsel := bs } ∧ t.mon = { s.mon with proc := pr } ∧
    t.pins = { s.pins with resetN := true, pgood := true } ∧ regGet t blkDOM 0x110 = resetKey0 s ∧ t.recorder = s.recorder ∧
    t.mem = s.mem ∧ t.fus = s.fus ∧ t.tag = s.tag

/-- FLASH_RESET and RELOAD, their end, and READY (R523, R538-R540): ordered on a READY part with nothing in flight on a channel,
a load begins, counted and recorded RESET, and the images are sought again; otherwise it is refused: BUSY or NOT_READY in
CRES; when every channel has ended discovery it is over, and the first time READY is recorded. (Where the rules leave a
choice, this states the model's own: log entry 143.) -/
def Obligations.FlashResetsAndReady : Prop :=
  (∀ (s : State) (w : Dom) (v : W64) (i : Instr) (kind : Nat),
    ((i = .flashReset w v ∧ kind = 5 ∧ mayWrite s w blkGLB 0x88 = true ∧ fld v 15 8 = 0x5A ∧ fld v 1 0 = 2) ∨
      (i = .reload w v ∧ kind = 6 ∧ mayWrite s w blkBOOT 0x98 = true ∧ bit v 0 = true)) →
    let n := inFlightOnChannels s
    (s.glb.ready = true → s.glb.flashrst = false → n = 0 → ∃ t, exec i s = .next t ∧ t.glb.flashrst = true ∧
      t.glb.last = BitVec.ofNat 4 kind ∧ t.glb.flashcnt = s.glb.flashcnt + 1 ∧ t.boot.busy = true ∧ t.boot.sv = {} ∧ t.boot.pv = {} ∧
      t.boot.cres = put 0 2 0 ||| put (kind - 4) 2 2 ||| put (fld s.boot.cres 63 48 + 1) 16 48 ∧
      t.boot.from_ = (if kind = 6 then 2 else bootSource s.glb.bootsel true) ∧ t.mem = s.mem ∧ t.fus = s.fus ∧ t.regs = s.regs ∧
      (∀ e ∈ t.entries, e.guaranteed = false)) ∧
    ((s.glb.ready = false ∨ s.glb.flashrst = true ∨ n ≠ 0) → exec i s = .next (occur
      (commandResult s (if s.glb.ready then 1 else 2) (kind - 4)) blkBOOT 0xF04 (put32 kind 4 0) (put32 (sat n 16) 16 0)))) ∧
  ∀ s : State,
    (s.boot.busy = true → s.boot.loaded = true → allEnded s = true → ∃ t, exec .flashResetDone s = .next t ∧
      t.glb = { s.glb with flashrst := false } ∧ t.boot.busy = false ∧ t.boot.loaded = false ∧ t = { s with glb := t.glb, boot := t.boot }) ∧
    (live s = true → s.glb.phase = 5 → allEnded s = true → ∃ u, exec .bootReady s =
      .next (occur u blkGLB 0xF08 (put32 (sat (msSince s) 16) 16 0) (put32 (lunTotal s) 9 0 ||| put32 (b2n (baseline s)) 1 9)) ∧
      u.glb = { s.glb with ready := true, phase := 6 } ∧ u = { s with glb := u.glb, boot := u.boot }) ∧
    (allEnded s = false → exec .flashResetDone s = .next s ∧ exec .bootReady s = .next s)

/-- A write of a register within a domain's rights and past the lock (R549, R550, R555, R559, R562): LCK locks the block for
good, ERR clears the captured error, SNP drops the writer's latches, EVS clears the bits written 1 but those that occur
again, EVE keeps the bits of the block's events, SCR holds what is written; a plain register holds its writable bits, and no
other register changes. Snapshots (R557, R560): a read of the first register of a group, within the reader's rights, latches
the whole group for that domain as it stands; a read of another member shows the latch; a domain's latch is not another's; a
read outside the rights is a silent violation. (Where the rules leave a choice, this states the model's own: log entries 18,
24 and 25.) -/
def Obligations.RegistersAreReadAndWritten : Prop :=
  (∀ (s : State) (w : Dom) (k : Byte) (v : W64),
    let h := hdr s k.toNat
    (mayWrite s w k.toNat oLCK = true → bit v 0 = true →
      exec (.lock w k v) s = .next (setHdr s k.toNat { h with lock := true })) ∧
    (mayWrite s w k.toNat oERR = true →
      (bit v 12 = true → exec (.errClear w k v) s =
        .next (setHdr s k.toNat { h with errCode := 0, errValid := false, errSeq := 0 })) ∧
      (bit v 12 = false → exec (.errClear w k v) s = .next s)) ∧
    (mayWrite s w k.toNat oSNP = true → bit v 32 = true → ∃ t, exec (.snapshotRelease w k v) s = .next t ∧
      t = { s with latches := t.latches } ∧ ∀ l, l ∈ t.latches ↔ l ∈ s.latches ∧ ¬ (l.block = k.toNat ∧ l.dom = w)) ∧
    (∀ again : W16, mayWrite s w k.toNat oEVS = true → ∃ t, exec (.eventStatusClear w k v again) s = .next t ∧
      t = setHdr s k.toNat { h with evs := (hdr t k.toNat).evs } ∧
      ∀ n, n < 16 → (evSet t k.toNat n = true ↔ evSet s k.toNat n = true ∧ (v.getLsbD n = false ∨ again.getLsbD n = true))) ∧
    (∀ a : BitVec 20, a.toNat / 4096 = k.toNat → mayWrite s w k.toNat (a.toNat % 4096) = true →
      (a.toNat % 4096 = oSCR → exec (.registerWrite w a v) s = .next (setHdr s k.toNat { h with scr := v })) ∧
      (a.toNat % 4096 = oEVE → exec (.registerWrite w a v) s = .next (setHdr s k.toNat { h with eve := v.setWidth 16 &&& evMask k.toNat })) ∧
      (isFch k.toNat = true → isHeader (a.toNat % 4096) = false → regMask k.toNat (a.toNat % 4096) ≠ 0 →
        ∃ t, exec (.registerWrite w a v) s = .next t ∧
          regGet t k.toNat (a.toNat % 4096) &&& regMask k.toNat (a.toNat % 4096) = v &&& regMask k.toNat (a.toNat % 4096) ∧
          regsBut s t [a.toNat] ∧ t = { s with regs := t.regs }))) ∧
  (∀ (s : State) (w : Dom) (a : BitVec 20), accepting s = true →
    let b := a.toNat / 4096
    let o := a.toNat % 4096
    (listed b o = true → canRead s w b o = true → b ≠ blkREC →
      (∀ g first n, groupOf b o = some (g, first, n) → o = first → ∃ t, exec (.snapshotLatch w a) s = .next t ∧
        findLatch t w b g = some ⟨b, g, w, (List.range n).map fun i => liveReg s w b (first + 8 * i)⟩ ∧
        (∀ d b' g', (d, b', g') ≠ (w, b, g) → findLatch t d b' g' = findLatch s d b' g') ∧ t = { s with latches := t.latches }) ∧
      (∀ g first n x, groupOf b o = some (g, first, n) → o ≠ first → findLatch s w b g = some x →
        exec (.snapshotLatch w a) s = .next s ∧ (readReg s w b o).2 = x.values.getD ((o - first) / 8) 0) ∧
      (groupOf b o = none → exec (.snapshotLatch w a) s = .next s ∧ (readReg s w b o).2 = liveReg s w b o)) ∧
    (listed b o = true → canRead s w b o = false →
      exec (.snapshotLatch w a) s = .next (violate s w { kind := 2, p1 := BitVec.ofNat 32 a.toNat } {})) ∧
    (listed b o = false → exec (.snapshotLatch w a) s = .next (violate s w { kind := 6, p1 := BitVec.ofNat 32 a.toNat } {})))
end

