-- ==== Sys2Proof/Laws/Table.lean ====
section
/-! SUPPORT. Laws of the sparse tables: a read after a write, and the canonical order. -/

namespace Sys2Proof.Machine

@[simp] theorem tget_nil {α : Type} (k : Nat) : tget ([] : Tbl α) k = none := rfl

@[simp] theorem tget_tset_self {α : Type} (t : Tbl α) (k : Nat) (a : α) : tget (tset t k a) k = some a := by
  induction t with
  | nil => simp [tset, tget]
  | cons x t ih =>
    obtain ⟨j, b⟩ := x
    unfold tset
    split
    · simp [tget]
    · split
      · simp [tget]
      · have : j ≠ k := by omega
        simp [tget, this, ih]

theorem tget_tset_ne {α : Type} (t : Tbl α) {k j : Nat} (a : α) (h : j ≠ k) : tget (tset t k a) j = tget t j := by
  induction t with
  | nil => simp [tset, tget, Ne.symm h]
  | cons x t ih =>
    obtain ⟨i, b⟩ := x
    unfold tset
    split
    · simp [tget, Ne.symm h]
    · split
      · rename_i h1 h2
        subst h2
        simp [tget, Ne.symm h]
      · by_cases hi : i = j <;> simp [tget, hi, ih]

theorem tget_tset {α : Type} (t : Tbl α) (k j : Nat) (a : α) : tget (tset t k a) j = if j = k then some a else tget t j := by
  by_cases h : j = k
  · subst h; simp
  · simp [h, tget_tset_ne _ _ h]

@[simp] theorem tgetD_tset_self {α : Type} (t : Tbl α) (k : Nat) (a d : α) : tgetD (tset t k a) k d = a := by
  simp [tgetD]

theorem tgetD_tset_ne {α : Type} (t : Tbl α) {k j : Nat} (a d : α) (h : j ≠ k) : tgetD (tset t k a) j d = tgetD t j d := by
  simp [tgetD, tget_tset_ne _ _ h]

theorem tgetD_tset {α : Type} (t : Tbl α) (k j : Nat) (a d : α) :
    tgetD (tset t k a) j d = if j = k then a else tgetD t j d := by
  by_cases h : j = k
  · subst h; simp
  · simp [h, tgetD_tset_ne _ _ _ h]

@[simp] theorem tset_tset {α : Type} (t : Tbl α) (k : Nat) (a b : α) : tset (tset t k a) k b = tset t k b := by
  induction t with
  | nil => simp [tset]
  | cons x t ih =>
    obtain ⟨j, c⟩ := x
    by_cases h1 : k < j
    · simp [tset, h1]
    · by_cases h2 : k = j
      · subst h2; simp [tset]
      · simp [tset, h1, h2, ih]

theorem tmod_some {α : Type} {t : Tbl α} {k : Nat} {a : α} (f : α → α) (h : tget t k = some a) : tmod t k f = tset t k (f a) := by
  simp [tmod, h]

theorem tmod_none {α : Type} {t : Tbl α} {k : Nat} (f : α → α) (h : tget t k = none) : tmod t k f = t := by
  simp [tmod, h]

@[simp] theorem tmod_tset_self {α : Type} (t : Tbl α) (k : Nat) (a : α) (f : α → α) : tmod (tset t k a) k f = tset t k (f a) := by
  simp [tmod]

@[simp] theorem tget_terase_self {α : Type} (t : Tbl α) (k : Nat) : tget (terase t k) k = none := by
  induction t with
  | nil => rfl
  | cons x t ih =>
    obtain ⟨j, b⟩ := x
    by_cases h : j = k <;> simp [terase, tget, h, ih]

theorem tget_terase_ne {α : Type} (t : Tbl α) {k j : Nat} (h : j ≠ k) : tget (terase t k) j = tget t j := by
  induction t with
  | nil => rfl
  | cons x t ih =>
    obtain ⟨i, b⟩ := x
    by_cases h1 : i = k
    · subst h1; simp [terase, tget, Ne.symm h, ih]
    · simp only [terase, if_neg h1, tget, ih]

/-! ### Order -/

theorem tsorted_tail {α : Type} {x : Nat × α} {t : Tbl α} (h : tsorted (x :: t) = true) : tsorted t = true := by
  obtain ⟨j, a⟩ := x
  match t with
  | [] => rfl
  | (k, b) :: t => simp only [tsorted, Bool.and_eq_true] at h; exact h.2

theorem tsorted_cons {α : Type} {j : Nat} {a : α} {t : Tbl α} (h : ∀ e ∈ t, j < e.1) (ht : tsorted t = true) :
    tsorted ((j, a) :: t) = true := by
  match t with
  | [] => rfl
  | (k, b) :: t => simp [tsorted, h (k, b) (by simp), ht]

theorem tsorted_head {α : Type} {j : Nat} {a : α} {t : Tbl α} (h : tsorted ((j, a) :: t) = true) : ∀ e ∈ t, j < e.1 := by
  induction t generalizing j a with
  | nil => simp
  | cons x t ih =>
    obtain ⟨k, b⟩ := x
    simp only [tsorted, Bool.and_eq_true, decide_eq_true_eq] at h
    intro e he
    rcases List.mem_cons.mp he with rfl | he
    · exact h.1
    · exact Nat.lt_trans h.1 (ih h.2 e he)

theorem mem_tset {α : Type} {t : Tbl α} {k : Nat} {a : α} {e : Nat × α} (h : e ∈ tset t k a) : e = (k, a) ∨ e ∈ t := by
  induction t with
  | nil => left; simpa [tset] using h
  | cons x t ih =>
    obtain ⟨j, b⟩ := x
    unfold tset at h
    split at h
    · rcases List.mem_cons.mp h with h | h
      · exact .inl h
      · exact .inr h
    · split at h
      · rcases List.mem_cons.mp h with h | h
        · exact .inl h
        · exact .inr (List.mem_cons_of_mem _ h)
      · rcases List.mem_cons.mp h with h | h
        · exact .inr (h ▸ List.mem_cons_self ..)
        · exact (ih h).imp id (List.mem_cons_of_mem _)

theorem tsorted_tset {α : Type} {t : Tbl α} (k : Nat) (a : α) (h : tsorted t = true) : tsorted (tset t k a) = true := by
  induction t with
  | nil => rfl
  | cons x t ih =>
    obtain ⟨j, b⟩ := x
    have hh := tsorted_head h
    have ht := tsorted_tail h
    unfold tset
    split
    · rename_i c
      refine tsorted_cons (fun e he => ?_) h
      rcases List.mem_cons.mp he with rfl | he
      · exact c
      · exact Nat.lt_trans c (hh e he)
    · split
      · rename_i c
        subst c
        exact tsorted_cons hh ht
      · refine tsorted_cons (fun e he => ?_) (ih ht)
        rcases mem_tset he with rfl | he
        · show j < k; omega
        · exact hh e he

theorem tsorted_filter {α : Type} {t : Tbl α} (p : Nat × α → Bool) (h : tsorted t = true) : tsorted (t.filter p) = true := by
  induction t with
  | nil => rfl
  | cons x t ih =>
    obtain ⟨j, b⟩ := x
    have hh := tsorted_head h
    rw [List.filter_cons]
    split
    · exact tsorted_cons (fun e he => hh e (List.mem_filter.mp he).1) (ih (tsorted_tail h))
    · exact ih (tsorted_tail h)

end Sys2Proof.Machine
end

