-- ==== Sys2Proof/Laws/Fuses.lean ====
section
/-! SUPPORT. Laws of the fuses: what an accepted command names, and that programming takes nothing back. -/

namespace Sys2Proof.Machine

theorem fieldGrows_refl (a : FuseField) : fieldGrows a a := by cases a <;> simp [fieldGrows]

theorem fusesGrow_refl (a : Fus) : fusesGrow a a :=
  ⟨fun _ => fieldGrows_refl _, fun _ h => h, fieldGrows_refl _, fieldGrows_refl _, Nat.le_refl _, id⟩

/-- What a command in progress is does not enter into growth. -/
theorem fusesGrow_of_same {a b : Fus} (h : { b with busy := none } = { a with busy := none }) : fusesGrow a b := by
  have e : b = { a with busy := b.busy } := by
    have := congrArg (fun f : Fus => { f with busy := b.busy }) h
    exact this
  rw [e]
  exact ⟨fun _ => fieldGrows_refl _, fun _ h => h, fieldGrows_refl _, fieldGrows_refl _, Nat.le_refl _, id⟩

theorem keyFieldResult_zero {f : FuseField} {d : List Byte} (h : keyFieldResult f d = 0) : f = .blank := by
  cases f <;> simp [keyFieldResult] at h ⊢

/-- An accepted command names a field that is blank, or a counter value above the fused one (R375). -/
theorem fuseCondition_blank (s : State) (field value : Nat) (d : List Byte) (b : List Byte) (hf : field < 16) (hv : value < 128)
    (h : fuseCondition s field value d = 0) :
    fuseTargetBlank { s.fus with busy := some (BitVec.ofNat 4 field, BitVec.ofNat 7 value, b) } := by
  have e1 : (BitVec.ofNat 4 field).toNat = field := by simp; omega
  have e2 : (BitVec.ofNat 7 value).toNat = value := by simp; omega
  simp only [fuseTargetBlank, e1, e2]
  unfold fuseCondition at h
  split at h
  · rename_i c; rw [if_pos c]; exact keyFieldResult_zero h
  · rename_i c; rw [if_neg c]
    split at h
    · rename_i c; rw [if_pos c]; exact keyFieldResult_zero h
    · rename_i c; rw [if_neg c]
      split at h
      · rename_i c; rw [if_pos c]; exact keyFieldResult_zero h
      · rename_i c; rw [if_neg c]
        split
        · rename_i c
          subst c
          simp only [show ¬(8 ≤ 12 ∧ 12 ≤ 11) by omega, if_false, if_true] at h
          split at h
          · split at h
            · rename_i c; exact Nat.le_of_lt c.1
            · cases h
          · cases h
        · trivial

theorem fieldGrows_of_blank {x y : FuseField} (h : x = .blank) : fieldGrows x y := by subst h; trivial

theorem arb_step {f : Fus} {v : Nat} (h : f.arb ≤ v) : fusesGrow f { f with arb := v, busy := none } :=
  ⟨fun _ => fieldGrows_refl _, fun _ h => h, fieldGrows_refl _, fieldGrows_refl _, h, id⟩

/-- Programming the field a command names takes nothing back (R375). -/
theorem burn_grows (f : Fus) (field : BitVec 4) (value : BitVec 7) (b d : List Byte) (ok : Bool)
    (hb : f.busy = some (field, value, b)) (h : fuseTargetBlank f) :
    fusesGrow f { burn f field.toNat value.toNat d ok with busy := none } := by
  unfold fuseTargetBlank at h
  rw [hb] at h
  dsimp only at h
  unfold burn
  dsimp only
  split
  · rename_i c
    rw [if_pos c] at h
    refine ⟨fun k => ?_, fun _ h => h, fieldGrows_refl _, fieldGrows_refl _, Nat.le_refl _, id⟩
    by_cases e : k = field.toNat
    · subst e; exact fieldGrows_of_blank h
    · simp only [tgetD, tget_tset_ne _ _ e]; exact fieldGrows_refl _
  · rename_i c
    rw [if_neg c] at h
    split
    · rename_i c
      rw [if_pos c] at h
      exact ⟨fun _ => fieldGrows_refl _, fun _ h => h, fieldGrows_of_blank h, fieldGrows_refl _, Nat.le_refl _, id⟩
    · rename_i c
      rw [if_neg c] at h
      split
      · rename_i c
        rw [if_pos c] at h
        exact ⟨fun _ => fieldGrows_refl _, fun _ h => h, fieldGrows_refl _, fieldGrows_of_blank h, Nat.le_refl _, id⟩
      · rename_i c
        rw [if_neg c] at h
        have same : fusesGrow f { f with busy := none } :=
          ⟨fun _ => fieldGrows_refl _, fun _ h => h, fieldGrows_refl _, fieldGrows_refl _, Nat.le_refl _, id⟩
        split
        · exact same
        · split
          · exact ⟨fun _ => fieldGrows_refl _, fun i hi => by simp [BitVec.getLsbD_or, hi], fieldGrows_refl _, fieldGrows_refl _,
              Nat.le_refl _, id⟩
          · split
            · rename_i c; rw [if_pos c] at h; exact arb_step h
            · exact ⟨fun _ => fieldGrows_refl _, fun _ h => h, fieldGrows_refl _, fieldGrows_refl _, Nat.le_refl _, fun _ => rfl⟩

end Sys2Proof.Machine
end

