-- ==== Sys2Proof/Laws/Memory.lean ====
section
/-! SUPPORT. Laws of buffer memory: its canonical form is kept, a read after a write gives what was written, and a write
leaves every other byte alone. -/

namespace Sys2Proof.Machine

theorem cellsWf_tset {m : List Host.Cell} {a : Nat} {b : Byte} (h : cellsWf m) (ha : a < 2 ^ 23) : cellsWf (tset m a b) := by
  refine ⟨tsorted_tset _ _ h.1, ?_⟩
  rw [List.all_eq_true]
  intro e he
  rcases mem_tset he with rfl | he
  · simpa using ha
  · exact List.all_eq_true.mp h.2 e he

theorem cellsWf_filter {m : List Host.Cell} (p : Host.Cell → Bool) (h : cellsWf m) : cellsWf (m.filter p) := by
  refine ⟨tsorted_filter _ h.1, ?_⟩
  rw [List.all_eq_true]
  intro e he
  exact List.all_eq_true.mp h.2 e (List.mem_filter.mp he).1

theorem memSet_wf {s : State} (a : Nat) (b : Byte) (h : Memory.wf s) : Memory.wf (memSet s a b) := by
  unfold memSet
  split
  · rename_i c; exact cellsWf_tset h c
  · exact h

theorem memWrite_wf {s : State} (a : Nat) (l : List Byte) (h : Memory.wf s) : Memory.wf (memWrite s a l) := by
  induction l generalizing s a with
  | nil => exact h
  | cons b t ih => exact ih _ (memSet_wf a b h)

theorem memForget_wf {s : State} (a n : Nat) (h : Memory.wf s) : Memory.wf (memForget s a n) := cellsWf_filter _ h

theorem memGet_memSet_self (s : State) {a : Nat} (b : Byte) (h : a < 2 ^ 23) : memGet (memSet s a b) a = b := by
  unfold memSet
  rw [if_pos h]
  simp [memGet]

theorem memGet_memSet_ne (s : State) {a x : Nat} (b : Byte) (h : x ≠ a) : memGet (memSet s a b) x = memGet s x := by
  unfold memSet
  split
  · simp [memGet, tgetD_tset_ne _ _ _ h]
  · rfl

theorem memGet_memWrite_before (s : State) {a x : Nat} (l : List Byte) (h : x < a) : memGet (memWrite s a l) x = memGet s x := by
  induction l generalizing s a with
  | nil => rfl
  | cons b t ih => rw [memWrite, ih _ (by omega), memGet_memSet_ne _ _ (by omega)]

theorem memGet_memWrite_after (s : State) {a x : Nat} (l : List Byte) (h : a + l.length ≤ x) :
    memGet (memWrite s a l) x = memGet s x := by
  induction l generalizing s a with
  | nil => rfl
  | cons b t ih =>
    simp only [List.length_cons] at h
    rw [memWrite, ih _ (by omega), memGet_memSet_ne _ _ (by omega)]

theorem memRead_memWrite_before (s : State) (a x n : Nat) (l : List Byte) (h : x + n ≤ a) :
    memRead (memWrite s a l) x n = memRead s x n := by
  induction n generalizing x with
  | zero => rfl
  | succ n ih => simp only [memRead]; rw [memGet_memWrite_before _ _ (by omega), ih _ (by omega)]

/-- What was written is read back. -/
theorem memRead_memWrite (s : State) (a : Nat) (l : List Byte) (h : a + l.length ≤ 2 ^ 23) :
    memRead (memWrite s a l) a l.length = l := by
  induction l generalizing s a with
  | nil => rfl
  | cons b t ih =>
    simp only [List.length_cons] at h ⊢
    simp only [memRead, memWrite]
    rw [memGet_memWrite_before _ _ (by omega), memGet_memSet_self _ _ (by omega), ih _ _ (by omega)]

end Sys2Proof.Machine
end

