-- ==== Sys2Proof/Laws/Ops.lean ====
section
/-! SUPPORT. What the shared operations over headers, the recorder and event queues can do, said once each. -/

namespace Sys2Proof.Machine

/-! ### Headers -/

@[simp] theorem hdr_setHdr_self (s : State) (b : Nat) (h : Hdr) : hdr (setHdr s b h) b = h := by simp [hdr, setHdr]

theorem hdr_setHdr_ne (s : State) {b j : Nat} (h : Hdr) (n : j ≠ b) : hdr (setHdr s b h) j = hdr s j := by
  simp [hdr, setHdr, tgetD_tset_ne _ _ _ n]

@[simp] theorem regGet_regSet_self (s : State) (b o : Nat) (v : W64) : regGet (regSet s b o v) b o = v := by
  simp [regGet, regSet]

theorem regGet_regSet_ne (s : State) {b o c p : Nat} (v : W64) (n : regAddr c p ≠ regAddr b o) :
    regGet (regSet s b o v) c p = regGet s c p := by
  simp [regGet, regSet, tgetD_tset_ne _ _ _ n]

theorem regsBut_regSet (s : State) (b o : Nat) (v : W64) : regsBut s (regSet s b o v) [regAddr b o] := by
  intro a h
  simp only [List.mem_singleton] at h
  exact tget_tset_ne _ _ h

/-! ### What recording may touch -/

/-- A state with the four fields that recording writes set. -/
def noteFields (s : State) (r : Recorder) (h : Tbl Hdr) (c : Tbl Conn) (n : W16) : State :=
  { s with recorder := r, hdrs := h, conns := c, evDrop := n }

theorem OnlyNoted.refl (s : State) : OnlyNoted s s := ⟨rfl, fun _ => rfl, fun _ => rfl⟩

theorem OnlyNoted.trans {s t u : State} (h : OnlyNoted s t) (k : OnlyNoted t u) : OnlyNoted s u := by
  refine ⟨?_, fun i => (k.2.1 i).trans (h.2.1 i), fun b => ?_⟩
  · have e := congrArg (fun x => noteFields x u.recorder u.hdrs u.conns u.evDrop) h.1
    exact k.1.trans e
  · have e1 := h.2.2 b
    have e2 := k.2.2 b
    rw [e2]
    rw [e1]

/-- Event and error fields apart, a header keeps what it held. -/
theorem onlyNoted_setHdr (s : State) (b : Nat) (evs : W16) (code : BitVec 12) (valid : Bool) (q : W32) :
    OnlyNoted s (setHdr s b { hdr s b with evs := evs, errCode := code, errValid := valid, errSeq := q }) := by
  refine ⟨rfl, fun _ => rfl, fun j => ?_⟩
  by_cases n : j = b
  · subst n; simp
  · rw [hdr_setHdr_ne _ _ n]

theorem onlyNoted_recorder (s : State) (r : Recorder) : OnlyNoted s { s with recorder := r } :=
  ⟨rfl, fun _ => rfl, fun _ => rfl⟩

theorem captureErr_onlyNoted (s : State) (b : Nat) (c : BitVec 12) : OnlyNoted s (captureErr s b c) := by
  unfold captureErr
  dsimp only
  split
  · exact .refl s
  · exact onlyNoted_setHdr s b (hdr s b).evs _ _ _

theorem recordAt_onlyNoted (s : State) (fr : W32) (sl : BitVec 6) (b : Nat) (c : BitVec 12) (p0 p1 : W32) :
    OnlyNoted s (recordAt s fr sl b c p0 p1) := by
  unfold recordAt
  split
  · exact onlyNoted_recorder s _
  · exact (onlyNoted_recorder s _).trans (captureErr_onlyNoted _ _ _)

theorem setEvs_onlyNoted (s : State) (b : Nat) (c : BitVec 12) : OnlyNoted s (setEvs s b c) := by
  unfold setEvs
  split
  · exact .refl s
  · exact onlyNoted_setHdr s b _ (hdr s b).errCode _ _

/-- A connection's event queue is all that a change of `evseq`, `held` and `evNext` touches. -/
theorem onlyNoted_conn (s : State) (k : Nat) (c : Conn) (q : W16) (l : List EventRec) (n : Nat) (e : tget s.conns k = some c) :
    OnlyNoted s { s with conns := tset s.conns k { c with evseq := q, held := l, evNext := n } } := by
  refine ⟨rfl, fun j => ?_, fun _ => rfl⟩
  by_cases n : j = k
  · subst n; simp [e, Conn.quiet]
  · simp [tget_tset_ne _ _ n]

theorem pushEvent_onlyNoted (s : State) (k : Nat) (kind : Byte) (b : Nat) (code : BitVec 12) (p0 p1 : W32) :
    OnlyNoted s (pushEvent s k kind b code p0 p1).1 := by
  unfold pushEvent
  split
  · exact .refl s
  · rename_i c e
    dsimp only
    split
    · exact onlyNoted_conn s k c _ _ _ e
    · exact onlyNoted_conn s k c _ c.held c.evNext e

theorem recordDrop_onlyNoted (s : State) (k : Nat) (q : W16) : OnlyNoted s (recordDrop s k q) := by
  unfold recordDrop
  have h : OnlyNoted s { s with evDrop := s.evDrop + 1 } := ⟨rfl, fun _ => rfl, fun _ => rfl⟩
  exact (h.trans (recordAt_onlyNoted _ _ _ _ _ _ _)).trans (setEvs_onlyNoted _ _ _)

theorem copyDrops_onlyNoted (s : State) (p0 : W32) (l : List Nat) : OnlyNoted s (copyDrops s p0 l) := by
  induction l generalizing s with
  | nil => exact .refl s
  | cons k t ih =>
    have h := pushEvent_onlyNoted s k 2 blkLNK 0x113 p0 0
    unfold copyDrops
    split <;> rename_i e <;> rw [e] at h
    · exact h.trans (ih _)
    · exact (h.trans (recordDrop_onlyNoted _ _ _)).trans (ih _)

theorem noteDrop_onlyNoted (s : State) (k : Nat) (q : W16) : OnlyNoted s (noteDrop s k q) :=
  (recordDrop_onlyNoted s k q).trans (copyDrops_onlyNoted _ _ _)

theorem copyTo_onlyNoted (s : State) (kind : Byte) (b : Nat) (code : BitVec 12) (p0 p1 : W32) (l : List Nat) :
    OnlyNoted s (copyTo s kind b code p0 p1 l) := by
  induction l generalizing s with
  | nil => exact .refl s
  | cons k t ih =>
    have h := pushEvent_onlyNoted s k kind b code p0 p1
    unfold copyTo
    split <;> rename_i e <;> rw [e] at h
    · exact h.trans (ih _)
    · exact (h.trans (noteDrop_onlyNoted _ _ _)).trans (ih _)

theorem occurAt_onlyNoted (s : State) (fr : W32) (sl : BitVec 6) (b : Nat) (c : BitVec 12) (p0 p1 : W32) :
    OnlyNoted s (occurAt s fr sl b c p0 p1) := by
  unfold occurAt
  dsimp only
  refine OnlyNoted.trans ?_ (copyTo_onlyNoted _ _ _ _ _ _ _)
  refine OnlyNoted.trans ?_ (setEvs_onlyNoted _ _ _)
  split
  · exact .refl s
  · exact recordAt_onlyNoted _ _ _ _ _ _ _

theorem occurRing_onlyNoted (s : State) (b : Nat) (d : Dom) (c : BitVec 12) (p0 p1 : W32) :
    OnlyNoted s (occurRing s b d c p0 p1) := by
  unfold occurRing
  dsimp only
  exact ((recordAt_onlyNoted _ _ _ _ _ _ _).trans (setEvs_onlyNoted _ _ _)).trans (copyTo_onlyNoted _ _ _ _ _ _ _)

/-- A violation is its epoch's advance and what recording touches (R27). -/
theorem violate_onlyNoted (s : State) (d : Dom) (v : Viol) (o : Origin) :
    OnlyNoted { s with epochs := tset s.epochs d.toNat (epochOf s d + 1) } (violate s d v o) := occurAt_onlyNoted _ _ _ _ _ _ _

/-! ### What is recorded -/

theorem captureErr_recorder (s : State) (b : Nat) (c : BitVec 12) : (captureErr s b c).recorder = s.recorder := by
  unfold captureErr
  dsimp only
  split <;> rfl

theorem captureErr_conns (s : State) (b : Nat) (c : BitVec 12) : (captureErr s b c).conns = s.conns := by
  unfold captureErr
  dsimp only
  split <;> rfl

theorem setEvs_recorder (s : State) (b : Nat) (c : BitVec 12) : (setEvs s b c).recorder = s.recorder := by
  unfold setEvs
  split <;> rfl

/-- One new record, or one tally raised (R447-R450). -/
theorem recordAt_recorded (s : State) (fr : W32) (sl : BitVec 6) (b : Nat) (c : BitVec 12) (p0 p1 : W32) :
    Recorded s (recordAt s fr sl b c p0 p1) b c p0 p1 := by
  unfold Recorded recordAt
  cases raisable s.recorder c p0 p1 with
  | some x => simp
  | none =>
    dsimp only
    rw [captureErr_recorder]
    refine ⟨_, by simp only [newRecord]; exact tget_tset_self _ _ _, ?_⟩
    exact ⟨rfl, rfl, rfl, rfl, rfl, rfl, rfl⟩

theorem setEvs_conns (s : State) (b : Nat) (c : BitVec 12) : (setEvs s b c).conns = s.conns := by
  unfold setEvs
  split <;> rfl

theorem recordAt_conns (s : State) (fr : W32) (sl : BitVec 6) (b : Nat) (c : BitVec 12) (p0 p1 : W32) :
    (recordAt s fr sl b c p0 p1).conns = s.conns := by
  unfold recordAt
  cases raisable s.recorder c p0 p1 with
  | some x => rfl
  | none => exact captureErr_conns _ _ _

/-! ### Register writes -/

/-- A write that may take effect does. -/
theorem guardedWrite_of_mayWrite {s : State} {w : Dom} {b o : Nat} (og : Origin) (f : State → State)
    (h : mayWrite s w b o = true) : guardedWrite s w b o og f = f s := by
  unfold mayWrite at h
  unfold guardedWrite
  simp only [Bool.and_eq_true, Bool.not_eq_true', Bool.and_eq_false_iff] at h
  obtain ⟨⟨⟨h1, h2⟩, h3⟩, h4⟩ := h
  rcases h4 with h4 | h4 <;> simp [h1, h2, h3, h4]

end Sys2Proof.Machine
end

