-- ==== Sys2Proof/Laws/Keeps.lean ====
section
/-! SUPPORT. What every operation of the machine keeps: the queue of commands, the canonical form of memory and what the
fuses hold. One lemma for each operation on State, in the form that chains: `Keeps s0 s` gives `Keeps s0 (f s ...)`. -/

namespace Sys2Proof.Machine

set_option linter.all false
set_option Elab.async false

/-- The fuses hold what they held; a command in progress stays in progress as it is, and names a blank field if it did. -/
def FusStep (a b : Fus) : Prop :=
  { b with busy := none } = { a with busy := none } ∧ (a.busy ≠ none → b = a) ∧ (fuseTargetBlank a → fuseTargetBlank b)

theorem FusStep.refl (a : Fus) : FusStep a a := ⟨rfl, fun _ => rfl, id⟩

theorem FusStep.trans {a b c : Fus} (h : FusStep a b) (k : FusStep b c) : FusStep a c := by
  refine ⟨k.1.trans h.1, fun ha => ?_, fun x => k.2.2 (h.2.2 x)⟩
  have hb := h.2.1 ha
  rw [← hb]
  exact k.2.1 (hb ▸ ha)

/-- `t` has the queue and the fuses of `s`, and its memory is canonical where that of `s` is. -/
structure Keeps (s t : State) : Prop where
  pending : t.pending = s.pending
  mem : cellsWf s.mem → cellsWf t.mem
  fus : FusStep s.fus t.fus

theorem Keeps.refl (s : State) : Keeps s s := ⟨rfl, id, FusStep.refl _⟩

theorem Keeps.parts {s u : State} (h : Keeps s u) :
    u.pending = s.pending ∧ (cellsWf s.mem → cellsWf u.mem) ∧ FusStep s.fus u.fus := ⟨h.pending, h.mem, h.fus⟩

theorem keeps_mk {s : State} {a0} {a1} {a2} {a3} {a4} {a5} {a6} {a7} {a8} {a9} {a10} {a11} {a12} {a13} {a14} {a15} {a16} {a17} {a18} {a19} {a20} {a21} {a22} {a23} {a24} {a25} {a26} {a27} {a28} {a29} {a30} {a31} {a32} {a33} {a34} {a35} {a36} {a37} {a38} {a39} {a40} {a41} {a42} {a43} {a44} {a45} {a46} {a47} {a48} {a49} {a50} {a51} {a52} {a53} {a54} {a55} {a56} {a57} {a58} {a59} {a60} {a61} {a62} {a63} {a64} {a65} {a66} {a67} {a68} {a69} {a70} {a71} {a72} :
    Keeps s (State.mk a0 a1 a2 a3 a4 a5 a6 a7 a8 a9 a10 a11 a12 a13 a14 a15 a16 a17 a18 a19 a20 a21 a22 a23 a24 a25 a26 a27 a28 a29 a30 a31 a32 a33 a34 a35 a36 a37 a38 a39 a40 a41 a42 a43 a44 a45 a46 a47 a48 a49 a50 a51 a52 a53 a54 a55 a56 a57 a58 a59 a60 a61 a62 a63 a64 a65 a66 a67 a68 a69 a70 a71 a72) ↔ a0 = s.pending ∧ (cellsWf s.mem → cellsWf a60) ∧ FusStep s.fus a53 :=
  ⟨fun h => ⟨h.pending, h.mem, h.fus⟩, fun h => ⟨h.1, h.2.1, h.2.2⟩⟩

theorem foldl_keeps {α : Type} {s0 : State} (g : State → α → State) (l : List α) (s : State)
    (hg : ∀ u a, Keeps s0 u → Keeps s0 (g u a)) (h : Keeps s0 s) : Keeps s0 (l.foldl g s) := by
  induction l generalizing s with
  | nil => exact h
  | cons a t ih => exact ih _ (hg _ _ h)

theorem foldl_keeps_fst {α β : Type} {s0 : State} (g : State × β → α → State × β) (l : List α) (s : State × β)
    (hg : ∀ u a, Keeps s0 u.1 → Keeps s0 (g u a).1) (h : Keeps s0 s.1) : Keeps s0 (l.foldl g s).1 := by
  induction l generalizing s with
  | nil => exact h
  | cons a t ih => exact ih _ (hg _ _ h)


theorem fld_lt (w : W64) (hi lo : Nat) : fld w hi lo < 2 ^ (hi - lo + 1) := Nat.mod_lt _ (Nat.two_pow_pos _)
theorem atSlot_keeps {s0 : State} (s : State) (k : BitVec 6) (hk : Keeps s0 s) :
    Keeps s0 (atSlot s k) := by
  unfold atSlot
  repeat with_reducible first
    | assumption | (simp only [keeps_mk]; exact Keeps.parts ‹_›) | (simp only [keeps_mk]; refine Keeps.parts ?_) | split
    | dsimp only | intro

theorem emit_keeps {s0 : State} (s : State) (o : Output) (hk : Keeps s0 s) :
    Keeps s0 (emit s o) := by
  unfold emit
  repeat with_reducible first
    | assumption | (simp only [keeps_mk]; exact Keeps.parts ‹_›) | (simp only [keeps_mk]; refine Keeps.parts ?_) | split
    | dsimp only | intro

theorem regSet_keeps {s0 : State} (s : State) (b o : Nat) (v : W64) (hk : Keeps s0 s) :
    Keeps s0 (regSet s b o v) := by
  unfold regSet
  repeat with_reducible first
    | assumption | (simp only [keeps_mk]; exact Keeps.parts ‹_›) | (simp only [keeps_mk]; refine Keeps.parts ?_) | split
    | dsimp only | intro

theorem regStore_keeps {s0 : State} (s : State) (b o : Nat) (v : W64) (hk : Keeps s0 s) :
    Keeps s0 (regStore s b o v) := by
  unfold regStore
  repeat with_reducible first
    | assumption | apply regSet_keeps | (simp only [keeps_mk]; exact Keeps.parts ‹_›)
    | (simp only [keeps_mk]; refine Keeps.parts ?_) | split | dsimp only | intro

theorem setHdr_keeps {s0 : State} (s : State) (b : Nat) (h : Hdr) (hk : Keeps s0 s) :
    Keeps s0 (setHdr s b h) := by
  unfold setHdr
  repeat with_reducible first
    | assumption | (simp only [keeps_mk]; exact Keeps.parts ‹_›) | (simp only [keeps_mk]; refine Keeps.parts ?_) | split
    | dsimp only | intro

theorem captureErr_keeps {s0 : State} (s : State) (b : Nat) (c : BitVec 12) (hk : Keeps s0 s) :
    Keeps s0 (captureErr s b c) := by
  unfold captureErr
  repeat with_reducible first
    | assumption | apply setHdr_keeps | (simp only [keeps_mk]; exact Keeps.parts ‹_›)
    | (simp only [keeps_mk]; refine Keeps.parts ?_) | split | dsimp only | intro

theorem recordAt_keeps {s0 : State} (s : State) (fr : W32) (sl : BitVec 6) (b : Nat) (c : BitVec 12) (p0 p1 : W32) (hk : Keeps s0 s) :
    Keeps s0 (recordAt s fr sl b c p0 p1) := by
  unfold recordAt
  repeat with_reducible first
    | assumption | apply captureErr_keeps | (simp only [keeps_mk]; exact Keeps.parts ‹_›)
    | (simp only [keeps_mk]; refine Keeps.parts ?_) | split | dsimp only | intro

theorem setEvs_keeps {s0 : State} (s : State) (b : Nat) (c : BitVec 12) (hk : Keeps s0 s) :
    Keeps s0 (setEvs s b c) := by
  unfold setEvs
  repeat with_reducible first
    | assumption | apply setHdr_keeps | (simp only [keeps_mk]; exact Keeps.parts ‹_›)
    | (simp only [keeps_mk]; refine Keeps.parts ?_) | split | dsimp only | intro

theorem pushEvent_keeps {s0 : State} (s : State) (k : Nat) (kind : Byte) (b : Nat) (code : BitVec 12) (p0 p1 : W32) (hk : Keeps s0 s) :
    Keeps s0 (pushEvent s k kind b code p0 p1).1 := by
  unfold pushEvent
  repeat with_reducible first
    | assumption | (simp only [keeps_mk]; exact Keeps.parts ‹_›) | (simp only [keeps_mk]; refine Keeps.parts ?_) | split
    | dsimp only | intro
theorem pushEvent_keeps_of {s0 tt : State} {xx : Option W16} (s : State) (k : Nat) (kind : Byte) (b : Nat) (code : BitVec 12) (p0 p1 : W32) (hE : (pushEvent s k kind b code p0 p1) = (tt, xx)) (hk : Keeps s0 s) :
    Keeps s0 tt := by
  have hK := pushEvent_keeps (s0 := s0) (s := s) (k := k) (kind := kind) (b := b) (code := code) (p0 := p0) (p1 := p1)
  rw [hE] at hK; exact hK hk

theorem recordDrop_keeps {s0 : State} (s : State) (k : Nat) (q : W16) (hk : Keeps s0 s) :
    Keeps s0 (recordDrop s k q) := by
  unfold recordDrop
  repeat with_reducible first
    | assumption | apply recordAt_keeps | apply setEvs_keeps | (simp only [keeps_mk]; exact Keeps.parts ‹_›)
    | (simp only [keeps_mk]; refine Keeps.parts ?_) | split | dsimp only | intro

theorem copyDrops_keeps {s0 : State} (s : State) (p0 : W32) (l : List Nat) (hk : Keeps s0 s) :
    Keeps s0 (copyDrops s p0 l) := by
  induction l generalizing s with
  | nil => exact hk
  | cons a t ih =>
    unfold copyDrops
    split <;> rename_i e <;> exact ih _ (by first | exact pushEvent_keeps_of _ _ _ _ _ _ _ e hk | exact recordDrop_keeps _ _ _ (pushEvent_keeps_of _ _ _ _ _ _ _ e hk))

theorem noteDrop_keeps {s0 : State} (s : State) (k : Nat) (q : W16) (hk : Keeps s0 s) :
    Keeps s0 (noteDrop s k q) := by
  unfold noteDrop
  repeat with_reducible first
    | assumption | apply recordDrop_keeps | apply copyDrops_keeps | (simp only [keeps_mk]; exact Keeps.parts ‹_›)
    | (simp only [keeps_mk]; refine Keeps.parts ?_) | split | dsimp only | intro

theorem copyTo_keeps {s0 : State} (s : State) (kind : Byte) (b : Nat) (code : BitVec 12) (p0 p1 : W32) (l : List Nat) (hk : Keeps s0 s) :
    Keeps s0 (copyTo s kind b code p0 p1 l) := by
  induction l generalizing s with
  | nil => exact hk
  | cons a t ih =>
    unfold copyTo
    split <;> rename_i e <;> exact ih _ (by first | exact pushEvent_keeps_of _ _ _ _ _ _ _ e hk | exact noteDrop_keeps _ _ _ (pushEvent_keeps_of _ _ _ _ _ _ _ e hk))

theorem occurAt_keeps {s0 : State} (s : State) (fr : W32) (sl : BitVec 6) (b : Nat) (c : BitVec 12) (p0 p1 : W32) (hk : Keeps s0 s) :
    Keeps s0 (occurAt s fr sl b c p0 p1) := by
  unfold occurAt
  repeat with_reducible first
    | assumption | apply recordAt_keeps | apply setEvs_keeps | apply copyTo_keeps
    | (simp only [keeps_mk]; exact Keeps.parts ‹_›) | (simp only [keeps_mk]; refine Keeps.parts ?_) | split | dsimp only
    | intro

theorem occur_keeps {s0 : State} (s : State) (b : Nat) (c : BitVec 12) (p0 p1 : W32) (hk : Keeps s0 s) :
    Keeps s0 (occur s b c p0 p1) := by
  unfold occur
  repeat with_reducible first
    | assumption | apply occurAt_keeps | (simp only [keeps_mk]; exact Keeps.parts ‹_›)
    | (simp only [keeps_mk]; refine Keeps.parts ?_) | split | dsimp only | intro

theorem occurRing_keeps {s0 : State} (s : State) (b : Nat) (d : Dom) (c : BitVec 12) (p0 p1 : W32) (hk : Keeps s0 s) :
    Keeps s0 (occurRing s b d c p0 p1) := by
  unfold occurRing
  repeat with_reducible first
    | assumption | apply recordAt_keeps | apply setEvs_keeps | apply copyTo_keeps
    | (simp only [keeps_mk]; exact Keeps.parts ‹_›) | (simp only [keeps_mk]; refine Keeps.parts ?_) | split | dsimp only
    | intro

theorem violate_keeps {s0 : State} (s : State) (d : Dom) (v : Viol) (o : Origin) (hk : Keeps s0 s) :
    Keeps s0 (violate s d v o) := by
  unfold violate
  repeat with_reducible first
    | assumption | apply occur_keeps | (simp only [keeps_mk]; exact Keeps.parts ‹_›)
    | (simp only [keeps_mk]; refine Keeps.parts ?_) | split | dsimp only | intro

theorem memSet_keeps {s0 : State} (s : State) (a : Nat) (b : Byte) (hk : Keeps s0 s) : Keeps s0 (memSet s a b) := by
  unfold memSet
  split
  · exact ⟨hk.pending, fun h => cellsWf_tset (hk.mem h) (by assumption), hk.fus⟩
  · exact hk

theorem memWrite_keeps {s0 : State} (s : State) (a : Nat) (y0 : List Byte) :
    Keeps s0 s → Keeps s0 (memWrite s a y0) := by
  induction y0 generalizing s a <;> intro hk <;> unfold memWrite
  all_goals repeat with_reducible first
    | apply_assumption | assumption | apply memSet_keeps | (simp only [keeps_mk]; exact Keeps.parts ‹_›)
    | (simp only [keeps_mk]; refine Keeps.parts ?_) | split | dsimp only | intro

theorem noteParity_keeps {s0 : State} (s : State) (kind : Nat) (w m : Nat) (hk : Keeps s0 s) :
    Keeps s0 (noteParity s kind w m) := by
  unfold noteParity
  repeat with_reducible first
    | assumption | apply occur_keeps | (simp only [keeps_mk]; exact Keeps.parts ‹_›)
    | (simp only [keeps_mk]; refine Keeps.parts ?_) | split | dsimp only | intro

theorem noteFailing_keeps {s0 : State} (s : State) (kind : Nat) (l : List Nat) (hk : Keeps s0 s) :
    Keeps s0 (noteFailing s kind l) := by
  unfold noteFailing
  repeat with_reducible first
    | assumption | apply noteParity_keeps | apply foldl_keeps | apply foldl_keeps_fst
    | (simp only [keeps_mk]; exact Keeps.parts ‹_›) | (simp only [keeps_mk]; refine Keeps.parts ?_) | split | dsimp only
    | intro

theorem memForget_keeps {s0 : State} (s : State) (a n : Nat) (hk : Keeps s0 s) : Keeps s0 (memForget s a n) :=
  ⟨hk.pending, fun h => cellsWf_filter _ (hk.mem h), hk.fus⟩

theorem denied_keeps {s0 : State} (s : State) (b : Nat) (hk : Keeps s0 s) :
    Keeps s0 (denied s b) := by
  unfold denied
  repeat with_reducible first
    | assumption | apply setHdr_keeps | (simp only [keeps_mk]; exact Keeps.parts ‹_›)
    | (simp only [keeps_mk]; refine Keeps.parts ?_) | split | dsimp only | intro

theorem guardedWrite_keeps {s0 : State} (s : State) (d : Dom) (b o : Nat) (og : Origin) (eff : State → State) (h_eff : ∀ (x0 : State), Keeps s0 x0 → Keeps s0 (eff x0)) (hk : Keeps s0 s) :
    Keeps s0 (guardedWrite s d b o og eff) := by
  unfold guardedWrite
  repeat with_reducible first
    | assumption | apply violate_keeps | apply denied_keeps | apply h_eff | (simp only [keeps_mk]; exact Keeps.parts ‹_›)
    | (simp only [keeps_mk]; refine Keeps.parts ?_) | split | dsimp only | intro

theorem setLink_keeps {s0 : State} (s : State) (node : BitVec 6) (l : LinkSt) (hk : Keeps s0 s) :
    Keeps s0 (setLink s node l) := by
  unfold setLink
  repeat with_reducible first
    | assumption | (simp only [keeps_mk]; exact Keeps.parts ‹_›) | (simp only [keeps_mk]; refine Keeps.parts ?_) | split
    | dsimp only | intro

theorem enqueue_keeps {s0 : State} (s : State) (node : BitVec 6) (q : Queued) (hk : Keeps s0 s) :
    Keeps s0 (enqueue s node q) := by
  unfold enqueue
  repeat with_reducible first
    | assumption | apply setLink_keeps | (simp only [keeps_mk]; exact Keeps.parts ‹_›)
    | (simp only [keeps_mk]; refine Keeps.parts ?_) | split | dsimp only | intro

theorem returnCredit_keeps {s0 : State} (s : State) (k : Option Nat) (n : Nat) (hk : Keeps s0 s) :
    Keeps s0 (returnCredit s k n) := by
  unfold returnCredit
  repeat with_reducible first
    | assumption | (simp only [keeps_mk]; exact Keeps.parts ‹_›) | (simp only [keeps_mk]; refine Keeps.parts ?_) | split
    | dsimp only | intro

theorem returnCredits_keeps {s0 : State} (s : State) (qs : List Queued) (hk : Keeps s0 s) :
    Keeps s0 (returnCredits s qs) := by
  unfold returnCredits
  repeat with_reducible first
    | assumption | apply returnCredit_keeps | apply foldl_keeps | apply foldl_keeps_fst
    | (simp only [keeps_mk]; exact Keeps.parts ‹_›) | (simp only [keeps_mk]; refine Keeps.parts ?_) | split | dsimp only
    | intro

theorem spillContext_keeps {s0 : State} (s : State) (k : Nat) (hk : Keeps s0 s) :
    Keeps s0 (spillContext s k) := by
  unfold spillContext
  repeat with_reducible first
    | assumption | apply memWrite_keeps | (simp only [keeps_mk]; exact Keeps.parts ‹_›)
    | (simp only [keeps_mk]; refine Keeps.parts ?_) | split | dsimp only | intro

theorem spillOne_keeps {s0 : State} (s : State) (hk : Keeps s0 s) :
    Keeps s0 (spillOne s) := by
  unfold spillOne
  repeat with_reducible first
    | assumption | apply spillContext_keeps | (simp only [keeps_mk]; exact Keeps.parts ‹_›)
    | (simp only [keeps_mk]; refine Keeps.parts ?_) | split | dsimp only | intro

theorem useContext_keeps {s0 : State} (s : State) (k : Nat) (hk : Keeps s0 s) :
    Keeps s0 (useContext s k) := by
  unfold useContext
  repeat with_reducible first
    | assumption | apply spillOne_keeps | (simp only [keeps_mk]; exact Keeps.parts ‹_›)
    | (simp only [keeps_mk]; refine Keeps.parts ?_) | split | dsimp only | intro

theorem refreshRest_keeps {s0 : State} (s : State) (hk : Keeps s0 s) :
    Keeps s0 (refreshRest s) := by
  unfold refreshRest
  repeat with_reducible first
    | assumption | apply occur_keeps | (simp only [keeps_mk]; exact Keeps.parts ‹_›)
    | (simp only [keeps_mk]; refine Keeps.parts ?_) | split | dsimp only | intro

theorem closeConn_keeps {s0 : State} (s : State) (k cause : Nat) (hk : Keeps s0 s) :
    Keeps s0 (closeConn s k cause) := by
  unfold closeConn
  repeat with_reducible first
    | assumption | apply occur_keeps | apply setLink_keeps | apply refreshRest_keeps
    | (simp only [keeps_mk]; exact Keeps.parts ‹_›) | (simp only [keeps_mk]; refine Keeps.parts ?_) | split | dsimp only
    | intro

theorem closeNode_keeps {s0 : State} (s : State) (node : BitVec 6) (cause : Nat) (hk : Keeps s0 s) :
    Keeps s0 (closeNode s node cause) := by
  unfold closeNode
  repeat with_reducible first
    | assumption | apply closeConn_keeps | apply foldl_keeps | apply foldl_keeps_fst
    | (simp only [keeps_mk]; exact Keeps.parts ‹_›) | (simp only [keeps_mk]; refine Keeps.parts ?_) | split | dsimp only
    | intro

theorem refuseOpen_keeps {s0 : State} (s : State) (node : BitVec 6) (d : Dom) (nonce : W32) (result : Byte) (hk : Keeps s0 s) :
    Keeps s0 (refuseOpen s node d nonce result) := by
  unfold refuseOpen
  repeat with_reducible first
    | assumption | apply occur_keeps | apply enqueue_keeps | (simp only [keeps_mk]; exact Keeps.parts ‹_›)
    | (simp only [keeps_mk]; refine Keeps.parts ?_) | split | dsimp only | intro

theorem acceptOpen_keeps {s0 : State} (s : State) (node : BitVec 6) (nonce : W32) (d : Dom) (events pin : Bool) (credits : Nat) (rseq0 : W16)
    (k a : Nat) (hk : Keeps s0 s) :
    Keeps s0 (acceptOpen s node nonce d events pin credits rseq0 k a) := by
  unfold acceptOpen
  repeat with_reducible first
    | assumption | apply occur_keeps | apply memForget_keeps | apply enqueue_keeps | apply spillOne_keeps
    | apply refreshRest_keeps | (simp only [keeps_mk]; exact Keeps.parts ‹_›) | (simp only [keeps_mk]; refine Keeps.parts ?_)
    | split | dsimp only | intro

theorem judgeOpen_keeps {s0 : State} (s : State) (node : BitVec 6) (nonce key : W32) (d : Dom) (events pin : Bool) (credits : Nat) (rseq0 : W16) (hk : Keeps s0 s) :
    Keeps s0 (judgeOpen s node nonce key d events pin credits rseq0) := by
  unfold judgeOpen
  repeat with_reducible first
    | assumption | apply violate_keeps | apply enqueue_keeps | apply refuseOpen_keeps | apply acceptOpen_keeps
    | (simp only [keeps_mk]; exact Keeps.parts ‹_›) | (simp only [keeps_mk]; refine Keeps.parts ?_) | split | dsimp only
    | intro

theorem judgeRequest_keeps {s0 : State} (s : State) (rq : Req) (type : Byte) (len : Nat) (c : Conn) (run : State → Conn → State × Answered) (h_run : ∀ (x0 : State) (x1 : Conn), Keeps s0 x0 → Keeps s0 (run x0 x1).1) (hk : Keeps s0 s) :
    Keeps s0 (judgeRequest s rq type len c run) := by
  unfold judgeRequest
  repeat with_reducible first
    | assumption | apply occur_keeps | apply noteFailing_keeps | apply enqueue_keeps | apply h_run
    | (simp only [keeps_mk]; exact Keeps.parts ‹_›) | (simp only [keeps_mk]; refine Keeps.parts ?_) | split | dsimp only
    | intro

theorem emitPacket_keeps {s0 : State} (s : State) (node : BitVec 6) (l : LinkSt) (lseq : Byte) (retx : Bool) (body : TxBody) (hk : Keeps s0 s) :
    Keeps s0 (emitPacket s node l lseq retx body) := by
  unfold emitPacket
  repeat with_reducible first
    | assumption | apply emit_keeps | (simp only [keeps_mk]; exact Keeps.parts ‹_›)
    | (simp only [keeps_mk]; refine Keeps.parts ?_) | split | dsimp only | intro

theorem emitAck_keeps {s0 : State} (s : State) (node : BitVec 6) (l : LinkSt) (hk : Keeps s0 s) :
    Keeps s0 (emitAck s node l) := by
  unfold emitAck
  repeat with_reducible first
    | assumption | apply emit_keeps | (simp only [keeps_mk]; exact Keeps.parts ‹_›)
    | (simp only [keeps_mk]; refine Keeps.parts ?_) | split | dsimp only | intro

theorem sendNew_keeps {s0 : State} (s : State) (node : BitVec 6) (body : TxBody) (queue : List Queued) (sent : List Queued) (hk : Keeps s0 s) :
    Keeps s0 (sendNew s node body queue sent) := by
  unfold sendNew
  repeat with_reducible first
    | assumption | apply setLink_keeps | apply returnCredits_keeps | apply emitPacket_keeps
    | (simp only [keeps_mk]; exact Keeps.parts ‹_›) | (simp only [keeps_mk]; refine Keeps.parts ?_) | split | dsimp only
    | intro

theorem dropFailing_keeps {s0 : State} (s : State) (k : Nat) (c : Conn) (hk : Keeps s0 s) :
    Keeps s0 (dropFailing s k c) := by
  unfold dropFailing
  repeat with_reducible first
    | assumption | apply noteDrop_keeps | apply noteFailing_keeps | apply foldl_keeps | apply foldl_keeps_fst
    | (simp only [keeps_mk]; exact Keeps.parts ‹_›) | (simp only [keeps_mk]; refine Keeps.parts ?_) | split | dsimp only
    | intro

theorem sendEvents_keeps {s0 : State} (s : State) (node : BitVec 6) (y0 : List Nat) :
    Keeps s0 s → Keeps s0 (sendEvents s node y0).1 := by
  induction y0 generalizing s with
  | nil => intro hk; exact hk
  | cons k t ih =>
    intro hk
    unfold sendEvents
    split
    · exact ih s hk
    · extract_lets es s1
      have h1 : Keeps s0 s1 := dropFailing_keeps _ _ _ hk
      split
      · exact ih s1 h1
      · exact sendNew_keeps _ _ _ _ _ (keeps_mk.mpr h1.parts)
theorem sendEvents_keeps_of {s0 tt : State} {xx : Bool} (s : State) (node : BitVec 6) (y0 : List Nat) (hE : (sendEvents s node y0) = (tt, xx)) (hk : Keeps s0 s) :
    Keeps s0 tt := by
  have hK := sendEvents_keeps (s0 := s0) s node y0
  rw [hE] at hK; exact hK hk

theorem sendQueued_keeps {s0 : State} (s : State) (node : BitVec 6) (q : Queued) (rest queue : List Queued) (hk : Keeps s0 s) :
    Keeps s0 (sendQueued s node q rest queue) := by
  unfold sendQueued
  repeat with_reducible first
    | assumption | apply sendNew_keeps | (simp only [keeps_mk]; exact Keeps.parts ‹_›)
    | (simp only [keeps_mk]; refine Keeps.parts ?_) | split | dsimp only | intro

theorem sendAck_keeps {s0 : State} (s : State) (node : BitVec 6) (due : Bool) (hk : Keeps s0 s) :
    Keeps s0 (sendAck s node due) := by
  unfold sendAck
  repeat with_reducible first
    | assumption | apply setLink_keeps | apply emitAck_keeps | (simp only [keeps_mk]; exact Keeps.parts ‹_›)
    | (simp only [keeps_mk]; refine Keeps.parts ?_) | split | dsimp only | intro

theorem sendOne_keeps {s0 : State} (s : State) (node : BitVec 6) (due : Bool) (hk : Keeps s0 s) :
    Keeps s0 (sendOne s node due) := by
  unfold sendOne
  extract_lets lk r
  split
  · exact setLink_keeps _ _ _ (emitPacket_keeps _ _ _ _ _ _ hk)
  · split
    · exact sendAck_keeps _ _ _ hk
    · split
      · exact sendQueued_keeps _ _ _ _ _ hk
      · have h1 : Keeps s0 r.1 := sendEvents_keeps _ _ _ hk
        split
        · exact h1
        · split
          · exact sendQueued_keeps _ _ _ _ _ h1
          · exact sendAck_keeps _ _ _ h1

theorem linkLose_keeps {s0 : State} (s : State) (node : BitVec 6) (hk : Keeps s0 s) :
    Keeps s0 (linkLose s node) := by
  unfold linkLose
  repeat with_reducible first
    | assumption | apply setLink_keeps | apply returnCredits_keeps | (simp only [keeps_mk]; exact Keeps.parts ‹_›)
    | (simp only [keeps_mk]; refine Keeps.parts ?_) | split | dsimp only | intro

theorem linkRestart_keeps {s0 : State} (s : State) (node : BitVec 6) (hk : Keeps s0 s) :
    Keeps s0 (linkRestart s node) := by
  unfold linkRestart
  repeat with_reducible first
    | assumption | apply setLink_keeps | apply returnCredits_keeps | (simp only [keeps_mk]; exact Keeps.parts ‹_›)
    | (simp only [keeps_mk]; refine Keeps.parts ?_) | split | dsimp only | intro

theorem setSegAB_keeps {s0 : State} (s : State) (g : Seg) (v : SegAB) (hk : Keeps s0 s) :
    Keeps s0 (setSegAB s g v) := by
  unfold setSegAB
  repeat with_reducible first
    | assumption | (simp only [keeps_mk]; exact Keeps.parts ‹_›) | (simp only [keeps_mk]; refine Keeps.parts ?_) | split
    | dsimp only | intro

theorem foreign_keeps {s0 : State} (s : State) (g : Seg) (node slot : BitVec 6) (hk : Keeps s0 s) :
    Keeps s0 (foreign s g node slot) := by
  unfold foreign
  repeat with_reducible first
    | assumption | apply occur_keeps | apply setSegAB_keeps | (simp only [keeps_mk]; exact Keeps.parts ‹_›)
    | (simp only [keeps_mk]; refine Keeps.parts ?_) | split | dsimp only | intro

theorem writeHit_keeps {s0 : State} (s : State) (g : Seg) (h : PendHit) (hk : Keeps s0 s) :
    Keeps s0 (writeHit s g h) := by
  unfold writeHit
  repeat with_reducible first
    | assumption | apply occurAt_keeps | apply setSegAB_keeps | (simp only [keeps_mk]; exact Keeps.parts ‹_›)
    | (simp only [keeps_mk]; refine Keeps.parts ?_) | split | dsimp only | intro

theorem settleHit_keeps {s0 : State} (s : State) (g : Seg) (k : Nat) (hk : Keeps s0 s) :
    Keeps s0 (settleHit s g k) := by
  unfold settleHit
  repeat with_reducible first
    | assumption | apply writeHit_keeps | apply foldl_keeps | apply foldl_keeps_fst
    | (simp only [keeps_mk]; exact Keeps.parts ‹_›) | (simp only [keeps_mk]; refine Keeps.parts ?_) | split | dsimp only
    | intro

theorem enterSlot_keeps {s0 : State} (s : State) (g : Seg) (k : BitVec 6) (hk : Keeps s0 s) :
    Keeps s0 (enterSlot s g k) := by
  unfold enterSlot
  repeat with_reducible first
    | assumption | apply atSlot_keeps | apply settleHit_keeps | (simp only [keeps_mk]; exact Keeps.parts ‹_›)
    | (simp only [keeps_mk]; refine Keeps.parts ?_) | split | dsimp only | intro

theorem nearPacket_keeps {s0 : State} (s : State) (g : Seg) (rx : Rx) (hk : Keeps s0 s) :
    Keeps s0 (nearPacket s g rx) := by
  unfold nearPacket
  repeat with_reducible first
    | assumption | apply occur_keeps | apply setSegAB_keeps | (simp only [keeps_mk]; exact Keeps.parts ‹_›)
    | (simp only [keeps_mk]; refine Keeps.parts ?_) | split | dsimp only | intro

theorem countHit_keeps {s0 : State} (s : State) (g : Seg) (node : BitVec 6) (hk : Keeps s0 s) :
    Keeps s0 (countHit s g node) := by
  unfold countHit
  repeat with_reducible first
    | assumption | apply occur_keeps | apply setSegAB_keeps | (simp only [keeps_mk]; exact Keeps.parts ‹_›)
    | (simp only [keeps_mk]; refine Keeps.parts ?_) | split | dsimp only | intro

theorem hitPacket_keeps {s0 : State} (s : State) (g : Seg) (rx : Rx) (hk : Keeps s0 s) :
    Keeps s0 (hitPacket s g rx) := by
  unfold hitPacket
  repeat with_reducible first
    | assumption | apply occur_keeps | apply setSegAB_keeps | apply countHit_keeps
    | (simp only [keeps_mk]; exact Keeps.parts ‹_›) | (simp only [keeps_mk]; refine Keeps.parts ?_) | split | dsimp only
    | intro

theorem takeSlot_keeps {s0 : State} (s : State) (g : Seg) (k : BitVec 6) (hk : Keeps s0 s) :
    Keeps s0 (takeSlot s g k) := by
  unfold takeSlot
  repeat with_reducible first
    | assumption | apply setSegAB_keeps | (simp only [keeps_mk]; exact Keeps.parts ‹_›)
    | (simp only [keeps_mk]; refine Keeps.parts ?_) | split | dsimp only | intro

theorem noteGood_keeps {s0 : State} (s : State) (g : Seg) (node : BitVec 6) (hk : Keeps s0 s) :
    Keeps s0 (noteGood s g node) := by
  unfold noteGood
  repeat with_reducible first
    | assumption | apply setSegAB_keeps | (simp only [keeps_mk]; exact Keeps.parts ‹_›)
    | (simp only [keeps_mk]; refine Keeps.parts ?_) | split | dsimp only | intro

theorem receiveAB_keeps {s0 : State} (s : State) (rx : Rx) (tick : Bool) (hk : Keeps s0 s) :
    Keeps s0 (receiveAB s rx tick).1 := by
  unfold receiveAB
  repeat with_reducible first
    | assumption | apply setSegAB_keeps | apply foreign_keeps | apply enterSlot_keeps | apply nearPacket_keeps
    | apply hitPacket_keeps | apply takeSlot_keeps | apply noteGood_keeps | (simp only [keeps_mk]; exact Keeps.parts ‹_›)
    | (simp only [keeps_mk]; refine Keeps.parts ?_) | split | dsimp only | intro
theorem receiveAB_keeps_of {s0 tt : State} {xx : Bool} (s : State) (rx : Rx) (tick : Bool) (hE : (receiveAB s rx tick) = (tt, xx)) (hk : Keeps s0 s) :
    Keeps s0 tt := by
  have hK := receiveAB_keeps (s0 := s0) (s := s) (rx := rx) (tick := tick)
  rw [hE] at hK; exact hK hk

theorem receiveC_keeps {s0 : State} (s : State) (rx : Rx) (hk : Keeps s0 s) :
    Keeps s0 (receiveC s rx).1 := by
  unfold receiveC
  repeat with_reducible first
    | assumption | (simp only [keeps_mk]; exact Keeps.parts ‹_›) | (simp only [keeps_mk]; refine Keeps.parts ?_) | split
    | dsimp only | intro
theorem receiveC_keeps_of {s0 tt : State} {xx : Bool} (s : State) (rx : Rx) (hE : (receiveC s rx) = (tt, xx)) (hk : Keeps s0 s) :
    Keeps s0 tt := by
  have hK := receiveC_keeps (s0 := s0) (s := s) (rx := rx)
  rw [hE] at hK; exact hK hk

theorem receive_keeps {s0 : State} (s : State) (rx : Rx) (hk : Keeps s0 s) :
    Keeps s0 (receive s rx).1 := by
  unfold receive
  repeat with_reducible first
    | assumption | apply receiveAB_keeps | refine receiveAB_keeps_of ‹_› ?_ | apply receiveC_keeps
    | refine receiveC_keeps_of ‹_› ?_ | (simp only [keeps_mk]; exact Keeps.parts ‹_›)
    | (simp only [keeps_mk]; refine Keeps.parts ?_) | split | dsimp only | intro
theorem receive_keeps_of {s0 tt : State} {xx : Bool} (s : State) (rx : Rx) (hE : (receive s rx) = (tt, xx)) (hk : Keeps s0 s) :
    Keeps s0 tt := by
  have hK := receive_keeps (s0 := s0) (s := s) (rx := rx)
  rw [hE] at hK; exact hK hk

theorem answerAB_keeps {s0 : State} (s : State) (g : Seg) (i : Nat) (kind : BitVec 4) (v : W16) (hk : Keeps s0 s) :
    Keeps s0 (answerAB s g i kind v) := by
  unfold answerAB
  repeat with_reducible first
    | assumption | apply setSegAB_keeps | (simp only [keeps_mk]; exact Keeps.parts ‹_›)
    | (simp only [keeps_mk]; refine Keeps.parts ?_) | split | dsimp only | intro

theorem refuseAB_keeps {s0 : State} (s : State) (g : Seg) (i : BitVec 4) (kind : BitVec 4) (nonce : W32) (hk : Keeps s0 s) :
    Keeps s0 (refuseAB s g i kind nonce) := by
  unfold refuseAB
  repeat with_reducible first
    | assumption | apply occur_keeps | apply answerAB_keeps | (simp only [keeps_mk]; exact Keeps.parts ‹_›)
    | (simp only [keeps_mk]; refine Keeps.parts ?_) | split | dsimp only | intro

theorem joinNode_keeps {s0 : State} (s : State) (g : Seg) (i : BitVec 4) (nonce : W32) (v : W16) (hk : Keeps s0 s) :
    Keeps s0 (joinNode s g i nonce v) := by
  unfold joinNode
  repeat with_reducible first
    | assumption | apply occur_keeps | apply linkRestart_keeps | apply setSegAB_keeps | apply answerAB_keeps
    | (simp only [keeps_mk]; exact Keeps.parts ‹_›) | (simp only [keeps_mk]; refine Keeps.parts ?_) | split | dsimp only
    | intro

theorem hearLack_keeps {s0 : State} (s : State) (rx : Rx) (hk : Keeps s0 s) :
    Keeps s0 (hearLack s rx) := by
  unfold hearLack
  repeat with_reducible first
    | assumption | apply setLink_keeps | (simp only [keeps_mk]; exact Keeps.parts ‹_›)
    | (simp only [keeps_mk]; refine Keeps.parts ?_) | split | dsimp only | intro

theorem rejoinNode_keeps {s0 : State} (s : State) (g : Seg) (i : BitVec 4) (v : W16) (hk : Keeps s0 s) :
    Keeps s0 (rejoinNode s g i v) := by
  unfold rejoinNode
  repeat with_reducible first
    | assumption | apply linkRestart_keeps | apply setSegAB_keeps | apply answerAB_keeps
    | (simp only [keeps_mk]; exact Keeps.parts ‹_›) | (simp only [keeps_mk]; refine Keeps.parts ?_) | split | dsimp only
    | intro

theorem judgeJoin_keeps {s0 : State} (s : State) (rx : Rx) (i : BitVec 4) (nonce : W32) (hk : Keeps s0 s) :
    Keeps s0 (judgeJoin s rx i nonce) := by
  unfold judgeJoin
  repeat with_reducible first
    | assumption | apply closeNode_keeps | apply refuseAB_keeps | apply joinNode_keeps | apply hearLack_keeps
    | apply rejoinNode_keeps | (simp only [keeps_mk]; exact Keeps.parts ‹_›) | (simp only [keeps_mk]; refine Keeps.parts ?_)
    | split | dsimp only | intro

theorem judgeRange_keeps {s0 : State} (s : State) (rx : Rx) (i : BitVec 4) (nonce : W32) (hk : Keeps s0 s) :
    Keeps s0 (judgeRange s rx i nonce) := by
  unfold judgeRange
  repeat with_reducible first
    | assumption | apply linkRestart_keeps | apply setSegAB_keeps | apply answerAB_keeps | apply refuseAB_keeps
    | apply hearLack_keeps | (simp only [keeps_mk]; exact Keeps.parts ‹_›) | (simp only [keeps_mk]; refine Keeps.parts ?_)
    | split | dsimp only | intro

theorem noteHolder_keeps {s0 : State} (s : State) (rx : Rx) (i : BitVec 4) (nonce : W32) (hk : Keeps s0 s) :
    Keeps s0 (noteHolder s rx i nonce) := by
  unfold noteHolder
  repeat with_reducible first
    | assumption | apply noteGood_keeps | (simp only [keeps_mk]; exact Keeps.parts ‹_›)
    | (simp only [keeps_mk]; refine Keeps.parts ?_) | split | dsimp only | intro

theorem receiveJoin_keeps {s0 : State} (s : State) (rx : Rx) (i : BitVec 4) (nonce : W32) (judge : State → State) (h_judge : ∀ (x0 : State), Keeps s0 x0 → Keeps s0 (judge x0)) (hk : Keeps s0 s) :
    Keeps s0 (receiveJoin s rx i nonce judge) := by
  unfold receiveJoin
  repeat with_reducible first
    | assumption | apply foreign_keeps | apply enterSlot_keeps | apply takeSlot_keeps | apply noteHolder_keeps | apply h_judge
    | (simp only [keeps_mk]; exact Keeps.parts ‹_›) | (simp only [keeps_mk]; refine Keeps.parts ?_) | split | dsimp only
    | intro

theorem dropLink_keeps {s0 : State} (s : State) (node : BitVec 6) (hk : Keeps s0 s) :
    Keeps s0 (dropLink s node) := by
  unfold dropLink
  repeat with_reducible first
    | assumption | apply setLink_keeps | (simp only [keeps_mk]; exact Keeps.parts ‹_›)
    | (simp only [keeps_mk]; refine Keeps.parts ?_) | split | dsimp only | intro

theorem joinC_keeps {s0 : State} (s : State) (rx : Rx) (i : BitVec 4) (nonce : W32) (hk : Keeps s0 s) :
    Keeps s0 (joinC s rx i nonce) := by
  unfold joinC
  repeat with_reducible first
    | assumption | apply occur_keeps | apply closeNode_keeps | apply linkRestart_keeps | apply hearLack_keeps
    | apply dropLink_keeps | (simp only [keeps_mk]; exact Keeps.parts ‹_›) | (simp only [keeps_mk]; refine Keeps.parts ?_)
    | split | dsimp only | intro

theorem judgeErrored_keeps {s0 : State} (s : State) (rx : Rx) (hk : Keeps s0 s) :
    Keeps s0 (judgeErrored s rx) := by
  unfold judgeErrored
  repeat with_reducible first
    | assumption | apply hitPacket_keeps | (simp only [keeps_mk]; exact Keeps.parts ‹_›)
    | (simp only [keeps_mk]; refine Keeps.parts ?_) | split | dsimp only | intro

theorem damagedAB_keeps {s0 : State} (s : State) (rx : Rx) (e : RxErrors) (crcBad : Bool) (hk : Keeps s0 s) :
    Keeps s0 (damagedAB s rx e crcBad) := by
  unfold damagedAB
  repeat with_reducible first
    | assumption | apply occur_keeps | apply setSegAB_keeps | apply enterSlot_keeps | apply takeSlot_keeps
    | apply judgeErrored_keeps | (simp only [keeps_mk]; exact Keeps.parts ‹_›) | (simp only [keeps_mk]; refine Keeps.parts ?_)
    | split | dsimp only | intro

theorem writeMapCtl_keeps {s0 : State} (s : State) (g : Seg) (v : W64) (hk : Keeps s0 s) :
    Keeps s0 (writeMapCtl s g v) := by
  unfold writeMapCtl
  repeat with_reducible first
    | assumption | apply regStore_keeps | apply setSegAB_keeps | (simp only [keeps_mk]; exact Keeps.parts ‹_›)
    | (simp only [keeps_mk]; refine Keeps.parts ?_) | split | dsimp only | intro

theorem writeEvict_keeps {s0 : State} (s : State) (g : Seg) (v : W64) (hk : Keeps s0 s) :
    Keeps s0 (writeEvict s g v) := by
  unfold writeEvict
  repeat with_reducible first
    | assumption | apply setSegAB_keeps | (simp only [keeps_mk]; exact Keeps.parts ‹_›)
    | (simp only [keeps_mk]; refine Keeps.parts ?_) | split | dsimp only | intro

theorem removeNode_keeps {s0 : State} (s : State) (g : Seg) (i : BitVec 4) (hk : Keeps s0 s) :
    Keeps s0 (removeNode s g i) := by
  unfold removeNode
  repeat with_reducible first
    | assumption | apply closeNode_keeps | apply setSegAB_keeps | apply dropLink_keeps
    | (simp only [keeps_mk]; exact Keeps.parts ‹_›) | (simp only [keeps_mk]; refine Keeps.parts ?_) | split | dsimp only
    | intro

theorem recordBurst_keeps {s0 : State} (s : State) (g : Seg) (hk : Keeps s0 s) :
    Keeps s0 (recordBurst s g) := by
  unfold recordBurst
  repeat with_reducible first
    | assumption | apply occurAt_keeps | (simp only [keeps_mk]; exact Keeps.parts ‹_›)
    | (simp only [keeps_mk]; refine Keeps.parts ?_) | split | dsimp only | intro

theorem endFrameAB_keeps {s0 : State} (s : State) (g : Seg) (hk : Keeps s0 s) :
    Keeps s0 (endFrameAB s g) := by
  unfold endFrameAB
  repeat with_reducible first
    | assumption | apply setSegAB_keeps | apply writeHit_keeps | apply recordBurst_keeps | apply foldl_keeps
    | apply foldl_keeps_fst | (simp only [keeps_mk]; exact Keeps.parts ‹_›) | (simp only [keeps_mk]; refine Keeps.parts ?_)
    | split | dsimp only | intro

theorem holdSlot_keeps {s0 : State} (s : State) (g : Seg) (k : BitVec 6) (air : Nat) (hk : Keeps s0 s) :
    Keeps s0 (holdSlot s g k air) := by
  unfold holdSlot
  repeat with_reducible first
    | assumption | apply setSegAB_keeps | (simp only [keeps_mk]; exact Keeps.parts ‹_›)
    | (simp only [keeps_mk]; refine Keeps.parts ?_) | split | dsimp only | intro

theorem emitBeacon_keeps {s0 : State} (s : State) (g : Seg) (payload : List Byte) (hk : Keeps s0 s) :
    Keeps s0 (emitBeacon s g payload) := by
  unfold emitBeacon
  repeat with_reducible first
    | assumption | apply emit_keeps | (simp only [keeps_mk]; exact Keeps.parts ‹_›)
    | (simp only [keeps_mk]; refine Keeps.parts ?_) | split | dsimp only | intro

theorem sendBeacon_keeps {s0 : State} (s : State) (g : Seg) (hk : Keeps s0 s) :
    Keeps s0 (sendBeacon s g) := by
  unfold sendBeacon
  repeat with_reducible first
    | assumption | apply emit_keeps | apply setSegAB_keeps | apply holdSlot_keeps | apply emitBeacon_keeps
    | (simp only [keeps_mk]; exact Keeps.parts ‹_›) | (simp only [keeps_mk]; refine Keeps.parts ?_) | split | dsimp only
    | intro

theorem setSrc_keeps {s0 : State} (s : State) (key : Nat) (v : Src) (hk : Keeps s0 s) :
    Keeps s0 (setSrc s key v) := by
  unfold setSrc
  repeat with_reducible first
    | assumption | (simp only [keeps_mk]; exact Keeps.parts ‹_›) | (simp only [keeps_mk]; refine Keeps.parts ?_) | split
    | dsimp only | intro

theorem recordDeepHoldExit_keeps {s0 : State} (s : State) (hk : Keeps s0 s) :
    Keeps s0 (recordDeepHoldExit s) := by
  unfold recordDeepHoldExit
  repeat with_reducible first
    | assumption | apply occur_keeps | apply foldl_keeps | apply foldl_keeps_fst
    | (simp only [keeps_mk]; exact Keeps.parts ‹_›) | (simp only [keeps_mk]; refine Keeps.parts ?_) | split | dsimp only
    | intro

theorem noteWrap_keeps {s0 : State} (s : State) (wrap : Bool) (hk : Keeps s0 s) :
    Keeps s0 (noteWrap s wrap) := by
  unfold noteWrap
  repeat with_reducible first
    | assumption | apply occur_keeps | (simp only [keeps_mk]; exact Keeps.parts ‹_›)
    | (simp only [keeps_mk]; refine Keeps.parts ?_) | split | dsimp only | intro

theorem beginWindow_keeps {s0 : State} (s : State) (hk : Keeps s0 s) :
    Keeps s0 (beginWindow s) := by
  unfold beginWindow
  repeat with_reducible first
    | assumption | (simp only [keeps_mk]; exact Keeps.parts ‹_›) | (simp only [keeps_mk]; refine Keeps.parts ?_) | split
    | dsimp only | intro

theorem resumeTime_keeps {s0 : State} (s : State) (c : Clk) (hk : Keeps s0 s) :
    Keeps s0 (resumeTime s c) := by
  unfold resumeTime
  repeat with_reducible first
    | assumption | apply beginWindow_keeps | (simp only [keeps_mk]; exact Keeps.parts ‹_›)
    | (simp only [keeps_mk]; refine Keeps.parts ?_) | split | dsimp only | intro

theorem beginTime_keeps {s0 : State} (s : State) (c : Clk) (hk : Keeps s0 s) :
    Keeps s0 (beginTime s c) := by
  unfold beginTime
  repeat with_reducible first
    | assumption | apply beginWindow_keeps | (simp only [keeps_mk]; exact Keeps.parts ‹_›)
    | (simp only [keeps_mk]; refine Keeps.parts ?_) | split | dsimp only | intro

theorem lockTo_keeps {s0 : State} (s : State) (entry : Nat) (node : BitVec 6) (mean : Int) (hk : Keeps s0 s) :
    Keeps s0 (lockTo s entry node mean) := by
  unfold lockTo
  repeat with_reducible first
    | assumption | apply regSet_keeps | apply occur_keeps | apply sendBeacon_keeps | apply recordDeepHoldExit_keeps
    | apply noteWrap_keeps | apply resumeTime_keeps | apply beginTime_keeps | (simp only [keeps_mk]; exact Keeps.parts ‹_›)
    | (simp only [keeps_mk]; refine Keeps.parts ?_) | split | dsimp only | intro

theorem onCki_keeps {s0 : State} (s : State) (hk : Keeps s0 s) :
    Keeps s0 (onCki s) := by
  unfold onCki
  repeat with_reducible first
    | assumption | (simp only [keeps_mk]; exact Keeps.parts ‹_›) | (simp only [keeps_mk]; refine Keeps.parts ?_) | split
    | dsimp only | intro

theorem tryLock_keeps {s0 : State} (s : State) (hk : Keeps s0 s) :
    Keeps s0 (tryLock s) := by
  unfold tryLock
  repeat with_reducible first
    | assumption | apply lockTo_keeps | apply onCki_keeps | (simp only [keeps_mk]; exact Keeps.parts ‹_›)
    | (simp only [keeps_mk]; refine Keeps.parts ?_) | split | dsimp only | intro

theorem heardInAcquisition_keeps {s0 : State} (s : State) (key : Nat) (hk : Keeps s0 s) :
    Keeps s0 (heardInAcquisition s key) := by
  unfold heardInAcquisition
  repeat with_reducible first
    | assumption | apply tryLock_keeps | (simp only [keeps_mk]; exact Keeps.parts ‹_›)
    | (simp only [keeps_mk]; refine Keeps.parts ?_) | split | dsimp only | intro

theorem tickRunning_keeps {s0 : State} (s : State) (rx : Rx) (sequence : Byte) (interval count : Nat) (hk : Keeps s0 s) :
    Keeps s0 (tickRunning s rx sequence interval count) := by
  unfold tickRunning
  repeat with_reducible first
    | assumption | apply setSrc_keeps | (simp only [keeps_mk]; exact Keeps.parts ‹_›)
    | (simp only [keeps_mk]; refine Keeps.parts ?_) | split | dsimp only | intro

theorem measureInAcquisition_keeps {s0 : State} (s : State) (key : Nat) (sequence : Byte) (interval count : Nat) (hk : Keeps s0 s) :
    Keeps s0 (measureInAcquisition s key sequence interval count) := by
  unfold measureInAcquisition
  repeat with_reducible first
    | assumption | apply setSrc_keeps | (simp only [keeps_mk]; exact Keeps.parts ‹_›)
    | (simp only [keeps_mk]; refine Keeps.parts ?_) | split | dsimp only | intro

theorem ignoreTick_keeps {s0 : State} (s : State) (rx : Rx) (hk : Keeps s0 s) :
    Keeps s0 (ignoreTick s rx) := by
  unfold ignoreTick
  repeat with_reducible first
    | assumption | apply noteGood_keeps | apply receiveC_keeps | refine receiveC_keeps_of ‹_› ?_
    | (simp only [keeps_mk]; exact Keeps.parts ‹_›) | (simp only [keeps_mk]; refine Keeps.parts ?_) | split | dsimp only
    | intro

theorem takeUnsequenced_keeps {s0 : State} (s : State) (rx : Rx) (hk : Keeps s0 s) :
    Keeps s0 (takeUnsequenced s rx) := by
  unfold takeUnsequenced
  repeat with_reducible first
    | assumption | apply setLink_keeps | (simp only [keeps_mk]; exact Keeps.parts ‹_›)
    | (simp only [keeps_mk]; refine Keeps.parts ?_) | split | dsimp only | intro

theorem enterHoldover_keeps {s0 : State} (s : State) (hk : Keeps s0 s) :
    Keeps s0 (enterHoldover s) := by
  unfold enterHoldover
  repeat with_reducible first
    | assumption | apply occur_keeps | (simp only [keeps_mk]; exact Keeps.parts ‹_›)
    | (simp only [keeps_mk]; refine Keeps.parts ?_) | split | dsimp only | intro

theorem noteQualified_keeps {s0 : State} (s : State) (key : Nat) (hk : Keeps s0 s) :
    Keeps s0 (noteQualified s key) := by
  unfold noteQualified
  repeat with_reducible first
    | assumption | apply occur_keeps | apply setSrc_keeps | (simp only [keeps_mk]; exact Keeps.parts ‹_›)
    | (simp only [keeps_mk]; refine Keeps.parts ?_) | split | dsimp only | intro

theorem switchTo_keeps {s0 : State} (s : State) (n key : Nat) (hk : Keeps s0 s) :
    Keeps s0 (switchTo s n key) := by
  unfold switchTo
  repeat with_reducible first
    | assumption | apply occur_keeps | apply noteQualified_keeps | (simp only [keeps_mk]; exact Keeps.parts ‹_›)
    | (simp only [keeps_mk]; refine Keeps.parts ?_) | split | dsimp only | intro

theorem writeForce_keeps {s0 : State} (s : State) (v : W64) (hk : Keeps s0 s) :
    Keeps s0 (writeForce s v) := by
  unfold writeForce
  repeat with_reducible first
    | assumption | (simp only [keeps_mk]; exact Keeps.parts ‹_›) | (simp only [keeps_mk]; refine Keeps.parts ?_) | split
    | dsimp only | intro

theorem writeSource_keeps {s0 : State} (s : State) (n : Nat) (v : W64) (hk : Keeps s0 s) :
    Keeps s0 (writeSource s n v) := by
  unfold writeSource
  repeat with_reducible first
    | assumption | apply regStore_keeps | (simp only [keeps_mk]; exact Keeps.parts ‹_›)
    | (simp only [keeps_mk]; refine Keeps.parts ?_) | split | dsimp only | intro

theorem writeWallT_keeps {s0 : State} (s : State) (v : W64) (hk : Keeps s0 s) :
    Keeps s0 (writeWallT s v) := by
  unfold writeWallT
  repeat with_reducible first
    | assumption | apply regSet_keeps | apply occur_keeps | (simp only [keeps_mk]; exact Keeps.parts ‹_›)
    | (simp only [keeps_mk]; refine Keeps.parts ?_) | split | dsimp only | intro

theorem wholeFrameCki_keeps {s0 : State} (s : State) (off : Int) (hk : Keeps s0 s) :
    Keeps s0 (wholeFrameCki s off) := by
  unfold wholeFrameCki
  repeat with_reducible first
    | assumption | apply setSrc_keeps | (simp only [keeps_mk]; exact Keeps.parts ‹_›)
    | (simp only [keeps_mk]; refine Keeps.parts ?_) | split | dsimp only | intro

theorem endFrameClock_keeps {s0 : State} (s : State) (cki : Option Int) (hk : Keeps s0 s) :
    Keeps s0 (endFrameClock s cki) := by
  unfold endFrameClock
  repeat with_reducible first
    | assumption | apply wholeFrameCki_keeps | (simp only [keeps_mk]; exact Keeps.parts ‹_›)
    | (simp only [keeps_mk]; refine Keeps.parts ?_) | split | dsimp only | intro

theorem advanceFrame_keeps {s0 : State} (s : State) (hk : Keeps s0 s) :
    Keeps s0 (advanceFrame s) := by
  unfold advanceFrame
  repeat with_reducible first
    | assumption | apply noteWrap_keeps | (simp only [keeps_mk]; exact Keeps.parts ‹_›)
    | (simp only [keeps_mk]; refine Keeps.parts ?_) | split | dsimp only | intro

theorem setFch_keeps {s0 : State} (s : State) (c : Nat) (f : Fch) (hk : Keeps s0 s) :
    Keeps s0 (setFch s c f) := by
  unfold setFch
  repeat with_reducible first
    | assumption | (simp only [keeps_mk]; exact Keeps.parts ‹_›) | (simp only [keeps_mk]; refine Keeps.parts ?_) | split
    | dsimp only | intro

theorem setLun_keeps {s0 : State} (s : State) (l : Nat) (v : LunSt) (hk : Keeps s0 s) :
    Keeps s0 (setLun s l v) := by
  unfold setLun
  repeat with_reducible first
    | assumption | apply setFch_keeps | (simp only [keeps_mk]; exact Keeps.parts ‹_›)
    | (simp only [keeps_mk]; refine Keeps.parts ?_) | split | dsimp only | intro

theorem recordMismatch_keeps {s0 : State} (s : State) (c t item : Nat) (hk : Keeps s0 s) :
    Keeps s0 (recordMismatch s c t item) := by
  unfold recordMismatch
  repeat with_reducible first
    | assumption | apply occur_keeps | (simp only [keeps_mk]; exact Keeps.parts ‹_›)
    | (simp only [keeps_mk]; refine Keeps.parts ?_) | split | dsimp only | intro

theorem writeFeatures_keeps {s0 : State} (s : State) (c t : Nat) (jesd : Bool) (hk : Keeps s0 s) :
    Keeps s0 (writeFeatures s c t jesd) := by
  unfold writeFeatures
  repeat with_reducible first
    | assumption | apply emit_keeps | apply foldl_keeps | apply foldl_keeps_fst
    | (simp only [keeps_mk]; exact Keeps.parts ‹_›) | (simp only [keeps_mk]; refine Keeps.parts ?_) | split | dsimp only
    | intro

theorem setKeySlot_keeps {s0 : State} (s : State) (k : Nat) (v : KeySlot) (hk : Keeps s0 s) :
    Keeps s0 (setKeySlot s k v) := by
  unfold setKeySlot
  repeat with_reducible first
    | assumption | (simp only [keeps_mk]; exact Keeps.parts ‹_›) | (simp only [keeps_mk]; refine Keeps.parts ?_) | split
    | dsimp only | intro

theorem writeSlot_keeps {s0 : State} (s : State) (k : Nat) (v : W64) (hk : Keeps s0 s) :
    Keeps s0 (writeSlot s k v) := by
  unfold writeSlot
  repeat with_reducible first
    | assumption | apply occur_keeps | apply setKeySlot_keeps | (simp only [keeps_mk]; exact Keeps.parts ‹_›)
    | (simp only [keeps_mk]; refine Keeps.parts ?_) | split | dsimp only | intro

theorem keyResult_keeps {s0 : State} (s : State) (d : Dom) (slot result : Nat) (hk : Keeps s0 s) :
    Keeps s0 (keyResult s d slot result) := by
  unfold keyResult
  repeat with_reducible first
    | assumption | apply regSet_keeps | (simp only [keeps_mk]; exact Keeps.parts ‹_›)
    | (simp only [keeps_mk]; refine Keeps.parts ?_) | split | dsimp only | intro

theorem keySeqOnly_keeps {s0 : State} (s : State) (d : Dom) (hk : Keeps s0 s) :
    Keeps s0 (keySeqOnly s d) := by
  unfold keySeqOnly
  repeat with_reducible first
    | assumption | apply regSet_keeps | (simp only [keeps_mk]; exact Keeps.parts ‹_›)
    | (simp only [keeps_mk]; refine Keeps.parts ?_) | split | dsimp only | intro

theorem clearStage_keeps {s0 : State} (s : State) (d : Dom) (hk : Keeps s0 s) :
    Keeps s0 (clearStage s d) := by
  unfold clearStage
  repeat with_reducible first
    | assumption | apply regSet_keeps | apply foldl_keeps | apply foldl_keeps_fst
    | (simp only [keeps_mk]; exact Keeps.parts ‹_›) | (simp only [keeps_mk]; refine Keeps.parts ?_) | split | dsimp only
    | intro

theorem writeKeyCmd_keeps {s0 : State} (s : State) (d : Dom) (v : W64) (og : Origin) (hk : Keeps s0 s) :
    Keeps s0 (writeKeyCmd s d v og) := by
  unfold writeKeyCmd
  repeat with_reducible first
    | assumption | apply occur_keeps | apply violate_keeps | apply setKeySlot_keeps | apply keyResult_keeps
    | apply keySeqOnly_keeps | apply clearStage_keeps | (simp only [keeps_mk]; exact Keeps.parts ‹_›)
    | (simp only [keeps_mk]; refine Keeps.parts ?_) | split | dsimp only | intro

theorem destroyKeys_keeps {s0 : State} (s : State) (hk : Keeps s0 s) :
    Keeps s0 (destroyKeys s) := by
  unfold destroyKeys
  repeat with_reducible first
    | assumption | (simp only [keeps_mk]; exact Keeps.parts ‹_›) | (simp only [keeps_mk]; refine Keeps.parts ?_) | split
    | dsimp only | intro

theorem setBead_keeps {s0 : State} (s : State) (a : Nat) (v : Byte) (hk : Keeps s0 s) :
    Keeps s0 (setBead s a v) := by
  unfold setBead
  repeat with_reducible first
    | assumption | (simp only [keeps_mk]; exact Keeps.parts ‹_›) | (simp only [keeps_mk]; refine Keeps.parts ?_) | split
    | dsimp only | intro

theorem readBead_keeps {s0 : State} (s : State) (a : Nat) (hk : Keeps s0 s) :
    Keeps s0 (readBead s a).1 := by
  unfold readBead
  repeat with_reducible first
    | assumption | apply occur_keeps | apply setBead_keeps | (simp only [keeps_mk]; exact Keeps.parts ‹_›)
    | (simp only [keeps_mk]; refine Keeps.parts ?_) | split | dsimp only | intro
theorem readBead_keeps_of {s0 tt : State} {xx : Byte} (s : State) (a : Nat) (hE : (readBead s a) = (tt, xx)) (hk : Keeps s0 s) :
    Keeps s0 tt := by
  have hK := readBead_keeps (s0 := s0) (s := s) (a := a)
  rw [hE] at hK; exact hK hk

theorem updateBand_keeps {s0 : State} (s : State) (c : Nat) (hk : Keeps s0 s) :
    Keeps s0 (updateBand s c) := by
  unfold updateBand
  repeat with_reducible first
    | assumption | (simp only [keeps_mk]; exact Keeps.parts ‹_›) | (simp only [keeps_mk]; refine Keeps.parts ?_) | split
    | dsimp only | intro

theorem startStep_keeps {s0 : State} (s : State) (l block : Nat) (count : Bool) (hk : Keeps s0 s) :
    Keeps s0 (startStep s l block count).1 := by
  unfold startStep
  repeat with_reducible first
    | assumption | apply readBead_keeps | refine readBead_keeps_of ‹_› ?_ | apply updateBand_keeps
    | (simp only [keeps_mk]; exact Keeps.parts ‹_›) | (simp only [keeps_mk]; refine Keeps.parts ?_) | split | dsimp only
    | intro
theorem startStep_keeps_of {s0 tt : State} {xx : Nat × Nat × Byte × Bool} (s : State) (l block : Nat) (count : Bool) (hE : (startStep s l block count) = (tt, xx)) (hk : Keeps s0 s) :
    Keeps s0 tt := by
  have hK := startStep_keeps (s0 := s0) (s := s) (l := l) (block := block) (count := count)
  rw [hE] at hK; exact hK hk

theorem emptyAbacus_keeps {s0 : State} (s : State) (hk : Keeps s0 s) :
    Keeps s0 (emptyAbacus s) := by
  unfold emptyAbacus
  repeat with_reducible first
    | assumption | (simp only [keeps_mk]; exact Keeps.parts ‹_›) | (simp only [keeps_mk]; refine Keeps.parts ?_) | split
    | dsimp only | intro

theorem recordSector_keeps {s0 : State} (s : State) (code : BitVec 12) (l : Nat) (d : Dom) (ring : BitVec 6) (sector hard block page plane check : Nat) (hk : Keeps s0 s) :
    Keeps s0 (recordSector s code l d ring sector hard block page plane check) := by
  unfold recordSector
  repeat with_reducible first
    | assumption | apply occur_keeps | (simp only [keeps_mk]; exact Keeps.parts ‹_›)
    | (simp only [keeps_mk]; refine Keeps.parts ?_) | split | dsimp only | intro

theorem writeWindow_keeps {s0 : State} (s : State) (d : Dom) (v : W64) (hk : Keeps s0 s) :
    Keeps s0 (writeWindow s d v) := by
  unfold writeWindow
  repeat with_reducible first
    | assumption | apply regSet_keeps | apply regStore_keeps | (simp only [keeps_mk]; exact Keeps.parts ‹_›)
    | (simp only [keeps_mk]; refine Keeps.parts ?_) | split | dsimp only | intro

theorem regionResult_keeps {s0 : State} (s : State) (d : Dom) (index tag result : Nat) (hk : Keeps s0 s) :
    Keeps s0 (regionResult s d index tag result) := by
  unfold regionResult
  repeat with_reducible first
    | assumption | apply regSet_keeps | (simp only [keeps_mk]; exact Keeps.parts ‹_›)
    | (simp only [keeps_mk]; refine Keeps.parts ?_) | split | dsimp only | intro

theorem regionSeqOnly_keeps {s0 : State} (s : State) (d : Dom) (hk : Keeps s0 s) :
    Keeps s0 (regionSeqOnly s d) := by
  unfold regionSeqOnly
  repeat with_reducible first
    | assumption | apply regSet_keeps | (simp only [keeps_mk]; exact Keeps.parts ‹_›)
    | (simp only [keeps_mk]; refine Keeps.parts ?_) | split | dsimp only | intro

theorem registerRegion_keeps {s0 : State} (s : State) (d : Dom) (v : W64) (hk : Keeps s0 s) :
    Keeps s0 (registerRegion s d v) := by
  unfold registerRegion
  repeat with_reducible first
    | assumption | apply regionResult_keeps | (simp only [keeps_mk]; exact Keeps.parts ‹_›)
    | (simp only [keeps_mk]; refine Keeps.parts ?_) | split | dsimp only | intro

theorem dropPosted_keeps {s0 : State} (s : State) (i : Nat) (r : Region) (hk : Keeps s0 s) :
    Keeps s0 (dropPosted s i r) := by
  unfold dropPosted
  repeat with_reducible first
    | assumption | (simp only [keeps_mk]; exact Keeps.parts ‹_›) | (simp only [keeps_mk]; refine Keeps.parts ?_) | split
    | dsimp only | intro

theorem deregisterRegion_keeps {s0 : State} (s : State) (d : Dom) (v : W64) (og : Origin) (hk : Keeps s0 s) :
    Keeps s0 (deregisterRegion s d v og) := by
  unfold deregisterRegion
  repeat with_reducible first
    | assumption | apply violate_keeps | apply foreign_keeps | apply regionResult_keeps | apply regionSeqOnly_keeps
    | apply dropPosted_keeps | (simp only [keeps_mk]; exact Keeps.parts ‹_›) | (simp only [keeps_mk]; refine Keeps.parts ?_)
    | split | dsimp only | intro

theorem writeRegion_keeps {s0 : State} (s : State) (d : Dom) (v : W64) (og : Origin) (hk : Keeps s0 s) :
    Keeps s0 (writeRegion s d v og) := by
  unfold writeRegion
  repeat with_reducible first
    | assumption | apply registerRegion_keeps | apply deregisterRegion_keeps | (simp only [keeps_mk]; exact Keeps.parts ‹_›)
    | (simp only [keeps_mk]; refine Keeps.parts ?_) | split | dsimp only | intro

theorem extentResult_keeps {s0 : State} (s : State) (r : Nat × Nat) (hk : Keeps s0 s) :
    Keeps s0 (extentResult s r) := by
  unfold extentResult
  repeat with_reducible first
    | assumption | apply regSet_keeps | (simp only [keeps_mk]; exact Keeps.parts ‹_›)
    | (simp only [keeps_mk]; refine Keeps.parts ?_) | split | dsimp only | intro

theorem writeExtCmd_keeps {s0 : State} (s : State) (v : W64) (hk : Keeps s0 s) :
    Keeps s0 (writeExtCmd s v) := by
  unfold writeExtCmd
  repeat with_reducible first
    | assumption | apply regSet_keeps | apply extentResult_keeps | (simp only [keeps_mk]; exact Keeps.parts ‹_›)
    | (simp only [keeps_mk]; refine Keeps.parts ?_) | split | dsimp only | intro

theorem setEntry_keeps {s0 : State} (s : State) (e : Entry) (hk : Keeps s0 s) :
    Keeps s0 (setEntry s e) := by
  unfold setEntry
  repeat with_reducible first
    | assumption | (simp only [keeps_mk]; exact Keeps.parts ‹_›) | (simp only [keeps_mk]; refine Keeps.parts ?_) | split
    | dsimp only | intro

theorem leaveFlight_keeps {s0 : State} (s : State) (r : EntryRef) (hk : Keeps s0 s) :
    Keeps s0 (leaveFlight s r) := by
  unfold leaveFlight
  repeat with_reducible first
    | assumption | (simp only [keeps_mk]; exact Keeps.parts ‹_›) | (simp only [keeps_mk]; refine Keeps.parts ?_) | split
    | dsimp only | intro

theorem endEntry_keeps {s0 : State} (s : State) (r : EntryRef) (status : Byte) (result : W32) (hk : Keeps s0 s) :
    Keeps s0 (endEntry s r status result) := by
  unfold endEntry
  repeat with_reducible first
    | assumption | apply setEntry_keeps | (simp only [keeps_mk]; exact Keeps.parts ‹_›)
    | (simp only [keeps_mk]; refine Keeps.parts ?_) | split | dsimp only | intro

theorem idleCheck_keeps {s0 : State} (s : State) (n : Nat) (hk : Keeps s0 s) :
    Keeps s0 (idleCheck s n) := by
  unfold idleCheck
  repeat with_reducible first
    | assumption | apply occurRing_keeps | (simp only [keeps_mk]; exact Keeps.parts ‹_›)
    | (simp only [keeps_mk]; refine Keeps.parts ?_) | split | dsimp only | intro

theorem endWait_keeps {s0 : State} (s : State) (m : Nat) (q : Sq) (x : Wait) (status : Byte) (hk : Keeps s0 s) :
    Keeps s0 (endWait s m q x status) := by
  unfold endWait
  repeat with_reducible first
    | assumption | apply endEntry_keeps | (simp only [keeps_mk]; exact Keeps.parts ‹_›)
    | (simp only [keeps_mk]; refine Keeps.parts ?_) | split | dsimp only | intro

theorem testWaits_keeps {s0 : State} (s : State) (n : Nat) (hk : Keeps s0 s) :
    Keeps s0 (testWaits s n) := by
  unfold testWaits
  repeat with_reducible first
    | assumption | apply endWait_keeps | apply foldl_keeps | apply foldl_keeps_fst
    | (simp only [keeps_mk]; exact Keeps.parts ‹_›) | (simp only [keeps_mk]; refine Keeps.parts ?_) | split | dsimp only
    | intro

theorem countGuarantee_keeps {s0 : State} (s : State) (x : Compl) (e : Entry) (hk : Keeps s0 s) :
    Keeps s0 (countGuarantee s x e) := by
  unfold countGuarantee
  repeat with_reducible first
    | assumption | apply occur_keeps | (simp only [keeps_mk]; exact Keeps.parts ‹_›)
    | (simp only [keeps_mk]; refine Keeps.parts ?_) | split | dsimp only | intro

theorem complWritten_keeps {s0 : State} (s : State) (q : Nat) (c : Cq) (x : Compl) (hk : Keeps s0 s) :
    Keeps s0 (complWritten s q c x) := by
  unfold complWritten
  repeat with_reducible first
    | assumption | apply copyTo_keeps | apply leaveFlight_keeps | apply idleCheck_keeps | apply testWaits_keeps
    | apply countGuarantee_keeps | (simp only [keeps_mk]; exact Keeps.parts ‹_›)
    | (simp only [keeps_mk]; refine Keeps.parts ?_) | split | dsimp only | intro

theorem noteFull_keeps {s0 : State} (s : State) (q : Nat) (c : Cq) (parity : Bool) (hk : Keeps s0 s) :
    Keeps s0 (noteFull s q c parity) := by
  unfold noteFull
  repeat with_reducible first
    | assumption | apply occurRing_keeps | (simp only [keeps_mk]; exact Keeps.parts ‹_›)
    | (simp only [keeps_mk]; refine Keeps.parts ?_) | split | dsimp only | intro

theorem writeFirst_keeps {s0 : State} (s : State) (q : Nat) (hk : Keeps s0 s) :
    Keeps s0 (writeFirst s q).1 := by
  unfold writeFirst
  repeat with_reducible first
    | assumption | apply violate_keeps | apply memWrite_keeps | apply noteFailing_keeps | apply complWritten_keeps
    | apply noteFull_keeps | (simp only [keeps_mk]; exact Keeps.parts ‹_›) | (simp only [keeps_mk]; refine Keeps.parts ?_)
    | split | dsimp only | intro
theorem writeFirst_keeps_of {s0 tt : State} {xx : Bool} (s : State) (q : Nat) (hE : (writeFirst s q) = (tt, xx)) (hk : Keeps s0 s) :
    Keeps s0 tt := by
  have hK := writeFirst_keeps (s0 := s0) (s := s) (q := q)
  rw [hE] at hK; exact hK hk

theorem drainCq_keeps {s0 : State} (s : State) (q n : Nat) (hk : Keeps s0 s) : Keeps s0 (drainCq s q n) := by
  induction n generalizing s with
  | zero => exact hk
  | succ n ih =>
    unfold drainCq
    split <;> rename_i e
    · exact ih _ (writeFirst_keeps_of _ _ e hk)
    · have h2 := writeFirst_keeps_of _ _ e hk
      repeat with_reducible first
        | assumption
        | (simp only [keeps_mk]; exact Keeps.parts ‹_›)
        | split

theorem retryCq_keeps {s0 : State} (s : State) (q : Nat) (hk : Keeps s0 s) :
    Keeps s0 (retryCq s q) := by
  unfold retryCq
  repeat with_reducible first
    | assumption | apply drainCq_keeps | (simp only [keeps_mk]; exact Keeps.parts ‹_›)
    | (simp only [keeps_mk]; refine Keeps.parts ?_) | split | dsimp only | intro

theorem readyCompl_keeps {s0 : State} (s : State) (x : Compl) (hk : Keeps s0 s) :
    Keeps s0 (readyCompl s x) := by
  unfold readyCompl
  repeat with_reducible first
    | assumption | apply retryCq_keeps | (simp only [keeps_mk]; exact Keeps.parts ‹_›)
    | (simp only [keeps_mk]; refine Keeps.parts ?_) | split | dsimp only | intro

theorem batchCheck_keeps {s0 : State} (s : State) (n : Nat) (hk : Keeps s0 s) :
    Keeps s0 (batchCheck s n) := by
  unfold batchCheck
  repeat with_reducible first
    | assumption | apply readyCompl_keeps | (simp only [keeps_mk]; exact Keeps.parts ‹_›)
    | (simp only [keeps_mk]; refine Keeps.parts ?_) | split | dsimp only | intro

theorem completeEntry_keeps {s0 : State} (s : State) (e : Entry) (hk : Keeps s0 s) :
    Keeps s0 (completeEntry s e) := by
  unfold completeEntry
  repeat with_reducible first
    | assumption | apply setEntry_keeps | apply leaveFlight_keeps | apply idleCheck_keeps | apply readyCompl_keeps
    | apply batchCheck_keeps | (simp only [keeps_mk]; exact Keeps.parts ‹_›) | (simp only [keeps_mk]; refine Keeps.parts ?_)
    | split | dsimp only | intro

theorem completeAll_keeps {s0 : State} (s : State) (hk : Keeps s0 s) :
    Keeps s0 (completeAll s) := by
  unfold completeAll
  repeat with_reducible first
    | assumption | apply completeEntry_keeps | apply foldl_keeps | apply foldl_keeps_fst
    | (simp only [keeps_mk]; exact Keeps.parts ‹_›) | (simp only [keeps_mk]; refine Keeps.parts ?_) | split | dsimp only
    | intro

theorem claimResult_keeps {s0 : State} (s : State) (b : Nat) (d : Dom) (ring result : Nat) (hk : Keeps s0 s) :
    Keeps s0 (claimResult s b d ring result) := by
  unfold claimResult
  repeat with_reducible first
    | assumption | apply regSet_keeps | (simp only [keeps_mk]; exact Keeps.parts ‹_›)
    | (simp only [keeps_mk]; refine Keeps.parts ?_) | split | dsimp only | intro

theorem claimSeqOnly_keeps {s0 : State} (s : State) (b : Nat) (d : Dom) (hk : Keeps s0 s) :
    Keeps s0 (claimSeqOnly s b d) := by
  unfold claimSeqOnly
  repeat with_reducible first
    | assumption | apply regSet_keeps | (simp only [keeps_mk]; exact Keeps.parts ‹_›)
    | (simp only [keeps_mk]; refine Keeps.parts ?_) | split | dsimp only | intro

theorem clearRing_keeps {s0 : State} (s : State) (b n : Nat) (hk : Keeps s0 s) :
    Keeps s0 (clearRing s b n) := by
  unfold clearRing
  repeat with_reducible first
    | assumption | (simp only [keeps_mk]; exact Keeps.parts ‹_›) | (simp only [keeps_mk]; refine Keeps.parts ?_) | split
    | dsimp only | intro

theorem writeSqClaim_keeps {s0 : State} (s : State) (d : Dom) (v : W64) (og : Origin) (hk : Keeps s0 s) :
    Keeps s0 (writeSqClaim s d v og) := by
  unfold writeSqClaim
  repeat with_reducible first
    | assumption | apply violate_keeps | apply testWaits_keeps | apply claimResult_keeps | apply claimSeqOnly_keeps
    | apply clearRing_keeps | (simp only [keeps_mk]; exact Keeps.parts ‹_›) | (simp only [keeps_mk]; refine Keeps.parts ?_)
    | split | dsimp only | intro

theorem writeCqClaim_keeps {s0 : State} (s : State) (d : Dom) (v : W64) (og : Origin) (hk : Keeps s0 s) :
    Keeps s0 (writeCqClaim s d v og) := by
  unfold writeCqClaim
  repeat with_reducible first
    | assumption | apply violate_keeps | apply claimResult_keeps | apply claimSeqOnly_keeps | apply clearRing_keeps
    | (simp only [keeps_mk]; exact Keeps.parts ‹_›) | (simp only [keeps_mk]; refine Keeps.parts ?_) | split | dsimp only
    | intro

theorem disableSq_keeps {s0 : State} (s : State) (n : Nat) (hk : Keeps s0 s) :
    Keeps s0 (disableSq s n) := by
  unfold disableSq
  repeat with_reducible first
    | assumption | apply endEntry_keeps | apply idleCheck_keeps | apply endWait_keeps | apply batchCheck_keeps
    | apply foldl_keeps | apply foldl_keeps_fst | (simp only [keeps_mk]; exact Keeps.parts ‹_›)
    | (simp only [keeps_mk]; refine Keeps.parts ?_) | split | dsimp only | intro

theorem writeSqCfg_keeps {s0 : State} (s : State) (n : Nat) (v : W64) (hk : Keeps s0 s) :
    Keeps s0 (writeSqCfg s n v) := by
  unfold writeSqCfg
  repeat with_reducible first
    | assumption | apply regSet_keeps | apply disableSq_keeps | (simp only [keeps_mk]; exact Keeps.parts ‹_›)
    | (simp only [keeps_mk]; refine Keeps.parts ?_) | split | dsimp only | intro

theorem writeCqCfg_keeps {s0 : State} (s : State) (n : Nat) (v : W64) (hk : Keeps s0 s) :
    Keeps s0 (writeCqCfg s n v) := by
  unfold writeCqCfg
  repeat with_reducible first
    | assumption | apply regSet_keeps | (simp only [keeps_mk]; exact Keeps.parts ‹_›)
    | (simp only [keeps_mk]; refine Keeps.parts ?_) | split | dsimp only | intro

theorem writeSqBase_keeps {s0 : State} (s : State) (n : Nat) (v : W64) (hk : Keeps s0 s) :
    Keeps s0 (writeSqBase s n v) := by
  unfold writeSqBase
  repeat with_reducible first
    | assumption | apply regStore_keeps | (simp only [keeps_mk]; exact Keeps.parts ‹_›)
    | (simp only [keeps_mk]; refine Keeps.parts ?_) | split | dsimp only | intro

theorem writeCqBase_keeps {s0 : State} (s : State) (n : Nat) (v : W64) (hk : Keeps s0 s) :
    Keeps s0 (writeCqBase s n v) := by
  unfold writeCqBase
  repeat with_reducible first
    | assumption | apply regStore_keeps | (simp only [keeps_mk]; exact Keeps.parts ‹_›)
    | (simp only [keeps_mk]; refine Keeps.parts ?_) | split | dsimp only | intro

theorem writeSqPtr_keeps {s0 : State} (s : State) (n : Nat) (v : W64) (hk : Keeps s0 s) :
    Keeps s0 (writeSqPtr s n v) := by
  unfold writeSqPtr
  repeat with_reducible first
    | assumption | (simp only [keeps_mk]; exact Keeps.parts ‹_›) | (simp only [keeps_mk]; refine Keeps.parts ?_) | split
    | dsimp only | intro

theorem writePoke_keeps {s0 : State} (s : State) (n : Nat) (hk : Keeps s0 s) :
    Keeps s0 (writePoke s n) := by
  unfold writePoke
  repeat with_reducible first
    | assumption | apply retryCq_keeps | (simp only [keeps_mk]; exact Keeps.parts ‹_›)
    | (simp only [keeps_mk]; refine Keeps.parts ?_) | split | dsimp only | intro

theorem recordPartial_keeps {s0 : State} (s : State) (e : Entry) (hk : Keeps s0 s) :
    Keeps s0 (recordPartial s e) := by
  unfold recordPartial
  repeat with_reducible first
    | assumption | apply occur_keeps | (simp only [keeps_mk]; exact Keeps.parts ‹_›)
    | (simp only [keeps_mk]; refine Keeps.parts ?_) | split | dsimp only | intro

theorem conclude_keeps {s0 : State} (s : State) (r : EntryRef) (hk : Keeps s0 s) :
    Keeps s0 (conclude s r) := by
  unfold conclude
  repeat with_reducible first
    | assumption | apply endEntry_keeps | apply recordPartial_keeps | (simp only [keeps_mk]; exact Keeps.parts ‹_›)
    | (simp only [keeps_mk]; refine Keeps.parts ?_) | split | dsimp only | intro

theorem abortEntry_keeps {s0 : State} (s : State) (e : Entry) (st : Byte) (hk : Keeps s0 s) :
    Keeps s0 (abortEntry s e st) := by
  unfold abortEntry
  repeat with_reducible first
    | assumption | apply setEntry_keeps | apply endEntry_keeps | apply conclude_keeps
    | (simp only [keeps_mk]; exact Keeps.parts ‹_›) | (simp only [keeps_mk]; refine Keeps.parts ?_) | split | dsimp only
    | intro

theorem dropGuarantees_keeps {s0 : State} (s : State) (hk : Keeps s0 s) :
    Keeps s0 (dropGuarantees s) := by
  unfold dropGuarantees
  repeat with_reducible first
    | assumption | (simp only [keeps_mk]; exact Keeps.parts ‹_›) | (simp only [keeps_mk]; refine Keeps.parts ?_) | split
    | dsimp only | intro

theorem abortOp_keeps {s0 : State} (s : State) (o : ArrayOp) (st : Byte) (hk : Keeps s0 s) :
    Keeps s0 (abortOp s o st) := by
  unfold abortOp
  repeat with_reducible first
    | assumption | apply setEntry_keeps | apply conclude_keeps | apply abortEntry_keeps
    | (simp only [keeps_mk]; exact Keeps.parts ‹_›) | (simp only [keeps_mk]; refine Keeps.parts ?_) | split | dsimp only
    | intro

theorem abortChannel_keeps {s0 : State} (s : State) (c : Nat) (st : Byte) (hk : Keeps s0 s) :
    Keeps s0 (abortChannel s c st) := by
  unfold abortChannel
  repeat with_reducible first
    | assumption | apply abortOp_keeps | apply foldl_keeps | apply foldl_keeps_fst
    | (simp only [keeps_mk]; exact Keeps.parts ‹_›) | (simp only [keeps_mk]; refine Keeps.parts ?_) | split | dsimp only
    | intro

theorem stopChannel_keeps {s0 : State} (s : State) (c : Nat) (hk : Keeps s0 s) :
    Keeps s0 (stopChannel s c) := by
  unfold stopChannel
  repeat with_reducible first
    | assumption | apply emit_keeps | apply setFch_keeps | apply idle_keeps | (simp only [keeps_mk]; exact Keeps.parts ‹_›)
    | (simp only [keeps_mk]; refine Keeps.parts ?_) | split | dsimp only | intro

theorem dropSuspended_keeps {s0 : State} (s : State) (hk : Keeps s0 s) :
    Keeps s0 (dropSuspended s) := by
  unfold dropSuspended
  repeat with_reducible first
    | assumption | apply setLun_keeps | apply abortOp_keeps | apply foldl_keeps | apply foldl_keeps_fst
    | (simp only [keeps_mk]; exact Keeps.parts ‹_›) | (simp only [keeps_mk]; refine Keeps.parts ?_) | split | dsimp only
    | intro

theorem stopMovers_keeps {s0 : State} (s : State) (hk : Keeps s0 s) :
    Keeps s0 (stopMovers s) := by
  unfold stopMovers
  repeat with_reducible first
    | assumption | (simp only [keeps_mk]; exact Keeps.parts ‹_›) | (simp only [keeps_mk]; refine Keeps.parts ?_) | split
    | dsimp only | intro

theorem refreshAlerts_keeps {s0 : State} (s : State) (hk : Keeps s0 s) :
    Keeps s0 (refreshAlerts s) := by
  unfold refreshAlerts
  repeat with_reducible first
    | assumption | (simp only [keeps_mk]; exact Keeps.parts ‹_›) | (simp only [keeps_mk]; refine Keeps.parts ?_) | split
    | dsimp only | intro

theorem loseEntry_keeps {s0 : State} (s : State) (e : Entry) (hk : Keeps s0 s) :
    Keeps s0 (loseEntry s e) := by
  unfold loseEntry
  repeat with_reducible first
    | assumption | apply leaveFlight_keeps | apply idleCheck_keeps | apply batchCheck_keeps
    | (simp only [keeps_mk]; exact Keeps.parts ‹_›) | (simp only [keeps_mk]; refine Keeps.parts ?_) | split | dsimp only
    | intro

theorem abortAll_keeps {s0 : State} (s : State) (hk : Keeps s0 s) :
    Keeps s0 (abortAll s) := by
  unfold abortAll
  repeat with_reducible first
    | assumption | apply abortEntry_keeps | apply loseEntry_keeps | apply foldl_keeps | apply foldl_keeps_fst
    | (simp only [keeps_mk]; exact Keeps.parts ‹_›) | (simp only [keeps_mk]; refine Keeps.parts ?_) | split | dsimp only
    | intro

theorem closeFinish_keeps {s0 : State} (s : State) (hk : Keeps s0 s) :
    Keeps s0 (closeFinish s) := by
  unfold closeFinish
  repeat with_reducible first
    | assumption | apply completeAll_keeps | apply stopChannel_keeps | apply abortAll_keeps | apply foldl_keeps
    | apply foldl_keeps_fst | (simp only [keeps_mk]; exact Keeps.parts ‹_›) | (simp only [keeps_mk]; refine Keeps.parts ?_)
    | split | dsimp only | intro

theorem harmlessEnter_keeps {s0 : State} (s : State) (cause sub : Nat) (reading : W32) (hk : Keeps s0 s) :
    Keeps s0 (harmlessEnter s cause sub reading) := by
  unfold harmlessEnter
  repeat with_reducible first
    | assumption | apply occur_keeps | apply dropGuarantees_keeps | apply stopMovers_keeps | apply refreshAlerts_keeps
    | (simp only [keeps_mk]; exact Keeps.parts ‹_›) | (simp only [keeps_mk]; refine Keeps.parts ?_) | split | dsimp only
    | intro

theorem openFinish_keeps {s0 : State} (s : State) (hk : Keeps s0 s) :
    Keeps s0 (openFinish s) := by
  unfold openFinish
  repeat with_reducible first
    | assumption | apply stopChannel_keeps | apply foldl_keeps | apply foldl_keeps_fst
    | (simp only [keeps_mk]; exact Keeps.parts ‹_›) | (simp only [keeps_mk]; refine Keeps.parts ?_) | split | dsimp only
    | intro

theorem stopFlash_keeps {s0 : State} (s : State) (atOnce : List Nat) (window : Bool) (hk : Keeps s0 s) :
    Keeps s0 (stopFlash s atOnce window) := by
  unfold stopFlash
  repeat with_reducible first
    | assumption | apply abortChannel_keeps | apply stopChannel_keeps | apply dropSuspended_keeps | apply closeFinish_keeps
    | apply openFinish_keeps | apply foldl_keeps | apply foldl_keeps_fst | (simp only [keeps_mk]; exact Keeps.parts ‹_›)
    | (simp only [keeps_mk]; refine Keeps.parts ?_) | split | dsimp only | intro

theorem machineCheck_keeps {s0 : State} (s : State) (blk : Nat) (p0 p1 : W32) (chan : Option Nat) (parity : Bool) (hk : Keeps s0 s) :
    Keeps s0 (machineCheck s blk p0 p1 chan parity) := by
  unfold machineCheck
  repeat with_reducible first
    | assumption | apply occur_keeps | apply abortChannel_keeps | apply stopChannel_keeps | apply harmlessEnter_keeps
    | apply stopFlash_keeps | (simp only [keeps_mk]; exact Keeps.parts ‹_›) | (simp only [keeps_mk]; refine Keeps.parts ?_)
    | split | dsimp only | intro

theorem entryStoreFails_keeps {s0 : State} (s : State) (e : Entry) (hk : Keeps s0 s) :
    Keeps s0 (entryStoreFails s e) := by
  unfold entryStoreFails
  repeat with_reducible first
    | assumption | apply loseEntry_keeps | apply machineCheck_keeps | (simp only [keeps_mk]; exact Keeps.parts ‹_›)
    | (simp only [keeps_mk]; refine Keeps.parts ?_) | split | dsimp only | intro

theorem withSlot_keeps {s0 : State} (s : State) (r : EntryRef) (f : State) (hk : Keeps s0 s) (hf : Keeps s0 f) :
    Keeps s0 (withSlot s r f) := by
  unfold withSlot
  split
  · exact hf
  · split
    · exact entryStoreFails_keeps _ _ hk
    · exact hf

theorem closeSeq_keeps {s0 : State} (s : State) (e : Entry) (l : Nat) (page : Bool) (hk : Keeps s0 s) :
    Keeps s0 (closeSeq s e l page) := by
  unfold closeSeq
  repeat with_reducible first
    | assumption | apply emit_keeps | apply setLun_keeps | (simp only [keeps_mk]; exact Keeps.parts ‹_›)
    | (simp only [keeps_mk]; refine Keeps.parts ?_) | split | dsimp only | intro

theorem breakSeq_keeps {s0 : State} (s : State) (l : Nat) (r : EntryRef) (hk : Keeps s0 s) :
    Keeps s0 (breakSeq s l r) := by
  unfold breakSeq
  repeat with_reducible first
    | assumption | apply emit_keeps | apply setLun_keeps | (simp only [keeps_mk]; exact Keeps.parts ‹_›)
    | (simp only [keeps_mk]; refine Keeps.parts ?_) | split | dsimp only | intro

theorem writeReservation_keeps {s0 : State} (s : State) (d : Dom) (v : W64) (hk : Keeps s0 s) :
    Keeps s0 (writeReservation s d v) := by
  unfold writeReservation
  repeat with_reducible first
    | assumption | apply regSet_keeps | apply regStore_keeps | apply occur_keeps
    | (simp only [keeps_mk]; exact Keeps.parts ‹_›) | (simp only [keeps_mk]; refine Keeps.parts ?_) | split | dsimp only
    | intro

theorem chargeStream_keeps {s0 : State} (s : State) (e : Entry) (l t : Nat) (k : LunOp) (sectors : Nat) (hk : Keeps s0 s) :
    Keeps s0 (chargeStream s e l t k sectors) := by
  unfold chargeStream
  repeat with_reducible first
    | assumption | (simp only [keeps_mk]; exact Keeps.parts ‹_›) | (simp only [keeps_mk]; refine Keeps.parts ?_) | split
    | dsimp only | intro

theorem startArray_keeps {s0 : State} (s : State) (e : Entry) (l : Nat) (k : LunOp) (o : OpRef) (sectors : Nat) (page : Bool) (hk : Keeps s0 s) :
    Keeps s0 (startArray s e l k o sectors page) := by
  unfold startArray
  repeat with_reducible first
    | assumption | apply setFch_keeps | apply setLun_keeps | apply chargeStream_keeps
    | (simp only [keeps_mk]; exact Keeps.parts ‹_›) | (simp only [keeps_mk]; refine Keeps.parts ?_) | split | dsimp only
    | intro

theorem arrayStarted_keeps {s0 : State} (s : State) (l : Nat) (hk : Keeps s0 s) :
    Keeps s0 (arrayStarted s l) := by
  unfold arrayStarted
  repeat with_reducible first
    | assumption | apply setLun_keeps | (simp only [keeps_mk]; exact Keeps.parts ‹_›)
    | (simp only [keeps_mk]; refine Keeps.parts ?_) | split | dsimp only | intro

theorem sendPoll_keeps {s0 : State} (s : State) (l : Nat) (hk : Keeps s0 s) :
    Keeps s0 (sendPoll s l) := by
  unfold sendPoll
  repeat with_reducible first
    | assumption | apply emit_keeps | apply setFch_keeps | apply setLun_keeps | (simp only [keeps_mk]; exact Keeps.parts ‹_›)
    | (simp only [keeps_mk]; refine Keeps.parts ?_) | split | dsimp only | intro

theorem putOnBus_keeps {s0 : State} (s : State) (c : Nat) (e : Entry) (x : Xfer) (hk : Keeps s0 s) :
    Keeps s0 (putOnBus s c e x) := by
  unfold putOnBus
  repeat with_reducible first
    | assumption | apply emit_keeps | apply setFch_keeps | (simp only [keeps_mk]; exact Keeps.parts ‹_›)
    | (simp only [keeps_mk]; refine Keeps.parts ?_) | split | dsimp only | intro

theorem sectorBoundary_keeps {s0 : State} (s : State) (c : Nat) (hk : Keeps s0 s) :
    Keeps s0 (sectorBoundary s c) := by
  unfold sectorBoundary
  repeat with_reducible first
    | assumption | apply setFch_keeps | apply sendPoll_keeps | apply putOnBus_keeps | apply foldl_keeps
    | apply foldl_keeps_fst | (simp only [keeps_mk]; exact Keeps.parts ‹_›) | (simp only [keeps_mk]; refine Keeps.parts ?_)
    | split | dsimp only | intro

theorem wakeBus_keeps {s0 : State} (s : State) (c : Nat) (hk : Keeps s0 s) :
    Keeps s0 (wakeBus s c) := by
  unfold wakeBus
  repeat with_reducible first
    | assumption | apply sectorBoundary_keeps | (simp only [keeps_mk]; exact Keeps.parts ‹_›)
    | (simp only [keeps_mk]; refine Keeps.parts ?_) | split | dsimp only | intro

theorem markOwner_keeps {s0 : State} (s : State) (o : ArrayOp) (f : Entry → Entry) (hk : Keeps s0 s) :
    Keeps s0 (markOwner s o f) := by
  unfold markOwner
  repeat with_reducible first
    | assumption | apply setEntry_keeps | (simp only [keeps_mk]; exact Keeps.parts ‹_›)
    | (simp only [keeps_mk]; refine Keeps.parts ?_) | split | dsimp only | intro

theorem issueSuspend_keeps {s0 : State} (s : State) (e : Entry) (l : Nat) (hk : Keeps s0 s) :
    Keeps s0 (issueSuspend s e l) := by
  unfold issueSuspend
  repeat with_reducible first
    | assumption | apply emit_keeps | apply occur_keeps | apply setFch_keeps | apply setLun_keeps | apply setEntry_keeps
    | apply sendPoll_keeps | apply markOwner_keeps | (simp only [keeps_mk]; exact Keeps.parts ‹_›)
    | (simp only [keeps_mk]; refine Keeps.parts ?_) | split | dsimp only | intro

theorem trySuspend_keeps {s0 : State} (s : State) (e : Entry) (l : Nat) (hk : Keeps s0 s) :
    Keeps s0 (trySuspend s e l) := by
  unfold trySuspend
  repeat with_reducible first
    | assumption | apply issueSuspend_keeps | (simp only [keeps_mk]; exact Keeps.parts ‹_›)
    | (simp only [keeps_mk]; refine Keeps.parts ?_) | split | dsimp only | intro

theorem resumeLun_keeps {s0 : State} (s : State) (l : Nat) (hk : Keeps s0 s) :
    Keeps s0 (resumeLun s l) := by
  unfold resumeLun
  repeat with_reducible first
    | assumption | apply emit_keeps | apply setLun_keeps | (simp only [keeps_mk]; exact Keeps.parts ‹_›)
    | (simp only [keeps_mk]; refine Keeps.parts ?_) | split | dsimp only | intro

theorem resumeIfDue_keeps {s0 : State} (s : State) (l : Nat) (hk : Keeps s0 s) :
    Keeps s0 (resumeIfDue s l) := by
  unfold resumeIfDue
  repeat with_reducible first
    | assumption | apply resumeLun_keeps | (simp only [keeps_mk]; exact Keeps.parts ‹_›)
    | (simp only [keeps_mk]; refine Keeps.parts ?_) | split | dsimp only | intro

theorem resumeAll_keeps {s0 : State} (s : State) (hk : Keeps s0 s) :
    Keeps s0 (resumeAll s) := by
  unfold resumeAll
  repeat with_reducible first
    | assumption | apply resumeLun_keeps | apply foldl_keeps | apply foldl_keeps_fst
    | (simp only [keeps_mk]; exact Keeps.parts ‹_›) | (simp only [keeps_mk]; refine Keeps.parts ?_) | split | dsimp only
    | intro

theorem beginVerify_keeps {s0 : State} (s : State) (e : Entry) (i : Nat) (hk : Keeps s0 s) :
    Keeps s0 (beginVerify s e i).1 := by
  unfold beginVerify
  repeat with_reducible first
    | assumption | apply startStep_keeps | refine startStep_keeps_of ‹_› ?_ | apply foldl_keeps | apply foldl_keeps_fst
    | (simp only [keeps_mk]; exact Keeps.parts ‹_›) | (simp only [keeps_mk]; refine Keeps.parts ?_) | split | dsimp only
    | intro
theorem beginVerify_keeps_of {s0 tt : State} {xx : List PlaneRd} (s : State) (e : Entry) (i : Nat) (hE : (beginVerify s e i) = (tt, xx)) (hk : Keeps s0 s) :
    Keeps s0 tt := by
  have hK := beginVerify_keeps (s0 := s0) (s := s) (e := e) (i := i)
  rw [hE] at hK; exact hK hk

theorem opEnded_keeps {s0 : State} (s : State) (o : ArrayOp) (failed : Bool) (hk : Keeps s0 s) :
    Keeps s0 (opEnded s o failed) := by
  unfold opEnded
  repeat with_reducible first
    | assumption | apply setEntry_keeps | apply conclude_keeps | apply wakeBus_keeps | apply beginVerify_keeps
    | refine beginVerify_keeps_of ‹_› ?_ | (simp only [keeps_mk]; exact Keeps.parts ‹_›)
    | (simp only [keeps_mk]; refine Keeps.parts ?_) | split | dsimp only | intro

theorem loseTarget_keeps {s0 : State} (s : State) (c t item : Nat) (hk : Keeps s0 s) :
    Keeps s0 (loseTarget s c t item) := by
  unfold loseTarget
  repeat with_reducible first
    | assumption | apply setFch_keeps | apply recordMismatch_keeps | apply setEntry_keeps | apply conclude_keeps
    | apply abortEntry_keeps | apply foldl_keeps | apply foldl_keeps_fst | (simp only [keeps_mk]; exact Keeps.parts ‹_›)
    | (simp only [keeps_mk]; refine Keeps.parts ?_) | split | dsimp only | intro

theorem afterReset_keeps {s0 : State} (s : State) (l : Nat) (hk : Keeps s0 s) :
    Keeps s0 (afterReset s l) := by
  unfold afterReset
  repeat with_reducible first
    | assumption | apply writeFeatures_keeps | apply loseTarget_keeps | (simp only [keeps_mk]; exact Keeps.parts ‹_›)
    | (simp only [keeps_mk]; refine Keeps.parts ?_) | split | dsimp only | intro

theorem endLunOp_keeps {s0 : State} (s : State) (l : Nat) (o : ArrayOp) (sr : Byte) (hk : Keeps s0 s) :
    Keeps s0 (endLunOp s l o sr) := by
  unfold endLunOp
  extract_lets v reset s1 failed s2 s3 s4 s5
  have h1 : Keeps s0 s1 := setLun_keeps _ _ _ hk
  have h2 : Keeps s0 s2 := by
    unfold s2; split
    · split
      · exact breakSeq_keeps _ _ _ h1
      · exact h1
    · exact h1
  have h3 : Keeps s0 s3 := opEnded_keeps _ _ _ h2
  have h4 : Keeps s0 s4 := by
    unfold s4; split
    · exact afterReset_keeps _ _ h3
    · exact h3
  have h5 : Keeps s0 s5 := by
    unfold s5; split
    · exact h4
    · split
      · exact resumeLun_keeps _ _ h4
      · exact resumeIfDue_keeps _ _ h4
  split
  · exact stopChannel_keeps _ _ h5
  · exact h5

theorem lunSuspended_keeps {s0 : State} (s : State) (l : Nat) (o : ArrayOp) (hk : Keeps s0 s) :
    Keeps s0 (lunSuspended s l o) := by
  unfold lunSuspended
  repeat with_reducible first
    | assumption | apply setLun_keeps | apply resumeLun_keeps | apply resumeIfDue_keeps
    | (simp only [keeps_mk]; exact Keeps.parts ‹_›) | (simp only [keeps_mk]; refine Keeps.parts ?_) | split | dsimp only
    | intro

theorem badStatus_keeps {s0 : State} (s : State) (l : Nat) (sr : Byte) (hk : Keeps s0 s) :
    Keeps s0 (badStatus s l sr) := by
  unfold badStatus
  repeat with_reducible first
    | assumption | apply occur_keeps | apply setLun_keeps | apply sendPoll_keeps
    | (simp only [keeps_mk]; exact Keeps.parts ‹_›) | (simp only [keeps_mk]; refine Keeps.parts ?_) | split | dsimp only
    | intro

theorem statusArrives_keeps {s0 : State} (s : State) (l : Nat) (sr : Byte) (hk : Keeps s0 s) :
    Keeps s0 (statusArrives s l sr) := by
  unfold statusArrives
  split
  · exact badStatus_keeps _ _ _ hk
  · extract_lets src v s1
    have h1 : Keeps s0 s1 := setLun_keeps _ _ _ hk
    split
    · exact h1
    · split
      · exact h1
      · split
        · exact lunSuspended_keeps _ _ _ h1
        · split
          · exact endLunOp_keeps _ _ _ _ h1
          · exact h1

theorem openBus_keeps {s0 : State} (s : State) (c : Nat) (hk : Keeps s0 s) :
    Keeps s0 (openBus s c) := by
  unfold openBus
  repeat with_reducible first
    | assumption | apply emit_keeps | apply foldl_keeps | apply foldl_keeps_fst
    | (simp only [keeps_mk]; exact Keeps.parts ‹_›) | (simp only [keeps_mk]; refine Keeps.parts ?_) | split | dsimp only
    | intro

theorem identify_keeps {s0 : State} (s : State) (c t : Nat) (r : TargetReport) (hk : Keeps s0 s) :
    Keeps s0 (identify s c t r) := by
  unfold identify
  repeat with_reducible first
    | assumption | apply emit_keeps | (simp only [keeps_mk]; exact Keeps.parts ‹_›)
    | (simp only [keeps_mk]; refine Keeps.parts ?_) | split | dsimp only | intro

theorem configure_keeps {s0 : State} (s : State) (c t : Nat) (r : TargetReport) (hk : Keeps s0 s) :
    Keeps s0 (configure s c t r) := by
  unfold configure
  repeat with_reducible first
    | assumption | apply emit_keeps | apply writeFeatures_keeps | (simp only [keeps_mk]; exact Keeps.parts ‹_›)
    | (simp only [keeps_mk]; refine Keeps.parts ?_) | split | dsimp only | intro

theorem capture_keeps {s0 : State} (s : State) (c t : Nat) (hk : Keeps s0 s) :
    Keeps s0 (capture s c t) := by
  unfold capture
  repeat with_reducible first
    | assumption | apply emit_keeps | apply foldl_keeps | apply foldl_keeps_fst
    | (simp only [keeps_mk]; exact Keeps.parts ‹_›) | (simp only [keeps_mk]; refine Keeps.parts ?_) | split | dsimp only
    | intro

theorem probe_keeps {s0 : State} (s : State) (c mv : Nat) (v18 : Bool) (targets : List TargetReport) (statusRead : Bool) (hk : Keeps s0 s) :
    Keeps s0 (probe s c mv v18 targets statusRead) := by
  unfold probe
  repeat with_reducible first
    | assumption | apply emit_keeps | apply occur_keeps | apply setFch_keeps | apply recordMismatch_keeps
    | apply openBus_keeps | apply identify_keeps | apply configure_keeps | apply capture_keeps | apply foldl_keeps
    | apply foldl_keeps_fst | (simp only [keeps_mk]; exact Keeps.parts ‹_›) | (simp only [keeps_mk]; refine Keeps.parts ?_)
    | split | dsimp only | intro

theorem discover_keeps {s0 : State} (s : State) (c : Nat) (mv : Nat) (targets : List TargetReport) (statusRead : Bool) (hk : Keeps s0 s) :
    Keeps s0 (discover s c mv targets statusRead) := by
  unfold discover
  repeat with_reducible first
    | assumption | apply occur_keeps | apply setFch_keeps | apply probe_keeps | (simp only [keeps_mk]; exact Keeps.parts ‹_›)
    | (simp only [keeps_mk]; refine Keeps.parts ?_) | split | dsimp only | intro

theorem dropSlowChannel_keeps {s0 : State} (s : State) (c : Nat) (hk : Keeps s0 s) :
    Keeps s0 (dropSlowChannel s c) := by
  unfold dropSlowChannel
  repeat with_reducible first
    | assumption | (simp only [keeps_mk]; exact Keeps.parts ‹_›) | (simp only [keeps_mk]; refine Keeps.parts ?_) | split
    | dsimp only | intro

theorem recordRejected_keeps {s0 : State} (s : State) (code ptype src : Nat) (b : List Byte) (hk : Keeps s0 s) :
    Keeps s0 (recordRejected s code ptype src b) := by
  unfold recordRejected
  repeat with_reducible first
    | assumption | apply occur_keeps | (simp only [keeps_mk]; exact Keeps.parts ‹_›)
    | (simp only [keeps_mk]; refine Keeps.parts ?_) | split | dsimp only | intro

theorem readPush_keeps {s0 : State} (s : State) (personality : Bool) (hk : Keeps s0 s) :
    Keeps s0 (readPush s personality).1 := by
  unfold readPush
  repeat with_reducible first
    | assumption | apply violate_keeps | apply noteFailing_keeps | (simp only [keeps_mk]; exact Keeps.parts ‹_›)
    | (simp only [keeps_mk]; refine Keeps.parts ?_) | split | dsimp only | intro
theorem readPush_keeps_of {s0 tt : State} {xx : Nat × Option Container × List Byte} (s : State) (personality : Bool) (hE : (readPush s personality) = (tt, xx)) (hk : Keeps s0 s) :
    Keeps s0 tt := by
  have hK := readPush_keeps (s0 := s0) (s := s) (personality := personality)
  rw [hE] at hK; exact hK hk

theorem recordCopyFaults_keeps {s0 : State} (s : State) (src : Nat) (block : Nat) (fs : List CopyFault) (hk : Keeps s0 s) :
    Keeps s0 (recordCopyFaults s src block fs) := by
  unfold recordCopyFaults
  repeat with_reducible first
    | assumption | apply recordSector_keeps | apply foldl_keeps | apply foldl_keeps_fst
    | (simp only [keeps_mk]; exact Keeps.parts ‹_›) | (simp only [keeps_mk]; refine Keeps.parts ?_) | split | dsimp only
    | intro

theorem readCopy_keeps {s0 : State} (s : State) (personality : Bool) (src : Nat) (secondary : Bool) (bytes : Option (List Byte)) (fs : List CopyFault) (hk : Keeps s0 s) :
    Keeps s0 (readCopy s personality src secondary bytes fs).1 := by
  unfold readCopy
  repeat with_reducible first
    | assumption | apply recordCopyFaults_keeps | (simp only [keeps_mk]; exact Keeps.parts ‹_›)
    | (simp only [keeps_mk]; refine Keeps.parts ?_) | split | dsimp only | intro
theorem readCopy_keeps_of {s0 tt : State} {xx : Nat × Option Container × List Byte} (s : State) (personality : Bool) (src : Nat) (secondary : Bool) (bytes : Option (List Byte)) (fs : List CopyFault) (hE : (readCopy s personality src secondary bytes fs) = (tt, xx)) (hk : Keeps s0 s) :
    Keeps s0 tt := by
  have hK := readCopy_keeps (s0 := s0) (s := s) (personality := personality) (src := src) (secondary := secondary) (bytes := bytes) (fs := fs)
  rw [hE] at hK; exact hK hk

theorem bootProbe_keeps {s0 : State} (s : State) (c : Nat) (hk : Keeps s0 s) :
    Keeps s0 (bootProbe s c) := by
  unfold bootProbe
  repeat with_reducible first
    | assumption | apply emit_keeps | apply capture_keeps | (simp only [keeps_mk]; exact Keeps.parts ‹_›)
    | (simp only [keeps_mk]; refine Keeps.parts ?_) | split | dsimp only | intro

theorem loadLlr_keeps {s0 : State} (s : State) (hk : Keeps s0 s) :
    Keeps s0 (loadLlr s) := by
  unfold loadLlr
  repeat with_reducible first
    | assumption | apply regSet_keeps | apply foldl_keeps | apply foldl_keeps_fst
    | (simp only [keeps_mk]; exact Keeps.parts ‹_›) | (simp only [keeps_mk]; refine Keeps.parts ?_) | split | dsimp only
    | intro

theorem loadSeqs_keeps {s0 : State} (s : State) (hk : Keeps s0 s) :
    Keeps s0 (loadSeqs s) := by
  unfold loadSeqs
  repeat with_reducible first
    | assumption | (simp only [keeps_mk]; exact Keeps.parts ‹_›) | (simp only [keeps_mk]; refine Keeps.parts ?_) | split
    | dsimp only | intro

theorem openDiscovery_keeps {s0 : State} (s : State) (hk : Keeps s0 s) :
    Keeps s0 (openDiscovery s) := by
  unfold openDiscovery
  repeat with_reducible first
    | assumption | (simp only [keeps_mk]; exact Keeps.parts ‹_›) | (simp only [keeps_mk]; refine Keeps.parts ?_) | split
    | dsimp only | intro

theorem endLoadCauses_keeps {s0 : State} (s : State) (hk : Keeps s0 s) :
    Keeps s0 (endLoadCauses s) := by
  unfold endLoadCauses
  repeat with_reducible first
    | assumption | (simp only [keeps_mk]; exact Keeps.parts ‹_›) | (simp only [keeps_mk]; refine Keeps.parts ?_) | split
    | dsimp only | intro

theorem loadPair_keeps {s0 : State} (s : State) (x y : Container) (hk : Keeps s0 s) :
    Keeps s0 (loadPair s x y) := by
  unfold loadPair
  repeat with_reducible first
    | assumption | apply occur_keeps | apply emptyAbacus_keeps | apply loadLlr_keeps
    | (simp only [keeps_mk]; exact Keeps.parts ‹_›) | (simp only [keeps_mk]; refine Keeps.parts ?_) | split | dsimp only
    | intro

theorem runBaseline_keeps {s0 : State} (s : State) (code : Nat) (hk : Keeps s0 s) :
    Keeps s0 (runBaseline s code) := by
  unfold runBaseline
  repeat with_reducible first
    | assumption | apply occur_keeps | apply emptyAbacus_keeps | (simp only [keeps_mk]; exact Keeps.parts ‹_›)
    | (simp only [keeps_mk]; refine Keeps.parts ?_) | split | dsimp only | intro

theorem afterOutcome_keeps {s0 : State} (s : State) (hk : Keeps s0 s) :
    Keeps s0 (afterOutcome s) := by
  unfold afterOutcome
  repeat with_reducible first
    | assumption | apply loadSeqs_keeps | apply openDiscovery_keeps | apply endLoadCauses_keeps
    | (simp only [keeps_mk]; exact Keeps.parts ‹_›) | (simp only [keeps_mk]; refine Keeps.parts ?_) | split | dsimp only
    | intro

theorem commandResult_keeps {s0 : State} (s : State) (result kind : Nat) (hk : Keeps s0 s) :
    Keeps s0 (commandResult s result kind) := by
  unfold commandResult
  repeat with_reducible first
    | assumption | (simp only [keeps_mk]; exact Keeps.parts ‹_›) | (simp only [keeps_mk]; refine Keeps.parts ?_) | split
    | dsimp only | intro

theorem orderLoad_keeps {s0 : State} (s : State) (kind : Nat) (hk : Keeps s0 s) :
    Keeps s0 (orderLoad s kind) := by
  unfold orderLoad
  repeat with_reducible first
    | assumption | apply occur_keeps | apply dropGuarantees_keeps | apply commandResult_keeps
    | (simp only [keeps_mk]; exact Keeps.parts ‹_›) | (simp only [keeps_mk]; refine Keeps.parts ?_) | split | dsimp only
    | intro

theorem writeRst_keeps {s0 : State} (s : State) (d : Dom) (v : W64) (hk : Keeps s0 s) :
    Keeps s0 (writeRst s d v) := by
  unfold writeRst
  repeat with_reducible first
    | assumption | apply orderLoad_keeps | (simp only [keeps_mk]; exact Keeps.parts ‹_›)
    | (simp only [keeps_mk]; refine Keeps.parts ?_) | split | dsimp only | intro

theorem writeBootCmd_keeps {s0 : State} (s : State) (v : W64) (hk : Keeps s0 s) :
    Keeps s0 (writeBootCmd s v) := by
  unfold writeBootCmd
  repeat with_reducible first
    | assumption | apply orderLoad_keeps | (simp only [keeps_mk]; exact Keeps.parts ‹_›)
    | (simp only [keeps_mk]; refine Keeps.parts ?_) | split | dsimp only | intro

theorem noteRecord_keeps {s0 : State} (s : State) (q : W32) (hk : Keeps s0 s) :
    Keeps s0 (noteRecord s q) := by
  unfold noteRecord
  repeat with_reducible first
    | assumption | apply occur_keeps | (simp only [keeps_mk]; exact Keeps.parts ‹_›)
    | (simp only [keeps_mk]; refine Keeps.parts ?_) | split | dsimp only | intro

theorem noteWindow_keeps {s0 : State} (s : State) (hk : Keeps s0 s) :
    Keeps s0 (noteWindow s) := by
  unfold noteWindow
  repeat with_reducible first
    | assumption | apply noteRecord_keeps | apply foldl_keeps | apply foldl_keeps_fst
    | (simp only [keeps_mk]; exact Keeps.parts ‹_›) | (simp only [keeps_mk]; refine Keeps.parts ?_) | split | dsimp only
    | intro

theorem freezeNow_keeps {s0 : State} (s : State) (hk : Keeps s0 s) :
    Keeps s0 (freezeNow s) := by
  unfold freezeNow
  repeat with_reducible first
    | assumption | apply occur_keeps | (simp only [keeps_mk]; exact Keeps.parts ‹_›)
    | (simp only [keeps_mk]; refine Keeps.parts ?_) | split | dsimp only | intro

theorem writeFreeze_keeps {s0 : State} (s : State) (v : W64) (hk : Keeps s0 s) :
    Keeps s0 (writeFreeze s v) := by
  unfold writeFreeze
  repeat with_reducible first
    | assumption | apply freezeNow_keeps | (simp only [keeps_mk]; exact Keeps.parts ‹_›)
    | (simp only [keeps_mk]; refine Keeps.parts ?_) | split | dsimp only | intro

theorem writeXcmd_keeps {s0 : State} (s : State) (v : W64) (hk : Keeps s0 s) :
    Keeps s0 (writeXcmd s v) := by
  unfold writeXcmd
  repeat with_reducible first
    | assumption | apply violate_keeps | (simp only [keeps_mk]; exact Keeps.parts ‹_›)
    | (simp only [keeps_mk]; refine Keeps.parts ?_) | split | dsimp only | intro

theorem exportBurst_keeps {s0 : State} (s : State) (hk : Keeps s0 s) :
    Keeps s0 (exportBurst s) := by
  unfold exportBurst
  repeat with_reducible first
    | assumption | apply memWrite_keeps | apply noteRecord_keeps | apply foldl_keeps | apply foldl_keeps_fst
    | (simp only [keeps_mk]; exact Keeps.parts ‹_›) | (simp only [keeps_mk]; refine Keeps.parts ?_) | split | dsimp only
    | intro

theorem writeFlush_keeps {s0 : State} (s : State) (v : W64) (hk : Keeps s0 s) :
    Keeps s0 (writeFlush s v) := by
  unfold writeFlush
  repeat with_reducible first
    | assumption | apply occur_keeps | (simp only [keeps_mk]; exact Keeps.parts ‹_›)
    | (simp only [keeps_mk]; refine Keeps.parts ?_) | split | dsimp only | intro

theorem setTile_keeps {s0 : State} (s : State) (t : Nat) (x : Tile) (hk : Keeps s0 s) :
    Keeps s0 (setTile s t x) := by
  unfold setTile
  repeat with_reducible first
    | assumption | (simp only [keeps_mk]; exact Keeps.parts ‹_›) | (simp only [keeps_mk]; refine Keeps.parts ?_) | split
    | dsimp only | intro

theorem composeTile_keeps {s0 : State} (s : State) (t i : Nat) (d : List Byte) (hk : Keeps s0 s) :
    Keeps s0 (composeTile s t i d) := by
  unfold composeTile
  repeat with_reducible first
    | assumption | apply setTile_keeps | (simp only [keeps_mk]; exact Keeps.parts ‹_›)
    | (simp only [keeps_mk]; refine Keeps.parts ?_) | split | dsimp only | intro

theorem tagOccur_keeps {s0 : State} (s : State) (c : BitVec 12) (p0 p1 : W32) (hk : Keeps s0 s) :
    Keeps s0 (tagOccur s c p0 p1) := by
  unfold tagOccur
  repeat with_reducible first
    | assumption | apply occur_keeps | (simp only [keeps_mk]; exact Keeps.parts ‹_›)
    | (simp only [keeps_mk]; refine Keeps.parts ?_) | split | dsimp only | intro

theorem flipTile_keeps {s0 : State} (s : State) (t : Nat) (hk : Keeps s0 s) :
    Keeps s0 (flipTile s t) := by
  unfold flipTile
  repeat with_reducible first
    | assumption | apply setTile_keeps | apply tagOccur_keeps | (simp only [keeps_mk]; exact Keeps.parts ‹_›)
    | (simp only [keeps_mk]; refine Keeps.parts ?_) | split | dsimp only | intro

theorem flipAll_keeps {s0 : State} (s : State) (hk : Keeps s0 s) :
    Keeps s0 (flipAll s) := by
  unfold flipAll
  repeat with_reducible first
    | assumption | apply flipTile_keeps | apply foldl_keeps | apply foldl_keeps_fst
    | (simp only [keeps_mk]; exact Keeps.parts ‹_›) | (simp only [keeps_mk]; refine Keeps.parts ?_) | split | dsimp only
    | intro

theorem answerTag_keeps {s0 : State} (s : State) (l : List Byte) (hk : Keeps s0 s) :
    Keeps s0 (answerTag s l) := by
  unfold answerTag
  repeat with_reducible first
    | assumption | apply emit_keeps | (simp only [keeps_mk]; exact Keeps.parts ‹_›)
    | (simp only [keeps_mk]; refine Keeps.parts ?_) | split | dsimp only | intro

theorem tagError_keeps {s0 : State} (s : State) (code : Byte) (hk : Keeps s0 s) :
    Keeps s0 (tagError s code) := by
  unfold tagError
  repeat with_reducible first
    | assumption | apply answerTag_keeps | (simp only [keeps_mk]; exact Keeps.parts ‹_›)
    | (simp only [keeps_mk]; refine Keeps.parts ?_) | split | dsimp only | intro

theorem tagOk_keeps {s0 : State} (s : State) (d : List Byte) (hk : Keeps s0 s) :
    Keeps s0 (tagOk s d) := by
  unfold tagOk
  repeat with_reducible first
    | assumption | apply answerTag_keeps | (simp only [keeps_mk]; exact Keeps.parts ‹_›)
    | (simp only [keeps_mk]; refine Keeps.parts ?_) | split | dsimp only | intro

theorem fieldCommand_keeps {s0 : State} (s : State) (a : TagAddr) (go : State → State) (h_go : ∀ (x0 : State), Keeps s0 x0 → Keeps s0 (go x0)) (hk : Keeps s0 s) :
    Keeps s0 (fieldCommand s a go) := by
  unfold fieldCommand
  repeat with_reducible first
    | assumption | apply flipAll_keeps | apply h_go | (simp only [keeps_mk]; exact Keeps.parts ‹_›)
    | (simp only [keeps_mk]; refine Keeps.parts ?_) | split | dsimp only | intro

theorem readBlock_keeps {s0 : State} (s : State) (ext opt : Bool) (block : W16) (hk : Keeps s0 s) :
    Keeps s0 (readBlock s ext opt block) := by
  unfold readBlock
  repeat with_reducible first
    | assumption | apply tagError_keeps | apply tagOk_keeps | (simp only [keeps_mk]; exact Keeps.parts ‹_›)
    | (simp only [keeps_mk]; refine Keeps.parts ?_) | split | dsimp only | intro

theorem readBlocks_keeps {s0 : State} (s : State) (ext opt : Bool) (first : W16) (n : Nat) (hk : Keeps s0 s) :
    Keeps s0 (readBlocks s ext opt first n) := by
  unfold readBlocks
  repeat with_reducible first
    | assumption | apply tagError_keeps | apply tagOk_keeps | (simp only [keeps_mk]; exact Keeps.parts ‹_›)
    | (simp only [keeps_mk]; refine Keeps.parts ?_) | split | dsimp only | intro

theorem writeBlock_keeps {s0 : State} (s : State) (ext : Bool) (block : W16) (data : W32) (hk : Keeps s0 s) :
    Keeps s0 (writeBlock s ext block data) := by
  unfold writeBlock
  repeat with_reducible first
    | assumption | apply setTile_keeps | apply tagError_keeps | apply tagOk_keeps
    | (simp only [keeps_mk]; exact Keeps.parts ‹_›) | (simp only [keeps_mk]; refine Keeps.parts ?_) | split | dsimp only
    | intro

theorem tryUnlock_keeps {s0 : State} (s : State) (password : W32) (hk : Keeps s0 s) :
    Keeps s0 (tryUnlock s password) := by
  unfold tryUnlock
  repeat with_reducible first
    | assumption | apply tagOccur_keeps | apply tagError_keeps | apply tagOk_keeps
    | (simp only [keeps_mk]; exact Keeps.parts ‹_›) | (simp only [keeps_mk]; refine Keeps.parts ?_) | split | dsimp only
    | intro

theorem openField_keeps {s0 : State} (s : State) (hk : Keeps s0 s) :
    Keeps s0 (openField s) := by
  unfold openField
  repeat with_reducible first
    | assumption | (simp only [keeps_mk]; exact Keeps.parts ‹_›) | (simp only [keeps_mk]; refine Keeps.parts ?_) | split
    | dsimp only | intro

theorem wakeFrom_keeps {s0 : State} (s : State) (src : BitVec 4) (hk : Keeps s0 s) :
    Keeps s0 (wakeFrom s src) := by
  unfold wakeFrom
  repeat with_reducible first
    | assumption | (simp only [keeps_mk]; exact Keeps.parts ‹_›) | (simp only [keeps_mk]; refine Keeps.parts ?_) | split
    | dsimp only | intro

theorem writeTdata_keeps {s0 : State} (s : State) (k : Nat) (v : W64) (hk : Keeps s0 s) :
    Keeps s0 (writeTdata s k v) := by
  unfold writeTdata
  repeat with_reducible first
    | assumption | apply setTile_keeps | (simp only [keeps_mk]; exact Keeps.parts ‹_›)
    | (simp only [keeps_mk]; refine Keeps.parts ?_) | split | dsimp only | intro

theorem writeTcmd_keeps {s0 : State} (s : State) (v : W64) (hk : Keeps s0 s) :
    Keeps s0 (writeTcmd s v) := by
  unfold writeTcmd
  repeat with_reducible first
    | assumption | apply setTile_keeps | (simp only [keeps_mk]; exact Keeps.parts ‹_›)
    | (simp only [keeps_mk]; refine Keeps.parts ?_) | split | dsimp only | intro

theorem composeHealth_keeps {s0 : State} (s : State) (power : Nat) (hk : Keeps s0 s) :
    Keeps s0 (composeHealth s power) := by
  unfold composeHealth
  repeat with_reducible first
    | assumption | apply composeTile_keeps | (simp only [keeps_mk]; exact Keeps.parts ‹_›)
    | (simp only [keeps_mk]; refine Keeps.parts ?_) | split | dsimp only | intro

theorem writeMirrorSlot_keeps {s0 : State} (s : State) (i : Nat) (d : List Byte) (hk : Keeps s0 s) :
    Keeps s0 (writeMirrorSlot s i d) := by
  unfold writeMirrorSlot
  repeat with_reducible first
    | assumption | apply composeTile_keeps | (simp only [keeps_mk]; exact Keeps.parts ‹_›)
    | (simp only [keeps_mk]; refine Keeps.parts ?_) | split | dsimp only | intro

theorem mirrorOne_keeps {s0 : State} (s : State) (q : W32) (hk : Keeps s0 s) :
    Keeps s0 (mirrorOne s q) := by
  unfold mirrorOne
  repeat with_reducible first
    | assumption | apply noteRecord_keeps | apply writeMirrorSlot_keeps | (simp only [keeps_mk]; exact Keeps.parts ‹_›)
    | (simp only [keeps_mk]; refine Keeps.parts ?_) | split | dsimp only | intro

theorem composeMirror_keeps {s0 : State} (s : State) (hk : Keeps s0 s) :
    Keeps s0 (composeMirror s) := by
  unfold composeMirror
  repeat with_reducible first
    | assumption | apply noteRecord_keeps | apply composeTile_keeps | apply writeMirrorSlot_keeps | apply mirrorOne_keeps
    | apply foldl_keeps | apply foldl_keeps_fst | (simp only [keeps_mk]; exact Keeps.parts ‹_›)
    | (simp only [keeps_mk]; refine Keeps.parts ?_) | split | dsimp only | intro

theorem autoMirror_keeps {s0 : State} (s : State) (hk : Keeps s0 s) :
    Keeps s0 (autoMirror s) := by
  unfold autoMirror
  repeat with_reducible first
    | assumption | apply composeHealth_keeps | apply composeMirror_keeps | (simp only [keeps_mk]; exact Keeps.parts ‹_›)
    | (simp only [keeps_mk]; refine Keeps.parts ?_) | split | dsimp only | intro

theorem writeGen_keeps {s0 : State} (s : State) (v : W64) (hk : Keeps s0 s) :
    Keeps s0 (writeGen s v) := by
  unfold writeGen
  repeat with_reducible first
    | assumption | apply composeTile_keeps | apply composeHealth_keeps | apply composeMirror_keeps
    | (simp only [keeps_mk]; exact Keeps.parts ‹_›) | (simp only [keeps_mk]; refine Keeps.parts ?_) | split | dsimp only
    | intro

theorem wakeRun_keeps {s0 : State} (s : State) (hk : Keeps s0 s) :
    Keeps s0 (wakeRun s) := by
  unfold wakeRun
  repeat with_reducible first
    | assumption | (simp only [keeps_mk]; exact Keeps.parts ‹_›) | (simp only [keeps_mk]; refine Keeps.parts ?_) | split
    | dsimp only | intro

theorem writeDeep_keeps {s0 : State} (s : State) (v : W64) (hk : Keeps s0 s) :
    Keeps s0 (writeDeep s v) := by
  unfold writeDeep
  repeat with_reducible first
    | assumption | (simp only [keeps_mk]; exact Keeps.parts ‹_›) | (simp only [keeps_mk]; refine Keeps.parts ?_) | split
    | dsimp only | intro

theorem coreLost_keeps {s0 : State} (s : State) (hk : Keeps s0 s) : Keeps s0 (coreLost s) :=
  ⟨hk.pending, fun _ => ⟨rfl, rfl⟩, hk.fus⟩

theorem deepEnter_keeps {s0 : State} (s : State) (hk : Keeps s0 s) :
    Keeps s0 (deepEnter s) := by
  unfold deepEnter
  repeat with_reducible first
    | assumption | apply occur_keeps | apply stopChannel_keeps | apply flipAll_keeps | apply composeHealth_keeps
    | apply composeMirror_keeps | apply coreLost_keeps | apply foldl_keeps | apply foldl_keeps_fst
    | (simp only [keeps_mk]; exact Keeps.parts ‹_›) | (simp only [keeps_mk]; refine Keeps.parts ?_) | split | dsimp only
    | intro

theorem seeCarrier_keeps {s0 : State} (s : State) (g : Seg) (mv ns : Nat) (hk : Keeps s0 s) :
    Keeps s0 (seeCarrier s g mv ns) := by
  unfold seeCarrier
  repeat with_reducible first
    | assumption | apply setSegAB_keeps | (simp only [keeps_mk]; exact Keeps.parts ‹_›)
    | (simp only [keeps_mk]; refine Keeps.parts ?_) | split | dsimp only | intro

theorem orderRates_keeps {s0 : State} (s : State) (on : Bool) (hk : Keeps s0 s) :
    Keeps s0 (orderRates s on) := by
  unfold orderRates
  repeat with_reducible first
    | assumption | (simp only [keeps_mk]; exact Keeps.parts ‹_›) | (simp only [keeps_mk]; refine Keeps.parts ?_) | split
    | dsimp only | intro

theorem tempRecord_keeps {s0 : State} (s : State) (on : Bool) (c : BitVec 12) (h : Nat × W16) (hk : Keeps s0 s) :
    Keeps s0 (tempRecord s on c h) := by
  unfold tempRecord
  repeat with_reducible first
    | assumption | apply occur_keeps | (simp only [keeps_mk]; exact Keeps.parts ‹_›)
    | (simp only [keeps_mk]; refine Keeps.parts ?_) | split | dsimp only | intro

theorem takeReadings_keeps {s0 : State} (s : State) (ts : List W16) (hk : Keeps s0 s) :
    Keeps s0 (takeReadings s ts) := by
  unfold takeReadings
  repeat with_reducible first
    | assumption | apply updateBand_keeps | apply foldl_keeps | apply foldl_keeps_fst
    | (simp only [keeps_mk]; exact Keeps.parts ‹_›) | (simp only [keeps_mk]; refine Keeps.parts ?_) | split | dsimp only
    | intro

theorem judgeTemps_keeps {s0 : State} (s : State) (hk : Keeps s0 s) :
    Keeps s0 (judgeTemps s) := by
  unfold judgeTemps
  repeat with_reducible first
    | assumption | apply dropGuarantees_keeps | apply refreshAlerts_keeps | apply harmlessEnter_keeps | apply stopFlash_keeps
    | apply orderRates_keeps | apply tempRecord_keeps | (simp only [keeps_mk]; exact Keeps.parts ‹_›)
    | (simp only [keeps_mk]; refine Keeps.parts ?_) | split | dsimp only | intro

theorem countDip_keeps {s0 : State} (s : State) (r mv us : Nat) (hk : Keeps s0 s) :
    Keeps s0 (countDip s r mv us) := by
  unfold countDip
  repeat with_reducible first
    | assumption | apply occur_keeps | apply refreshAlerts_keeps | apply harmlessEnter_keeps | apply stopFlash_keeps
    | (simp only [keeps_mk]; exact Keeps.parts ‹_›) | (simp only [keeps_mk]; refine Keeps.parts ?_) | split | dsimp only
    | intro

theorem harmlessFrame_keeps {s0 : State} (s : State) (hk : Keeps s0 s) :
    Keeps s0 (harmlessFrame s) := by
  unfold harmlessFrame
  repeat with_reducible first
    | assumption | (simp only [keeps_mk]; exact Keeps.parts ‹_›) | (simp only [keeps_mk]; refine Keeps.parts ?_) | split
    | dsimp only | intro

theorem judgeReset_keeps {s0 : State} (s : State) (c t : Nat) (hk : Keeps s0 s) :
    Keeps s0 (judgeReset s c t) := by
  unfold judgeReset
  repeat with_reducible first
    | assumption | apply loseTarget_keeps | (simp only [keeps_mk]; exact Keeps.parts ‹_›)
    | (simp only [keeps_mk]; refine Keeps.parts ?_) | split | dsimp only | intro

theorem restartChannel_keeps {s0 : State} (s : State) (c : Nat) (hk : Keeps s0 s) :
    Keeps s0 (restartChannel s c) := by
  unfold restartChannel
  repeat with_reducible first
    | assumption | apply emit_keeps | apply setFch_keeps | apply writeFeatures_keeps | apply orderRates_keeps
    | apply judgeReset_keeps | apply foldl_keeps | apply foldl_keeps_fst | (simp only [keeps_mk]; exact Keeps.parts ‹_›)
    | (simp only [keeps_mk]; refine Keeps.parts ?_) | split | dsimp only | intro

theorem rejectEntry_keeps {s0 : State} (s : State) (e : Entry) (bits : Nat) (hk : Keeps s0 s) :
    Keeps s0 (rejectEntry s e bits) := by
  unfold rejectEntry
  repeat with_reducible first
    | assumption | apply occurRing_keeps | apply endEntry_keeps | (simp only [keeps_mk]; exact Keeps.parts ‹_›)
    | (simp only [keeps_mk]; refine Keeps.parts ?_) | split | dsimp only | intro

theorem admitEntry_keeps {s0 : State} (s : State) (e : Entry) (hk : Keeps s0 s) :
    Keeps s0 (admitEntry s e) := by
  unfold admitEntry
  repeat with_reducible first
    | assumption | apply violate_keeps | apply setEntry_keeps | apply endEntry_keeps | apply conclude_keeps
    | (simp only [keeps_mk]; exact Keeps.parts ‹_›) | (simp only [keeps_mk]; refine Keeps.parts ?_) | split | dsimp only
    | intro

theorem fetchEntry_keeps {s0 : State} (s : State) (n : Nat) (q : Sq) (hk : Keeps s0 s) :
    Keeps s0 (fetchEntry s n q) := by
  unfold fetchEntry
  extract_lets k off addr gone bytes bad a s1 s2 s3 ws cid receipt
  have h1 : Keeps s0 s1 := by
    clear_value gone
    cases gone
    · exact hk
    · exact violate_keeps _ _ _ _ hk
  have h2 : Keeps s0 s2 := noteFailing_keeps _ _ _ h1
  have h3 : Keeps s0 s3 := by
    simp only [s3]
    split
    · exact memSet_keeps _ _ _ h2
    · exact h2
  clear_value s3
  have h4 : ∀ (q : Tbl Sq) (f : Tbl Nat) (e : List Entry),
      Keeps s0 { s3 with sqs := q, fetchLast := f, entries := e } := fun q f e => keeps_mk.mpr h3.parts
  split
  extract_lets e s4
  have h5 : Keeps s0 s4 := h4 _ _ _
  clear_value s4 e
  repeat first
    | exact rejectEntry_keeps _ _ _ h5
    | exact admitEntry_keeps _ _ h5
    | split

theorem noteSure_keeps {s0 : State} (s : State) (n : Nat) (from_ : W16) (k : Nat) (hk : Keeps s0 s) :
    Keeps s0 (noteSure s n from_ k) := by
  unfold noteSure
  repeat with_reducible first
    | assumption | (simp only [keeps_mk]; exact Keeps.parts ‹_›) | (simp only [keeps_mk]; refine Keeps.parts ?_) | split
    | dsimp only | intro

theorem ringDoorbell_keeps {s0 : State} (s : State) (n : Nat) (t : W16) (hk : Keeps s0 s) :
    Keeps s0 (ringDoorbell s n t) := by
  unfold ringDoorbell
  repeat with_reducible first
    | assumption | apply occurRing_keeps | apply noteSure_keeps | (simp only [keeps_mk]; exact Keeps.parts ‹_›)
    | (simp only [keeps_mk]; refine Keeps.parts ?_) | split | dsimp only | intro

theorem checkedDoorbell_keeps {s0 : State} (s : State) (d : Dom) (n : Nat) (t : W16) (og : Origin) (hk : Keeps s0 s) :
    Keeps s0 (checkedDoorbell s d n t og) := by
  unfold checkedDoorbell
  repeat with_reducible first
    | assumption | apply guardedWrite_keeps | apply ringDoorbell_keeps | (simp only [keeps_mk]; exact Keeps.parts ‹_›)
    | (simp only [keeps_mk]; refine Keeps.parts ?_) | split | dsimp only | intro

theorem writeArea_keeps {s0 : State} (s : State) (a : Option Nat) (d : List Byte) (hk : Keeps s0 s) :
    Keeps s0 (writeArea s a d) := by
  unfold writeArea
  repeat with_reducible first
    | assumption | apply memWrite_keeps | (simp only [keeps_mk]; exact Keeps.parts ‹_›)
    | (simp only [keeps_mk]; refine Keeps.parts ?_) | split | dsimp only | intro

theorem beginRead_keeps {s0 : State} (s : State) (e : Entry) (hk : Keeps s0 s) :
    Keeps s0 (beginRead s e).1 := by
  unfold beginRead
  repeat with_reducible first
    | assumption | apply startStep_keeps | refine startStep_keeps_of ‹_› ?_ | apply foldl_keeps | apply foldl_keeps_fst
    | (simp only [keeps_mk]; exact Keeps.parts ‹_›) | (simp only [keeps_mk]; refine Keeps.parts ?_) | split | dsimp only
    | intro
theorem beginRead_keeps_of {s0 tt : State} {xx : Entry} (s : State) (e : Entry) (hE : (beginRead s e) = (tt, xx)) (hk : Keeps s0 s) :
    Keeps s0 tt := by
  have hK := beginRead_keeps (s0 := s0) (s := s) (e := e)
  rw [hE] at hK; exact hK hk

theorem setStep_keeps {s0 : State} (s : State) (l t k : Nat) (hk : Keeps s0 s) :
    Keeps s0 (setStep s l t k) := by
  unfold setStep
  repeat with_reducible first
    | assumption | apply emit_keeps | apply setLun_keeps | (simp only [keeps_mk]; exact Keeps.parts ‹_›)
    | (simp only [keeps_mk]; refine Keeps.parts ?_) | split | dsimp only | intro

theorem startSense_keeps {s0 : State} (s : State) (e : Entry) (leg : Nat) (verify : Bool) (pfa : W64) (planes : List PlaneRd) (hk : Keeps s0 s) :
    Keeps s0 (startSense s e leg verify pfa planes) := by
  unfold startSense
  repeat with_reducible first
    | assumption | apply emit_keeps | apply setEntry_keeps | apply closeSeq_keeps | apply startArray_keeps
    | apply setStep_keeps | (simp only [keeps_mk]; exact Keeps.parts ‹_›) | (simp only [keeps_mk]; refine Keeps.parts ?_)
    | split | dsimp only | intro

theorem startRead_keeps {s0 : State} (s : State) (e : Entry) (hk : Keeps s0 s) :
    Keeps s0 (startRead s e) := by
  unfold startRead
  repeat with_reducible first
    | assumption | apply setEntry_keeps | apply beginRead_keeps | refine beginRead_keeps_of ‹_› ?_ | apply startSense_keeps
    | (simp only [keeps_mk]; exact Keeps.parts ‹_›) | (simp only [keeps_mk]; refine Keeps.parts ?_) | split | dsimp only
    | intro

theorem sendSectors_keeps {s0 : State} (s : State) (e : Entry) (i : Nat) (hk : Keeps s0 s) :
    Keeps s0 (sendSectors s e i) := by
  unfold sendSectors
  repeat with_reducible first
    | assumption | apply emit_keeps | apply foldl_keeps | apply foldl_keeps_fst
    | (simp only [keeps_mk]; exact Keeps.parts ‹_›) | (simp only [keeps_mk]; refine Keeps.parts ?_) | split | dsimp only
    | intro

theorem startProgram_keeps {s0 : State} (s : State) (e : Entry) (i : Nat) (hk : Keeps s0 s) :
    Keeps s0 (startProgram s e i) := by
  unfold startProgram
  repeat with_reducible first
    | assumption | apply emit_keeps | apply noteFailing_keeps | apply setEntry_keeps | apply conclude_keeps
    | apply closeSeq_keeps | apply startArray_keeps | apply sendSectors_keeps | (simp only [keeps_mk]; exact Keeps.parts ‹_›)
    | (simp only [keeps_mk]; refine Keeps.parts ?_) | split | dsimp only | intro

theorem startErase_keeps {s0 : State} (s : State) (e : Entry) (hk : Keeps s0 s) :
    Keeps s0 (startErase s e) := by
  unfold startErase
  repeat with_reducible first
    | assumption | apply emit_keeps | apply setEntry_keeps | apply closeSeq_keeps | apply startArray_keeps | apply foldl_keeps
    | apply foldl_keeps_fst | (simp only [keeps_mk]; exact Keeps.parts ‹_›) | (simp only [keeps_mk]; refine Keeps.parts ?_)
    | split | dsimp only | intro

theorem startLeg_keeps {s0 : State} (s : State) (e : Entry) (i : Nat) (hk : Keeps s0 s) :
    Keeps s0 (startLeg s e i) := by
  unfold startLeg
  repeat with_reducible first
    | assumption | apply startSense_keeps | apply startProgram_keeps | (simp only [keeps_mk]; exact Keeps.parts ‹_›)
    | (simp only [keeps_mk]; refine Keeps.parts ?_) | split | dsimp only | intro

theorem tryStart_keeps {s0 : State} (s : State) (e : Entry) (l : Nat) (go : State → State) (h_go : ∀ (x0 : State), Keeps s0 x0 → Keeps s0 (go x0)) (hk : Keeps s0 s) :
    Keeps s0 (tryStart s e l go) := by
  unfold tryStart
  repeat with_reducible first
    | assumption | apply trySuspend_keeps | apply h_go | (simp only [keeps_mk]; exact Keeps.parts ‹_›)
    | (simp only [keeps_mk]; refine Keeps.parts ?_) | split | dsimp only | intro

theorem flashRow_keeps {s0 : State} (s : State) (r : EntryRef) (op l : Nat) (go : State → Entry → State) (h_go : ∀ (x0 : State) (x1 : Entry), Keeps s0 x0 → Keeps s0 (go x0 x1)) (hk : Keeps s0 s) :
    Keeps s0 (flashRow s r op l go) := by
  unfold flashRow
  repeat with_reducible first
    | assumption | apply withSlot_keeps | apply tryStart_keeps | apply h_go | (simp only [keeps_mk]; exact Keeps.parts ‹_›)
    | (simp only [keeps_mk]; refine Keeps.parts ?_) | split | dsimp only | intro

theorem giveUp_keeps {s0 : State} (s : State) (e : Entry) (p : PlaneRd) (hk : Keeps s0 s) :
    Keeps s0 (giveUp s e p).1 := by
  unfold giveUp
  repeat with_reducible first
    | assumption | apply recordSector_keeps | apply foldl_keeps | apply foldl_keeps_fst
    | (simp only [keeps_mk]; exact Keeps.parts ‹_›) | (simp only [keeps_mk]; refine Keeps.parts ?_) | split | dsimp only
    | intro
theorem giveUp_keeps_of {s0 tt : State} {xx : Entry × PlaneRd} (s : State) (e : Entry) (p : PlaneRd) (hE : (giveUp s e p) = (tt, xx)) (hk : Keeps s0 s) :
    Keeps s0 tt := by
  have hK := giveUp_keeps (s0 := s0) (s := s) (e := e) (p := p)
  rw [hE] at hK; exact hK hk

theorem teachBead_keeps {s0 : State} (s : State) (e : Entry) (p : PlaneRd) (hk : Keeps s0 s) :
    Keeps s0 (teachBead s e p) := by
  unfold teachBead
  repeat with_reducible first
    | assumption | apply setBead_keeps | (simp only [keeps_mk]; exact Keeps.parts ‹_›)
    | (simp only [keeps_mk]; refine Keeps.parts ?_) | split | dsimp only | intro

theorem planeDecided_keeps {s0 : State} (s : State) (e : Entry) (p : PlaneRd) (hk : Keeps s0 s) :
    Keeps s0 (planeDecided s e p).1 := by
  unfold planeDecided
  repeat with_reducible first
    | assumption | apply giveUp_keeps | refine giveUp_keeps_of ‹_› ?_ | apply teachBead_keeps
    | (simp only [keeps_mk]; exact Keeps.parts ‹_›) | (simp only [keeps_mk]; refine Keeps.parts ?_) | split | dsimp only
    | intro
theorem planeDecided_keeps_of {s0 tt : State} {xx : Entry} (s : State) (e : Entry) (p : PlaneRd) (hE : (planeDecided s e p) = (tt, xx)) (hk : Keeps s0 s) :
    Keeps s0 tt := by
  have hK := planeDecided_keeps (s0 := s0) (s := s) (e := e) (p := p)
  rw [hE] at hK; exact hK hk

theorem takeSector_keeps {s0 : State} (s : State) (e : Entry) (plane sector : Nat) (r : DecodeResult) (hk : Keeps s0 s) :
    Keeps s0 (takeSector s e plane sector r).1 := by
  unfold takeSector
  repeat with_reducible first
    | assumption | apply recordSector_keeps | apply writeArea_keeps | (simp only [keeps_mk]; exact Keeps.parts ‹_›)
    | (simp only [keeps_mk]; refine Keeps.parts ?_) | split | dsimp only | intro
theorem takeSector_keeps_of {s0 tt : State} {xx : Entry × SecState} (s : State) (e : Entry) (plane sector : Nat) (r : DecodeResult) (hE : (takeSector s e plane sector r) = (tt, xx)) (hk : Keeps s0 s) :
    Keeps s0 tt := by
  have hK := takeSector_keeps (s0 := s0) (s := s) (e := e) (plane := plane) (sector := sector) (r := r)
  rw [hE] at hK; exact hK hk

theorem takeErased_keeps {s0 : State} (s : State) (e : Entry) (plane sector : Nat) (hk : Keeps s0 s) :
    Keeps s0 (takeErased s e plane sector) := by
  unfold takeErased
  repeat with_reducible first
    | assumption | apply writeArea_keeps | (simp only [keeps_mk]; exact Keeps.parts ‹_›)
    | (simp only [keeps_mk]; refine Keeps.parts ?_) | split | dsimp only | intro

theorem countDecode_keeps {s0 : State} (s : State) (soft ok : Bool) (hk : Keeps s0 s) :
    Keeps s0 (countDecode s soft ok) := by
  unfold countDecode
  repeat with_reducible first
    | assumption | (simp only [keeps_mk]; exact Keeps.parts ‹_›) | (simp only [keeps_mk]; refine Keeps.parts ?_) | split
    | dsimp only | intro

theorem decodedPlane_keeps {s0 : State} (s : State) (e : Entry) (p : PlaneRd) (n : Nat) (r : DecodeResult) (hk : Keeps s0 s) :
    Keeps s0 (decodedPlane s e p n r).1 := by
  unfold decodedPlane
  repeat with_reducible first
    | assumption | apply takeSector_keeps | refine takeSector_keeps_of ‹_› ?_ | apply takeErased_keeps
    | apply countDecode_keeps | (simp only [keeps_mk]; exact Keeps.parts ‹_›) | (simp only [keeps_mk]; refine Keeps.parts ?_)
    | split | dsimp only | intro
theorem decodedPlane_keeps_of {s0 tt : State} {xx : Entry × PlaneRd} (s : State) (e : Entry) (p : PlaneRd) (n : Nat) (r : DecodeResult) (hE : (decodedPlane s e p n r) = (tt, xx)) (hk : Keeps s0 s) :
    Keeps s0 tt := by
  have hK := decodedPlane_keeps (s0 := s0) (s := s) (e := e) (p := p) (n := n) (r := r)
  rw [hE] at hK; exact hK hk

theorem readDecoded_keeps {s0 : State} (s : State) (e : Entry) (plane n : Nat) (soft : Bool) (r : DecodeResult) (hk : Keeps s0 s) :
    Keeps s0 (readDecoded s e plane n soft r) := by
  unfold readDecoded
  repeat with_reducible first
    | assumption | apply setEntry_keeps | apply conclude_keeps | apply planeDecided_keeps
    | refine planeDecided_keeps_of ‹_› ?_ | apply decodedPlane_keeps | refine decodedPlane_keeps_of ‹_› ?_
    | (simp only [keeps_mk]; exact Keeps.parts ‹_›) | (simp only [keeps_mk]; refine Keeps.parts ?_) | split | dsimp only
    | intro

theorem verifyDecoded_keeps {s0 : State} (s : State) (e : Entry) (i plane n : Nat) (r : DecodeResult) (hk : Keeps s0 s) :
    Keeps s0 (verifyDecoded s e i plane n r) := by
  unfold verifyDecoded
  repeat with_reducible first
    | assumption | apply recordSector_keeps | apply setEntry_keeps | apply conclude_keeps | apply countDecode_keeps
    | (simp only [keeps_mk]; exact Keeps.parts ‹_›) | (simp only [keeps_mk]; refine Keeps.parts ?_) | split | dsimp only
    | intro

theorem bringSector_keeps {s0 : State} (s : State) (e : Entry) (leg : Bool) (plane sector : Nat) (hk : Keeps s0 s) :
    Keeps s0 (bringSector s e leg plane sector) := by
  unfold bringSector
  repeat with_reducible first
    | assumption | apply putOnBus_keeps | (simp only [keeps_mk]; exact Keeps.parts ‹_›)
    | (simp only [keeps_mk]; refine Keeps.parts ?_) | split | dsimp only | intro

theorem adminRow_keeps {s0 : State} (s : State) (r : EntryRef) (op : Nat) (go : State → Entry → State) (h_go : ∀ (x0 : State) (x1 : Entry), Keeps s0 x0 → Keeps s0 (go x0 x1)) (hk : Keeps s0 s) :
    Keeps s0 (adminRow s r op go) := by
  unfold adminRow
  repeat with_reducible first
    | assumption | apply withSlot_keeps | apply closeSeq_keeps | apply h_go | (simp only [keeps_mk]; exact Keeps.parts ‹_›)
    | (simp only [keeps_mk]; refine Keeps.parts ?_) | split | dsimp only | intro

theorem resetLun_keeps {s0 : State} (s : State) (l : Nat) (owner : Option OpRef) (hk : Keeps s0 s) :
    Keeps s0 (resetLun s l owner) := by
  unfold resetLun
  repeat with_reducible first
    | assumption | apply setLun_keeps | (simp only [keeps_mk]; exact Keeps.parts ‹_›)
    | (simp only [keeps_mk]; refine Keeps.parts ?_) | split | dsimp only | intro

theorem startReset_keeps {s0 : State} (s : State) (e : Entry) (hk : Keeps s0 s) :
    Keeps s0 (startReset s e) := by
  unfold startReset
  repeat with_reducible first
    | assumption | apply emit_keeps | apply setEntry_keeps | apply abortOp_keeps | apply resetLun_keeps | apply foldl_keeps
    | apply foldl_keeps_fst | (simp only [keeps_mk]; exact Keeps.parts ‹_›) | (simp only [keeps_mk]; refine Keeps.parts ?_)
    | split | dsimp only | intro

theorem readBeads_keeps {s0 : State} (s : State) (a n : Nat) (hk : Keeps s0 s) : Keeps s0 (readBeads s a n).1 := by
  induction n generalizing s a with
  | zero => exact hk
  | succ n ih => exact ih _ _ (readBead_keeps _ _ hk)
theorem readBeads_keeps_of {s0 tt : State} {xx : List Byte} (s : State) (a : Nat) (y0 : Nat) (hE : (readBeads s a y0) = (tt, xx)) (hk : Keeps s0 s) :
    Keeps s0 tt := by
  have hK := readBeads_keeps (s0 := s0) s a y0
  rw [hE] at hK; exact hK hk

theorem writeBeads_keeps {s0 : State} (s : State) (a : Nat) (y0 : List Byte) :
    Keeps s0 s → Keeps s0 (writeBeads s a y0) := by
  induction y0 generalizing s a <;> intro hk <;> unfold writeBeads
  all_goals repeat with_reducible first
    | apply_assumption | assumption | apply setBead_keeps | (simp only [keeps_mk]; exact Keeps.parts ‹_›)
    | (simp only [keeps_mk]; refine Keeps.parts ?_) | split | dsimp only | intro

theorem exportGroup_keeps {s0 : State} (e : Entry) (acc : State × Nat × Nat) (x : Nat × Nat × Nat) (hk : Keeps s0 acc.1) :
    Keeps s0 (exportGroup e acc x).1 := by
  obtain ⟨s, done, skipped⟩ := acc
  obtain ⟨l, g, off⟩ := x
  change Keeps s0 s at hk
  simp only [exportGroup]
  repeat with_reducible first
    | assumption | apply writeArea_keeps | apply readBeads_keeps | apply writeBeads_keeps | apply noteFailing_keeps
    | (simp only [keeps_mk]; exact Keeps.parts ‹_›) | (simp only [keeps_mk]; refine Keeps.parts ?_) | split | dsimp only
    | intro

theorem importGroup_keeps {s0 : State} (e : Entry) (acc : State × Nat × Nat) (x : Nat × Nat × Nat) (hk : Keeps s0 acc.1) :
    Keeps s0 (importGroup e acc x).1 := by
  obtain ⟨s, done, skipped⟩ := acc
  obtain ⟨l, g, off⟩ := x
  change Keeps s0 s at hk
  simp only [importGroup]
  repeat with_reducible first
    | assumption | apply writeArea_keeps | apply readBeads_keeps | apply writeBeads_keeps | apply noteFailing_keeps
    | (simp only [keeps_mk]; exact Keeps.parts ‹_›) | (simp only [keeps_mk]; refine Keeps.parts ?_) | split | dsimp only
    | intro

theorem transfer_keeps {s0 : State} (s : State) (r : EntryRef) (op : Nat) (one : Entry → State × Nat × Nat → Nat × Nat × Nat → State × Nat × Nat) (h_one : ∀ (x0 : Entry) (x1 : State × Nat × Nat) (x2 : Nat × Nat × Nat), Keeps s0 x1.1 → Keeps s0 (one x0 x1 x2).1) (hk : Keeps s0 s) :
    Keeps s0 (transfer s r op one) := by
  unfold transfer
  repeat with_reducible first
    | assumption | apply endEntry_keeps | apply withSlot_keeps | apply h_one | apply foldl_keeps | apply foldl_keeps_fst
    | (simp only [keeps_mk]; exact Keeps.parts ‹_›) | (simp only [keeps_mk]; refine Keeps.parts ?_) | split | dsimp only
    | intro

theorem lunTimeout_keeps {s0 : State} (s : State) (l : Nat) (hk : Keeps s0 s) :
    Keeps s0 (lunTimeout s l) := by
  unfold lunTimeout
  repeat with_reducible first
    | assumption | apply emit_keeps | apply occur_keeps | apply abortOp_keeps | apply resetLun_keeps
    | (simp only [keeps_mk]; exact Keeps.parts ‹_›) | (simp only [keeps_mk]; refine Keeps.parts ?_) | split | dsimp only
    | intro

theorem writeRetire_keeps {s0 : State} (s : State) (v : W64) (hk : Keeps s0 s) :
    Keeps s0 (writeRetire s v) := by
  unfold writeRetire
  repeat with_reducible first
    | assumption | apply regSet_keeps | apply occur_keeps | (simp only [keeps_mk]; exact Keeps.parts ‹_›)
    | (simp only [keeps_mk]; refine Keeps.parts ?_) | split | dsimp only | intro

theorem clearScrub_keeps {s0 : State} (s : State) (d : Nat) (hk : Keeps s0 s) :
    Keeps s0 (clearScrub s d) := by
  unfold clearScrub
  repeat with_reducible first
    | assumption | (simp only [keeps_mk]; exact Keeps.parts ‹_›) | (simp only [keeps_mk]; refine Keeps.parts ?_) | split
    | dsimp only | intro

theorem clearPerrmap_keeps {s0 : State} (s : State) (k : Nat) (v : W64) (hk : Keeps s0 s) :
    Keeps s0 (clearPerrmap s k v) := by
  unfold clearPerrmap
  repeat with_reducible first
    | assumption | (simp only [keeps_mk]; exact Keeps.parts ‹_›) | (simp only [keeps_mk]; refine Keeps.parts ?_) | split
    | dsimp only | intro

theorem setMov_keeps {s0 : State} (s : State) (n : Nat) (m : Mover) (hk : Keeps s0 s) :
    Keeps s0 (setMov s n m) := by
  unfold setMov
  repeat with_reducible first
    | assumption | (simp only [keeps_mk]; exact Keeps.parts ‹_›) | (simp only [keeps_mk]; refine Keeps.parts ?_) | split
    | dsimp only | intro

theorem assignResult_keeps {s0 : State} (s : State) (n : Nat) (busy : Bool) (hk : Keeps s0 s) :
    Keeps s0 (assignResult s n busy) := by
  unfold assignResult
  repeat with_reducible first
    | assumption | apply regSet_keeps | (simp only [keeps_mk]; exact Keeps.parts ‹_›)
    | (simp only [keeps_mk]; refine Keeps.parts ?_) | split | dsimp only | intro

theorem clearHdr_keeps {s0 : State} (s : State) (b : Nat) (hk : Keeps s0 s) :
    Keeps s0 (clearHdr s b) := by
  unfold clearHdr
  repeat with_reducible first
    | assumption | (simp only [keeps_mk]; exact Keeps.parts ‹_›) | (simp only [keeps_mk]; refine Keeps.parts ?_) | split
    | dsimp only | intro

theorem writeAssign_keeps {s0 : State} (s : State) (v : W64) (hk : Keeps s0 s) :
    Keeps s0 (writeAssign s v) := by
  unfold writeAssign
  repeat with_reducible first
    | assumption | apply setHdr_keeps | apply setMov_keeps | apply assignResult_keeps | apply clearHdr_keeps
    | (simp only [keeps_mk]; exact Keeps.parts ‹_›) | (simp only [keeps_mk]; refine Keeps.parts ?_) | split | dsimp only
    | intro

theorem movEvent_keeps {s0 : State} (s : State) (n : Nat) (code : BitVec 12) (pc : Nat) (hk : Keeps s0 s) :
    Keeps s0 (movEvent s n code pc) := by
  unfold movEvent
  repeat with_reducible first
    | assumption | apply occur_keeps | (simp only [keeps_mk]; exact Keeps.parts ‹_›)
    | (simp only [keeps_mk]; refine Keeps.parts ?_) | split | dsimp only | intro

theorem movFault_keeps {s0 : State} (s : State) (n : Nat) (m : Mover) (cause addr : Nat) (hk : Keeps s0 s) :
    Keeps s0 (movFault s n m cause addr) := by
  unfold movFault
  repeat with_reducible first
    | assumption | apply occur_keeps | apply setMov_keeps | (simp only [keeps_mk]; exact Keeps.parts ‹_›)
    | (simp only [keeps_mk]; refine Keeps.parts ?_) | split | dsimp only | intro

theorem endInstr_keeps {s0 : State} (s : State) (n : Nat) (m : Mover) (eoc : Bool) (next : Nat) (hk : Keeps s0 s) :
    Keeps s0 (endInstr s n m eoc next) := by
  unfold endInstr
  repeat with_reducible first
    | assumption | apply setMov_keeps | apply movEvent_keeps | (simp only [keeps_mk]; exact Keeps.parts ‹_›)
    | (simp only [keeps_mk]; refine Keeps.parts ?_) | split | dsimp only | intro

theorem stepOn_keeps {s0 : State} (s : State) (n : Nat) (m : Mover) (eoc : Bool) (hk : Keeps s0 s) :
    Keeps s0 (stepOn s n m eoc) := by
  unfold stepOn
  repeat with_reducible first
    | assumption | apply endInstr_keeps | (simp only [keeps_mk]; exact Keeps.parts ‹_›)
    | (simp only [keeps_mk]; refine Keeps.parts ?_) | split | dsimp only | intro

theorem scrubAdd_keeps {s0 : State} (s : State) (d : Dom) (words : Nat) (bad : List Nat) (hk : Keeps s0 s) :
    Keeps s0 (scrubAdd s d words bad) := by
  unfold scrubAdd
  repeat with_reducible first
    | assumption | (simp only [keeps_mk]; exact Keeps.parts ‹_›) | (simp only [keeps_mk]; refine Keeps.parts ?_) | split
    | dsimp only | intro

theorem writeCons_keeps {s0 : State} (s : State) (m : Mover) (a : Nat) (hk : Keeps s0 s) : Keeps s0 (writeCons s m a) :=
  memWrite_keeps _ _ _ hk

/-- `Keeps` for what the start of a move or fill leads to. -/
def KeepsDone (s0 : State) : Done → Prop
  | .denied t _ => Keeps s0 t
  | .faulted t _ _ _ => Keeps s0 t
  | .started t _ _ => Keeps s0 t

theorem keepsDone_denied {s0 t : State} {m : Mover} (h : Keeps s0 t) : KeepsDone s0 (.denied t m) := h
theorem keepsDone_faulted {s0 t : State} {m : Mover} {c a : Nat} (h : Keeps s0 t) : KeepsDone s0 (.faulted t m c a) := h
theorem keepsDone_started {s0 t : State} {m : Mover} {j : BurstJob} (h : Keeps s0 t) : KeepsDone s0 (.started t m j) := h

theorem denyMov_keeps {s0 : State} (s : State) (n : Nat) (m : Mover) (v : Viol) (hk : Keeps s0 s) :
    KeepsDone s0 (denyMov s n m v) := violate_keeps _ _ _ _ hk

theorem doMove_keeps {s0 : State} (s : State) (n : Nat) (m : Mover) (j : MoveJob) (hk : Keeps s0 s) :
    KeepsDone s0 (doMove s n m j) := by
  unfold doMove
  repeat with_reducible first
    | assumption | apply denyMov_keeps | apply noteFailing_keeps | apply keepsDone_faulted | apply keepsDone_started
    | (simp only [keeps_mk]; exact Keeps.parts ‹_›) | (simp only [keeps_mk]; refine Keeps.parts ?_) | split | dsimp only
    | intro

theorem doFill_keeps {s0 : State} (s : State) (n : Nat) (m : Mover) (dst : W64) (len : Nat) (pat : W64) (hk : Keeps s0 s) :
    KeepsDone s0 (doFill s n m dst len pat) := by
  unfold doFill
  repeat with_reducible first
    | assumption | apply denyMov_keeps | apply keepsDone_faulted | apply keepsDone_started
    | (simp only [keeps_mk]; exact Keeps.parts ‹_›) | (simp only [keeps_mk]; refine Keeps.parts ?_) | split | dsimp only
    | intro

theorem storeCrc_keeps {s0 : State} (s : State) (m : Mover) (a : Nat) (hk : Keeps s0 s) :
    Keeps s0 (storeCrc s m a) := by
  unfold storeCrc
  repeat with_reducible first
    | assumption | apply memWrite_keeps | (simp only [keeps_mk]; exact Keeps.parts ‹_›)
    | (simp only [keeps_mk]; refine Keeps.parts ?_) | split | dsimp only | intro

theorem noteGone_keeps {s0 : State} (s : State) (n : Nat) (m : Mover) (j : BurstJob) (l : List Nat) (hk : Keeps s0 s) :
    Keeps s0 (noteGone s n m j l).1 := by
  unfold noteGone
  repeat with_reducible first
    | assumption | apply violate_keeps | (simp only [keeps_mk]; exact Keeps.parts ‹_›)
    | (simp only [keeps_mk]; refine Keeps.parts ?_) | split | dsimp only | intro
theorem noteGone_keeps_of {s0 tt : State} {xx : BurstJob} (s : State) (n : Nat) (m : Mover) (j : BurstJob) (l : List Nat) (hE : (noteGone s n m j l) = (tt, xx)) (hk : Keeps s0 s) :
    Keeps s0 tt := by
  have hK := noteGone_keeps (s0 := s0) (s := s) (n := n) (m := m) (j := j) (l := l)
  rw [hE] at hK; exact hK hk

theorem finishJob_keeps {s0 : State} (s : State) (n : Nat) (m : Mover) (j : BurstJob) (hk : Keeps s0 s) :
    Keeps s0 (finishJob s n m j) := by
  unfold finishJob
  repeat with_reducible first
    | assumption | apply setMov_keeps | apply stepOn_keeps | apply writeCons_keeps | apply storeCrc_keeps
    | (simp only [keeps_mk]; exact Keeps.parts ‹_›) | (simp only [keeps_mk]; refine Keeps.parts ?_) | split | dsimp only
    | intro

theorem afterBurst_keeps {s0 : State} (s : State) (n : Nat) (m : Mover) (j : BurstJob) (hk : Keeps s0 s) :
    Keeps s0 (afterBurst s n m j) := by
  unfold afterBurst
  repeat with_reducible first
    | assumption | apply setMov_keeps | apply finishJob_keeps | (simp only [keeps_mk]; exact Keeps.parts ‹_›)
    | (simp only [keeps_mk]; refine Keeps.parts ?_) | split | dsimp only | intro

theorem checkBurst_keeps {s0 : State} (s : State) (n : Nat) (m : Mover) (j : BurstJob) (addrs bad : List Nat) (vals : List Byte) (hk : Keeps s0 s) :
    Keeps s0 (checkBurst s n m j addrs bad vals) := by
  unfold checkBurst
  repeat with_reducible first
    | assumption | apply noteFailing_keeps | apply scrubAdd_keeps | apply afterBurst_keeps
    | (simp only [keeps_mk]; exact Keeps.parts ‹_›) | (simp only [keeps_mk]; refine Keeps.parts ?_) | split | dsimp only
    | intro

theorem readBurst_keeps {s0 : State} (s : State) (n : Nat) (m : Mover) (j : BurstJob) (hk : Keeps s0 s) :
    Keeps s0 (readBurst s n m j) := by
  unfold readBurst
  repeat with_reducible first
    | assumption | apply noteFailing_keeps | apply setMov_keeps | apply movFault_keeps | apply noteGone_keeps
    | refine noteGone_keeps_of ‹_› ?_ | apply checkBurst_keeps | (simp only [keeps_mk]; exact Keeps.parts ‹_›)
    | (simp only [keeps_mk]; refine Keeps.parts ?_) | split | dsimp only | intro

theorem placeBytes_keeps {s0 : State} (s : State) (dst : Nat) (l : List (Nat × Byte)) (hk : Keeps s0 s) :
    Keeps s0 (placeBytes s dst l) := by
  unfold placeBytes
  repeat with_reducible first
    | assumption | apply memSet_keeps | apply foldl_keeps | apply foldl_keeps_fst
    | (simp only [keeps_mk]; exact Keeps.parts ‹_›) | (simp only [keeps_mk]; refine Keeps.parts ?_) | split | dsimp only
    | intro

theorem putBurst_keeps {s0 : State} (s : State) (n : Nat) (m : Mover) (j : BurstJob) (bytes : List (Nat × Byte)) (hk : Keeps s0 s) :
    Keeps s0 (putBurst s n m j bytes) := by
  unfold putBurst
  repeat with_reducible first
    | assumption | apply noteGone_keeps | refine noteGone_keeps_of ‹_› ?_ | apply afterBurst_keeps | apply placeBytes_keeps
    | (simp only [keeps_mk]; exact Keeps.parts ‹_›) | (simp only [keeps_mk]; refine Keeps.parts ?_) | split | dsimp only
    | intro

theorem laneFault_keeps {s0 : State} (s : State) (n : Nat) (m : Mover) (bad : List Nat) (hk : Keeps s0 s) :
    Keeps s0 (laneFault s n m bad) := by
  unfold laneFault
  repeat with_reducible first
    | assumption | apply occur_keeps | apply noteParity_keeps | apply movFault_keeps | apply foldl_keeps
    | apply foldl_keeps_fst | (simp only [keeps_mk]; exact Keeps.parts ‹_›) | (simp only [keeps_mk]; refine Keeps.parts ?_)
    | split | dsimp only | intro

theorem writeBurst_keeps {s0 : State} (s : State) (n : Nat) (m : Mover) (j : BurstJob) (hk : Keeps s0 s) :
    Keeps s0 (writeBurst s n m j) := by
  unfold writeBurst
  repeat with_reducible first
    | assumption | apply putBurst_keeps | apply laneFault_keeps | (simp only [keeps_mk]; exact Keeps.parts ‹_›)
    | (simp only [keeps_mk]; refine Keeps.parts ?_) | split | dsimp only | intro

theorem grantedBurst_keeps {s0 : State} (s : State) (writePort : Bool) (g : Nat) (hk : Keeps s0 s) :
    Keeps s0 (grantedBurst s writePort g) := by
  unfold grantedBurst
  repeat with_reducible first
    | assumption | apply exportBurst_keeps | apply readBurst_keeps | apply writeBurst_keeps
    | (simp only [keeps_mk]; exact Keeps.parts ‹_›) | (simp only [keeps_mk]; refine Keeps.parts ?_) | split | dsimp only
    | intro

theorem runSet_keeps {s0 : State} (s : State) (n : Nat) (m : Mover) (hk : Keeps s0 s) : Keeps s0 (runSet s n m) := by
  have h : ∀ m0 : Mover, KeepsDone s0 (if setFlag m 0 then doFill s n m0 m.active.dst (fld m.active.len 23 0) m.active.pat
      else doMove s n m0 (setJob m)) := by
    intro m0
    split
    · exact doFill_keeps _ _ _ _ _ _ hk
    · exact doMove_keeps _ _ _ _ hk
  unfold runSet
  dsimp only
  split
  · exact movFault_keeps _ _ _ _ _ hk
  · split
    · exact setMov_keeps _ _ _ (violate_keeps _ _ _ _ hk)
    · have h0 := h (if setFlag m 5 then { m with crc := 0xFFFFFFFF } else m)
      split <;> rename_i e <;> rw [e] at h0
      · exact movFault_keeps _ _ _ _ _ h0
      · exact setMov_keeps _ _ _ h0
      · exact setMov_keeps _ _ _ h0

theorem setRow_keeps {s0 : State} (s : State) (n : Nat) (m : Mover) (fill : Bool) (hk : Keeps s0 s) :
    Keeps s0 (setRow s n m fill) := by
  unfold setRow
  repeat with_reducible first
    | assumption | apply runSet_keeps | (simp only [keeps_mk]; exact Keeps.parts ‹_›)
    | (simp only [keeps_mk]; refine Keeps.parts ?_) | split | dsimp only | intro

theorem endSet_keeps {s0 : State} (s : State) (n : Nat) (m : Mover) (hk : Keeps s0 s) :
    Keeps s0 (endSet s n m) := by
  unfold endSet
  repeat with_reducible first
    | assumption | apply setMov_keeps | apply movEvent_keeps | (simp only [keeps_mk]; exact Keeps.parts ‹_›)
    | (simp only [keeps_mk]; refine Keeps.parts ?_) | split | dsimp only | intro

theorem fetchWords_bad {s0 t : State} (s : State) (n : Nat) (m : Mover) (k : Nat) (hk : Keeps s0 s) (e : fetchWords s n m k = .bad t) :
    Keeps s0 t := by
  unfold fetchWords at e
  split at e
  · cases e; exact violate_keeps _ _ _ _ hk
  · dsimp only at e; split at e <;> cases e

theorem fetchWords_parity {s0 t : State} {a : Nat} (s : State) (n : Nat) (m : Mover) (k : Nat) (hk : Keeps s0 s)
    (e : fetchWords s n m k = .parity t a) : Keeps s0 t := by
  unfold fetchWords at e
  split at e
  · cases e
  · dsimp only at e
    split at e
    · cases e
    · cases e; exact noteFailing_keeps _ _ _ hk

theorem fetchInstr_bad {s0 t : State} (s : State) (n : Nat) (m : Mover) (hk : Keeps s0 s) (e : fetchInstr s n m = .bad t) :
    Keeps s0 t := by
  unfold fetchInstr at e
  split at e
  · cases e; exact hk
  · split at e
    · split at e
      · cases e
      · exact fetchWords_bad _ _ _ _ hk e
    · exact fetchWords_bad _ _ _ _ hk e

theorem fetchInstr_parity {s0 t : State} {a : Nat} (s : State) (n : Nat) (m : Mover) (hk : Keeps s0 s)
    (e : fetchInstr s n m = .parity t a) : Keeps s0 t := by
  unfold fetchInstr at e
  split at e
  · cases e
  · split at e
    · split at e
      · cases e
      · exact fetchWords_parity _ _ _ _ hk e
    · exact fetchWords_parity _ _ _ _ hk e

theorem instrRow_keeps {s0 : State} (s : State) (n op : Nat) (m : Mover) (go : State → Mover → List W64 → State)
    (h_go : ∀ (m : Mover) (l : List W64), Keeps s0 (go s m l)) (hk : Keeps s0 s) : Keeps s0 (instrRow s n op m go) := by
  unfold instrRow
  split
  · exact hk
  · split <;> rename_i e
    · exact movFault_keeps _ _ _ _ _ (fetchInstr_bad _ _ _ hk e)
    · exact movFault_keeps _ _ _ _ _ (fetchInstr_parity _ _ _ hk e)
    · split
      · exact h_go _ _
      · split
        · exact hk
        · exact movFault_keeps _ _ _ _ _ hk

theorem finishInstr_keeps {s0 : State} (n : Nat) (eoc : Bool) (d : Done) (hk : KeepsDone s0 d) : Keeps s0 (finishInstr n eoc d) := by
  cases d
  · exact stepOn_keeps _ _ _ _ hk
  · exact movFault_keeps _ _ _ _ _ hk
  · exact setMov_keeps _ _ _ hk

theorem instrMove_keeps {s0 : State} (s : State) (n : Nat) (m : Mover) (ws : List W64) (hk : Keeps s0 s) :
    Keeps s0 (instrMove s n m ws) := by
  unfold instrMove
  repeat with_reducible first
    | assumption | apply movFault_keeps | apply finishInstr_keeps | apply doMove_keeps
    | (simp only [keeps_mk]; exact Keeps.parts ‹_›) | (simp only [keeps_mk]; refine Keeps.parts ?_) | split | dsimp only
    | intro

theorem instrFill_keeps {s0 : State} (s : State) (n : Nat) (m : Mover) (ws : List W64) (hk : Keeps s0 s) :
    Keeps s0 (instrFill s n m ws) := by
  unfold instrFill
  repeat with_reducible first
    | assumption | apply movFault_keeps | apply finishInstr_keeps | apply doFill_keeps
    | (simp only [keeps_mk]; exact Keeps.parts ‹_›) | (simp only [keeps_mk]; refine Keeps.parts ?_) | split | dsimp only
    | intro

theorem instrCrc_keeps {s0 : State} (s : State) (n : Nat) (m : Mover) (ws : List W64) (hk : Keeps s0 s) :
    Keeps s0 (instrCrc s n m ws) := by
  unfold instrCrc
  repeat with_reducible first
    | assumption | apply movFault_keeps | apply finishInstr_keeps | apply denyMov_keeps | apply stepOn_keeps
    | apply storeCrc_keeps | (simp only [keeps_mk]; exact Keeps.parts ‹_›) | (simp only [keeps_mk]; refine Keeps.parts ?_)
    | split | dsimp only | intro

theorem instrLoop_keeps {s0 : State} (s : State) (n : Nat) (m : Mover) (ws : List W64) (hk : Keeps s0 s) :
    Keeps s0 (instrLoop s n m ws) := by
  unfold instrLoop
  repeat with_reducible first
    | assumption | apply movFault_keeps | apply endInstr_keeps | (simp only [keeps_mk]; exact Keeps.parts ‹_›)
    | (simp only [keeps_mk]; refine Keeps.parts ?_) | split | dsimp only | intro

theorem instrLink_keeps {s0 : State} (s : State) (n : Nat) (m : Mover) (ws : List W64) (hk : Keeps s0 s) :
    Keeps s0 (instrLink s n m ws) := by
  unfold instrLink
  repeat with_reducible first
    | assumption | apply setMov_keeps | apply movEvent_keeps | apply movFault_keeps | apply endInstr_keeps
    | (simp only [keeps_mk]; exact Keeps.parts ‹_›) | (simp only [keeps_mk]; refine Keeps.parts ?_) | split | dsimp only
    | intro

theorem instrEnd_keeps {s0 : State} (s : State) (n : Nat) (m : Mover) (ws : List W64) (hk : Keeps s0 s) :
    Keeps s0 (instrEnd s n m ws) := by
  unfold instrEnd
  repeat with_reducible first
    | assumption | apply setMov_keeps | apply movEvent_keeps | apply movFault_keeps
    | (simp only [keeps_mk]; exact Keeps.parts ‹_›) | (simp only [keeps_mk]; refine Keeps.parts ?_) | split | dsimp only
    | intro

/-- `Keeps` for what a test of a WAIT gives. -/
def KeepsTested (s0 : State) : Tested → Prop
  | .holds t _ => Keeps s0 t
  | .waits _ => True
  | .faulted t _ _ _ => Keeps s0 t

theorem keepsTested_holds {s0 t : State} {m : Mover} (h : Keeps s0 t) : KeepsTested s0 (.holds t m) := h
theorem keepsTested_waits {s0 : State} {m : Mover} : KeepsTested s0 (.waits m) := trivial
theorem keepsTested_faulted {s0 t : State} {m : Mover} {c a : Nat} (h : Keeps s0 t) : KeepsTested s0 (.faulted t m c a) := h

theorem testWait_keeps {s0 : State} (s : State) (n : Nat) (m : Mover) (kind : Nat) (w : W64) (hk : Keeps s0 s) :
    KeepsTested s0 (testWait s n m kind w) := by
  unfold testWait
  repeat with_reducible first
    | assumption | apply violate_keeps | apply noteFailing_keeps | apply keepsTested_holds | apply keepsTested_waits
    | apply keepsTested_faulted | (simp only [keeps_mk]; exact Keeps.parts ‹_›)
    | (simp only [keeps_mk]; refine Keeps.parts ?_) | split | dsimp only | intro

theorem afterTest_keeps {s0 : State} (s : State) (n : Nat) (eoc : Bool) (d : Tested) (hk : Keeps s0 s) (hd : KeepsTested s0 d) :
    Keeps s0 (afterTest s n eoc d) := by
  cases d
  · exact stepOn_keeps _ _ _ _ hd
  · exact setMov_keeps _ _ _ hk
  · exact movFault_keeps _ _ _ _ _ hd

theorem instrWait_keeps {s0 : State} (s : State) (n : Nat) (m : Mover) (ws : List W64) (hk : Keeps s0 s) :
    Keeps s0 (instrWait s n m ws) := by
  unfold instrWait
  repeat with_reducible first
    | assumption | apply movFault_keeps | apply afterTest_keeps | apply testWait_keeps
    | (simp only [keeps_mk]; exact Keeps.parts ‹_›) | (simp only [keeps_mk]; refine Keeps.parts ?_) | split | dsimp only
    | intro

theorem retestWait_keeps {s0 : State} (s : State) (n : Nat) (m : Mover) (hk : Keeps s0 s) : Keeps s0 (retestWait s n m) :=
  afterTest_keeps _ _ _ _ hk (testWait_keeps _ _ _ _ _ hk)

theorem signalOn_keeps {s0 : State} (s : State) (n : Nat) (m : Mover) (ring : Nat) (eoc : Bool) (hk : Keeps s0 s) :
    Keeps s0 (signalOn s n m ring eoc) := by
  unfold signalOn
  repeat with_reducible first
    | assumption | apply checkedDoorbell_keeps | apply stepOn_keeps | (simp only [keeps_mk]; exact Keeps.parts ‹_›)
    | (simp only [keeps_mk]; refine Keeps.parts ?_) | split | dsimp only | intro

theorem instrSignal_keeps {s0 : State} (s : State) (n : Nat) (m : Mover) (ws : List W64) (hk : Keeps s0 s) :
    Keeps s0 (instrSignal s n m ws) := by
  unfold instrSignal
  repeat with_reducible first
    | assumption | apply movFault_keeps | apply finishInstr_keeps | apply denyMov_keeps | apply signalOn_keeps
    | apply memWrite_keeps | apply noteFailing_keeps | (simp only [keeps_mk]; exact Keeps.parts ‹_›)
    | (simp only [keeps_mk]; refine Keeps.parts ?_) | split | dsimp only | intro

theorem movRow_keeps {s0 : State} (s : State) (n : BitVec 4) (go : Nat → Mover → State) (h_go : ∀ (x0 : Nat) (x1 : Mover), Keeps s0 (go x0 x1)) (hk : Keeps s0 s) :
    Keeps s0 (movRow s n go) := by
  unfold movRow
  repeat with_reducible first
    | assumption | apply h_go | (simp only [keeps_mk]; exact Keeps.parts ‹_›) | (simp only [keeps_mk]; refine Keeps.parts ?_)
    | split | dsimp only | intro

theorem writeMovCmd_keeps {s0 : State} (s : State) (n : Nat) (v : W64) (hk : Keeps s0 s) :
    Keeps s0 (writeMovCmd s n v) := by
  unfold writeMovCmd
  repeat with_reducible first
    | assumption | apply setMov_keeps | (simp only [keeps_mk]; exact Keeps.parts ‹_›)
    | (simp only [keeps_mk]; refine Keeps.parts ?_) | split | dsimp only | intro

theorem writeMovPoke_keeps {s0 : State} (s : State) (n : Nat) (hk : Keeps s0 s) : Keeps s0 (writeMovPoke s n) := by
  unfold writeMovPoke
  split
  · exact hk
  · split
    · split <;> rename_i e
      · exact movFault_keeps _ _ _ _ _ (fetchWords_bad _ _ _ _ hk e)
      · exact movFault_keeps _ _ _ _ _ (fetchWords_parity _ _ _ _ hk e)
      · split
        · exact instrLink_keeps _ _ _ _ hk
        · exact setMov_keeps _ _ _ hk
    · split
      · exact retestWait_keeps _ _ _ hk
      · exact hk

theorem moverFrame_keeps {s0 : State} (s : State) (hk : Keeps s0 s) :
    Keeps s0 (moverFrame s) := by
  unfold moverFrame
  repeat with_reducible first
    | assumption | (simp only [keeps_mk]; exact Keeps.parts ‹_›) | (simp only [keeps_mk]; refine Keeps.parts ?_) | split
    | dsimp only | intro

theorem writeMovReg_keeps {s0 : State} (s : State) (n o : Nat) (v : W64) (hk : Keeps s0 s) :
    Keeps s0 (writeMovReg s n o v) := by
  unfold writeMovReg
  repeat with_reducible first
    | assumption | apply setMov_keeps | apply idle_keeps | (simp only [keeps_mk]; exact Keeps.parts ‹_›)
    | (simp only [keeps_mk]; refine Keeps.parts ?_) | split | dsimp only | intro

theorem notify_keeps {s0 : State} (s : State) (e : JobEnv) (r : JobRun) (w : W64) (hk : Keeps s0 s) :
    Keeps s0 (notify s e r w) := by
  unfold notify
  repeat with_reducible first
    | assumption | apply arrayStarted_keeps | apply badStatus_keeps | apply statusArrives_keeps
    | (simp only [keeps_mk]; exact Keeps.parts ‹_›) | (simp only [keeps_mk]; refine Keeps.parts ?_) | split | dsimp only
    | intro

theorem emitNano_keeps {s0 : State} (s : State) (e : JobEnv) (r : JobRun) (x : BusSample) (n cyc : Nat) (hk : Keeps s0 s) :
    Keeps s0 (emitNano s e r x n cyc).1 := by
  unfold emitNano
  repeat with_reducible first
    | assumption | apply emit_keeps | apply notify_keeps | (simp only [keeps_mk]; exact Keeps.parts ‹_›)
    | (simp only [keeps_mk]; refine Keeps.parts ?_) | split | dsimp only | intro
theorem emitNano_keeps_of {s0 tt : State} {xx : JobRun} (s : State) (e : JobEnv) (r : JobRun) (x : BusSample) (n cyc : Nat) (hE : (emitNano s e r x n cyc) = (tt, xx)) (hk : Keeps s0 s) :
    Keeps s0 tt := by
  have hK := emitNano_keeps (s0 := s0) (s := s) (e := e) (r := r) (x := x) (n := n) (cyc := cyc)
  rw [hE] at hK; exact hK hk

theorem stepTwoLevel_keeps {s0 : State} (s : State) (e : JobEnv) (r : JobRun) (x : BusSample) (hk : Keeps s0 s) :
    Keeps s0 (stepTwoLevel s e r x).1 := by
  unfold stepTwoLevel
  repeat with_reducible first
    | assumption | apply emitNano_keeps | refine emitNano_keeps_of ‹_› ?_ | (simp only [keeps_mk]; exact Keeps.parts ‹_›)
    | (simp only [keeps_mk]; refine Keeps.parts ?_) | split | dsimp only | intro
theorem stepTwoLevel_keeps_of {s0 tt : State} {xx : JobRun} (s : State) (e : JobEnv) (r : JobRun) (x : BusSample) (hE : (stepTwoLevel s e r x) = (tt, xx)) (hk : Keeps s0 s) :
    Keeps s0 tt := by
  have hK := stepTwoLevel_keeps (s0 := s0) (s := s) (e := e) (r := r) (x := x)
  rw [hE] at hK; exact hK hk

theorem stepVertical_keeps {s0 : State} (s : State) (e : JobEnv) (r : JobRun) (x : BusSample) (hk : Keeps s0 s) :
    Keeps s0 (stepVertical s e r x).1 := by
  unfold stepVertical
  repeat with_reducible first
    | assumption | apply emit_keeps | apply emitNano_keeps | refine emitNano_keeps_of ‹_› ?_
    | (simp only [keeps_mk]; exact Keeps.parts ‹_›) | (simp only [keeps_mk]; refine Keeps.parts ?_) | split | dsimp only
    | intro
theorem stepVertical_keeps_of {s0 tt : State} {xx : JobRun} (s : State) (e : JobEnv) (r : JobRun) (x : BusSample) (hE : (stepVertical s e r x) = (tt, xx)) (hk : Keeps s0 s) :
    Keeps s0 tt := by
  have hK := stepVertical_keeps (s0 := s0) (s := s) (e := e) (r := r) (x := x)
  rw [hE] at hK; exact hK hk

theorem runJob_keeps {s0 : State} (s : State) (e : JobEnv) (r : JobRun) (l : List BusSample) (hk : Keeps s0 s) :
    Keeps s0 (runJob s e r l).1 := by
  induction l generalizing s r with
  | nil => exact hk
  | cons x t ih =>
    have h2 : Keeps s0 (if vertical s then stepVertical s e r x else stepTwoLevel s e r x).1 := by
      split
      · exact stepVertical_keeps _ _ _ _ hk
      · exact stepTwoLevel_keeps _ _ _ _ hk
    simp only [runJob]
    generalize (if vertical s then stepVertical s e r x else stepTwoLevel s e r x) = y at h2
    split
    · exact h2
    · split
      · exact h2
      · exact ih _ _ h2
theorem runJob_keeps_of {s0 tt : State} {xx : JobRun} (s : State) (e : JobEnv) (r : JobRun) (y0 : List BusSample) (hE : (runJob s e r y0) = (tt, xx)) (hk : Keeps s0 s) :
    Keeps s0 tt := by
  have hK := runJob_keeps (s0 := s0) s e r y0
  rw [hE] at hK; exact hK hk

theorem setSeq_keeps {s0 : State} (s : State) (n : Nat) (q : SeqSt) (hk : Keeps s0 s) :
    Keeps s0 (setSeq s n q) := by
  unfold setSeq
  repeat with_reducible first
    | assumption | (simp only [keeps_mk]; exact Keeps.parts ‹_›) | (simp only [keeps_mk]; refine Keeps.parts ?_) | split
    | dsimp only | intro

theorem seqCheck_keeps {s0 : State} (s : State) (n cause addr : Nat) (hk : Keeps s0 s) :
    Keeps s0 (seqCheck s n cause addr) := by
  unfold seqCheck
  repeat with_reducible first
    | assumption | apply machineCheck_keeps | apply setSeq_keeps | (simp only [keeps_mk]; exact Keeps.parts ‹_›)
    | (simp only [keeps_mk]; refine Keeps.parts ?_) | split | dsimp only | intro

theorem dispatchJob_keeps {s0 : State} (s : State) (n : Nat) (job : BitVec 4) (lun : BitVec 5) (latch : List Byte) (bus : List BusSample) (hk : Keeps s0 s) :
    Keeps s0 (dispatchJob s n job lun latch bus) := by
  unfold dispatchJob
  repeat with_reducible first
    | assumption | apply runJob_keeps | refine runJob_keeps_of ‹_› ?_ | apply setSeq_keeps | apply seqCheck_keeps
    | (simp only [keeps_mk]; exact Keeps.parts ‹_›) | (simp only [keeps_mk]; refine Keeps.parts ?_) | split | dsimp only
    | intro

theorem lockstepCheck_keeps {s0 : State} (s : State) (n : Nat) (hk : Keeps s0 s) :
    Keeps s0 (lockstepCheck s n) := by
  unfold lockstepCheck
  repeat with_reducible first
    | assumption | apply occur_keeps | apply machineCheck_keeps | (simp only [keeps_mk]; exact Keeps.parts ‹_›)
    | (simp only [keeps_mk]; refine Keeps.parts ?_) | split | dsimp only | intro

theorem clearFuseStage_keeps {s0 : State} (s : State) (hk : Keeps s0 s) :
    Keeps s0 (clearFuseStage s) := by
  unfold clearFuseStage
  repeat with_reducible first
    | assumption | apply regSet_keeps | apply foldl_keeps | apply foldl_keeps_fst
    | (simp only [keeps_mk]; exact Keeps.parts ‹_›) | (simp only [keeps_mk]; refine Keeps.parts ?_) | split | dsimp only
    | intro

theorem fuseResult_keeps {s0 : State} (s : State) (field result : Nat) (hk : Keeps s0 s) :
    Keeps s0 (fuseResult s field result) := by
  unfold fuseResult
  repeat with_reducible first
    | assumption | apply regSet_keeps | (simp only [keeps_mk]; exact Keeps.parts ‹_›)
    | (simp only [keeps_mk]; refine Keeps.parts ?_) | split | dsimp only | intro

theorem clearFuseStage_fus (s : State) : (clearFuseStage s).fus = s.fus := rfl

theorem fuseResult_fus (s : State) (f r : Nat) : (fuseResult s f r).fus = s.fus := rfl

theorem writeFuseCmd_keeps {s0 : State} (s : State) (v : W64) (hk : Keeps s0 s) : Keeps s0 (writeFuseCmd s v) := by
  unfold writeFuseCmd
  split
  · exact hk
  · rename_i hb
    have hn : s.fus.busy = none := by
      cases e : s.fus.busy with
      | none => rfl
      | some x => simp [e] at hb
    have h1 := fuseResult_keeps _ (fld v 3 0) (fuseCondition s (fld v 3 0) (fld v 14 8) (fuseStage s)) (clearFuseStage_keeps s hk)
    dsimp only
    split
    · rename_i hr
      refine ⟨h1.pending, h1.mem, hk.fus.1, fun hb0 => ?_, fun _ => fuseCondition_blank s _ _ _ _ (fld_lt v 3 0) (fld_lt v 14 8) hr⟩
      exact absurd ((congrArg Fus.busy (hk.fus.2.1 hb0)).symm.trans hn) hb0
    · exact occur_keeps _ _ _ _ _ h1

theorem disturbFuse_pending (s : State) : (disturbFuse s).pending = s.pending := by
  unfold disturbFuse; split <;> rfl

theorem disturbFuse_mem (s : State) : (disturbFuse s).mem = s.mem := by
  unfold disturbFuse; split <;> rfl

/-- A fuse command that a reset ends leaves the fuses as they were, or its key field partial (R376). -/
theorem disturbFuse_fus (s : State) :
    (disturbFuse s).fus = s.fus ∧ s.fus.busy = none ∨
      ∃ f v d, s.fus.busy = some (f, v, d) ∧
        ((disturbFuse s).fus = { s.fus with busy := none } ∨
          (disturbFuse s).fus = { burn s.fus f.toNat v.toNat d false with busy := none }) := by
  unfold disturbFuse
  split
  · rename_i e; exact .inl ⟨rfl, e⟩
  · rename_i f v d e
    refine .inr ⟨f, v, d, e, ?_⟩
    dsimp only
    split
    · exact .inr rfl
    · exact .inl rfl

theorem releaseCore_keeps {s0 : State} (s : State) (bootsel : BitVec 2) (process : Byte) (hk : Keeps s0 s) :
    Keeps s0 (releaseCore s bootsel process) := by
  unfold releaseCore
  repeat with_reducible first
    | assumption | apply regSet_keeps | apply foldl_keeps | apply foldl_keeps_fst
    | (simp only [keeps_mk]; exact Keeps.parts ‹_›) | (simp only [keeps_mk]; refine Keeps.parts ?_) | split | dsimp only
    | intro

theorem keptOver_keeps {s0 : State} (s : State) (hk : Keeps s0 s) :
    Keeps s0 (keptOver s) := by
  unfold keptOver
  repeat with_reducible first
    | assumption | (simp only [keeps_mk]; exact Keeps.parts ‹_›) | (simp only [keeps_mk]; refine Keeps.parts ?_) | split
    | dsimp only | intro

theorem closeConn_fus (s : State) (k cause : Nat) : (closeConn s k cause).fus = s.fus := by
  have hr : ∀ u : State, (refreshRest u).fus = u.fus := by
    intro u
    unfold refreshRest
    dsimp only
    split
    · rfl
    · exact (congrArg State.fus (occurAt_onlyNoted _ _ _ _ _ _ _).1 : _)
  unfold closeConn
  split
  · rfl
  · dsimp only
    rw [hr]
    exact (congrArg State.fus (occurAt_onlyNoted _ _ _ _ _ _ _).1 : _)

theorem stopChannel_fus (s : State) (c : Nat) : (stopChannel s c).fus = s.fus := by
  unfold stopChannel
  extract_lets f s1 s2
  have h1 : s1.fus = s.fus := by unfold s1; split <;> rfl
  have h2 : s2.fus = s.fus := h1
  split
  · split
    · exact h2
    · exact h2
  · exact h2

theorem foldl_fus {α : Type} (g : State → α → State) (hg : ∀ u a, (g u a).fus = u.fus) (l : List α) (u : State) :
    (l.foldl g u).fus = u.fus := by
  induction l generalizing u with
  | nil => rfl
  | cons a t ih => exact (ih _).trans (hg _ _)

/-- A system reset ends a fuse command that is in progress and then keeps what R537 keeps, nothing of the fuses else. -/
theorem systemResetCore_spec (s : State) (kind dom : Nat) :
    ∃ u, Keeps s u ∧ u.fus = s.fus ∧ systemResetCore s kind dom = keptOver (disturbFuse u) := by
  unfold systemResetCore
  extract_lets s1 s2 s3
  have h1 : Keeps s s1 := occur_keeps _ _ _ _ _ (.refl s)
  have h2 : Keeps s s2 := foldl_keeps _ _ _ (fun u k h => closeConn_keeps _ _ _ h) h1
  have h3 : Keeps s s3 := foldl_keeps _ _ _ (fun u k h => stopChannel_keeps _ _ h) h2
  have f1 : s1.fus = s.fus := (congrArg State.fus (occurAt_onlyNoted _ _ _ _ _ _ _).1 : _)
  have f2 : s2.fus = s1.fus := foldl_fus _ (fun u k => closeConn_fus _ _ _) _ _
  have f3 : s3.fus = s2.fus := foldl_fus _ stopChannel_fus _ _
  have f4 := f3.trans (f2.trans f1)
  clear f1 f2 f3 h1 h2
  clear_value s3
  refine ⟨_, ?_, ?_, rfl⟩
  · exact keeps_mk.mpr h3.parts
  · exact f4

theorem setLatch_keeps {s0 : State} (s : State) (x : Latch) (hk : Keeps s0 s) :
    Keeps s0 (setLatch s x) := by
  unfold setLatch
  repeat with_reducible first
    | assumption | (simp only [keeps_mk]; exact Keeps.parts ‹_›) | (simp only [keeps_mk]; refine Keeps.parts ?_) | split
    | dsimp only | intro

theorem readReg_keeps {s0 : State} (s : State) (d : Dom) (b o : Nat) (hk : Keeps s0 s) :
    Keeps s0 (readReg s d b o).1 := by
  unfold readReg
  repeat with_reducible first
    | assumption | apply noteRecord_keeps | apply noteWindow_keeps | apply setLatch_keeps
    | (simp only [keeps_mk]; exact Keeps.parts ‹_›) | (simp only [keeps_mk]; refine Keeps.parts ?_) | split | dsimp only
    | intro
theorem readReg_keeps_of {s0 tt : State} {xx : W64} (s : State) (d : Dom) (b o : Nat) (hE : (readReg s d b o) = (tt, xx)) (hk : Keeps s0 s) :
    Keeps s0 tt := by
  have hK := readReg_keeps (s0 := s0) (s := s) (d := d) (b := b) (o := o)
  rw [hE] at hK; exact hK hk

theorem readMany_keeps {s0 : State} (s : State) (d : Dom) (a n : Nat) (hk : Keeps s0 s) : Keeps s0 (readMany s d a n).1 := by
  induction n generalizing s a with
  | zero => exact hk
  | succ n ih => exact ih _ _ (readReg_keeps _ _ _ _ hk)
theorem readMany_keeps_of {s0 tt : State} {xx : List W64} (s : State) (d : Dom) (a : Nat) (y0 : Nat) (hE : (readMany s d a y0) = (tt, xx)) (hk : Keeps s0 s) :
    Keeps s0 tt := by
  have hK := readMany_keeps (s0 := s0) s d a y0
  rw [hE] at hK; exact hK hk

theorem readRegs_keeps {s0 : State} (s : State) (d : Dom) (a n : Nat) (og : Origin) (hk : Keeps s0 s) :
    Keeps s0 (readRegs s d a n og).1 := by
  unfold readRegs
  repeat with_reducible first
    | assumption | apply violate_keeps | apply readMany_keeps | refine readMany_keeps_of ‹_› ?_
    | (simp only [keeps_mk]; exact Keeps.parts ‹_›) | (simp only [keeps_mk]; refine Keeps.parts ?_) | split | dsimp only
    | intro
theorem readRegs_keeps_of {s0 tt : State} {xx : List W64} (s : State) (d : Dom) (a n : Nat) (og : Origin) (hE : (readRegs s d a n og) = (tt, xx)) (hk : Keeps s0 s) :
    Keeps s0 tt := by
  have hK := readRegs_keeps (s0 := s0) (s := s) (d := d) (a := a) (n := n) (og := og)
  rw [hE] at hK; exact hK hk

theorem clearEvs_keeps {s0 : State} (s : State) (b : Nat) (v : W64) (keep : W16) (hk : Keeps s0 s) :
    Keeps s0 (clearEvs s b v keep) := by
  unfold clearEvs
  repeat with_reducible first
    | assumption | apply setHdr_keeps | (simp only [keeps_mk]; exact Keeps.parts ‹_›)
    | (simp only [keeps_mk]; refine Keeps.parts ?_) | split | dsimp only | intro

theorem writeHeader_keeps {s0 : State} (s : State) (w : Dom) (b o : Nat) (v : W64) (hk : Keeps s0 s) :
    Keeps s0 (writeHeader s w b o v) := by
  unfold writeHeader
  repeat with_reducible first
    | assumption | apply setHdr_keeps | apply clearEvs_keeps | (simp only [keeps_mk]; exact Keeps.parts ‹_›)
    | (simp only [keeps_mk]; refine Keeps.parts ?_) | split | dsimp only | intro

theorem writeTcfg_keeps {s0 : State} (s : State) (v : W64) (hk : Keeps s0 s) :
    Keeps s0 (writeTcfg s v) := by
  unfold writeTcfg
  repeat with_reducible first
    | assumption | apply regStore_keeps | apply orderRates_keeps | (simp only [keeps_mk]; exact Keeps.parts ‹_›)
    | (simp only [keeps_mk]; refine Keeps.parts ?_) | split | dsimp only | intro

theorem writeKill_keeps {s0 : State} (s : State) (v : W64) (hk : Keeps s0 s) :
    Keeps s0 (writeKill s v) := by
  unfold writeKill
  repeat with_reducible first
    | assumption | apply closeConn_keeps | (simp only [keeps_mk]; exact Keeps.parts ‹_›)
    | (simp only [keeps_mk]; refine Keeps.parts ?_) | split | dsimp only | intro

theorem writeDOM_keeps {s0 : State} (s : State) (o : Nat) (v : W64) (hk : Keeps s0 s) :
    Keeps s0 (writeDOM s o v) := by
  unfold writeDOM
  repeat with_reducible first
    | assumption | apply regStore_keeps | apply refreshRest_keeps | apply writeWindow_keeps
    | (simp only [keeps_mk]; exact Keeps.parts ‹_›) | (simp only [keeps_mk]; refine Keeps.parts ?_) | split | dsimp only
    | intro

theorem writeCLK_keeps {s0 : State} (s : State) (o : Nat) (v : W64) (hk : Keeps s0 s) :
    Keeps s0 (writeCLK s o v) := by
  unfold writeCLK
  repeat with_reducible first
    | assumption | apply regStore_keeps | apply writeForce_keeps | apply writeSource_keeps | apply writeWallT_keeps
    | (simp only [keeps_mk]; exact Keeps.parts ‹_›) | (simp only [keeps_mk]; refine Keeps.parts ?_) | split | dsimp only
    | intro

theorem writePMU_keeps {s0 : State} (s : State) (o : Nat) (v : W64) (hk : Keeps s0 s) :
    Keeps s0 (writePMU s o v) := by
  unfold writePMU
  repeat with_reducible first
    | assumption | apply regStore_keeps | apply refreshRest_keeps | apply writeDeep_keeps
    | (simp only [keeps_mk]; exact Keeps.parts ‹_›) | (simp only [keeps_mk]; refine Keeps.parts ?_) | split | dsimp only
    | intro

theorem writeREC_keeps {s0 : State} (s : State) (o : Nat) (v : W64) (hk : Keeps s0 s) :
    Keeps s0 (writeREC s o v) := by
  unfold writeREC
  repeat with_reducible first
    | assumption | apply regStore_keeps | apply writeFreeze_keeps | apply writeXcmd_keeps | apply writeFlush_keeps
    | (simp only [keeps_mk]; exact Keeps.parts ‹_›) | (simp only [keeps_mk]; refine Keeps.parts ?_) | split | dsimp only
    | intro

theorem writeTAG_keeps {s0 : State} (s : State) (o : Nat) (v : W64) (hk : Keeps s0 s) :
    Keeps s0 (writeTAG s o v) := by
  unfold writeTAG
  repeat with_reducible first
    | assumption | apply regStore_keeps | apply writeTdata_keeps | apply writeTcmd_keeps | apply writeGen_keeps
    | (simp only [keeps_mk]; exact Keeps.parts ‹_›) | (simp only [keeps_mk]; refine Keeps.parts ?_) | split | dsimp only
    | intro

theorem writeSEGAB_keeps {s0 : State} (s : State) (g : Seg) (o : Nat) (v : W64) (hk : Keeps s0 s) :
    Keeps s0 (writeSEGAB s g o v) := by
  unfold writeSEGAB
  repeat with_reducible first
    | assumption | apply regStore_keeps | apply writeMapCtl_keeps | apply writeEvict_keeps
    | (simp only [keeps_mk]; exact Keeps.parts ‹_›) | (simp only [keeps_mk]; refine Keeps.parts ?_) | split | dsimp only
    | intro

theorem writeMOV_keeps {s0 : State} (s : State) (n o : Nat) (v : W64) (hk : Keeps s0 s) :
    Keeps s0 (writeMOV s n o v) := by
  unfold writeMOV
  repeat with_reducible first
    | assumption | apply writeMovCmd_keeps | apply writeMovPoke_keeps | apply writeMovReg_keeps
    | (simp only [keeps_mk]; exact Keeps.parts ‹_›) | (simp only [keeps_mk]; refine Keeps.parts ?_) | split | dsimp only
    | intro

theorem writeWQS_keeps {s0 : State} (s : State) (w : Dom) (o : Nat) (v : W64) (og : Origin) (hk : Keeps s0 s) :
    Keeps s0 (writeWQS s w o v og) := by
  unfold writeWQS
  repeat with_reducible first
    | assumption | apply writeSqClaim_keeps | apply writeSqCfg_keeps | apply writeSqBase_keeps | apply writeSqPtr_keeps
    | apply ringDoorbell_keeps | (simp only [keeps_mk]; exact Keeps.parts ‹_›) | (simp only [keeps_mk]; refine Keeps.parts ?_)
    | split | dsimp only | intro

theorem writeWQC_keeps {s0 : State} (s : State) (w : Dom) (o : Nat) (v : W64) (og : Origin) (hk : Keeps s0 s) :
    Keeps s0 (writeWQC s w o v og) := by
  unfold writeWQC
  repeat with_reducible first
    | assumption | apply writeCqClaim_keeps | apply writeCqCfg_keeps | apply writeCqBase_keeps | apply writePoke_keeps
    | (simp only [keeps_mk]; exact Keeps.parts ‹_›) | (simp only [keeps_mk]; refine Keeps.parts ?_) | split | dsimp only
    | intro

theorem writeXTS_keeps {s0 : State} (s : State) (o : Nat) (v : W64) (og : Origin) (hk : Keeps s0 s) :
    Keeps s0 (writeXTS s o v og) := by
  unfold writeXTS
  repeat with_reducible first
    | assumption | apply regStore_keeps | apply writeSlot_keeps | apply writeKeyCmd_keeps
    | (simp only [keeps_mk]; exact Keeps.parts ‹_›) | (simp only [keeps_mk]; refine Keeps.parts ?_) | split | dsimp only
    | intro

theorem writeBUF_keeps {s0 : State} (s : State) (o : Nat) (v : W64) (hk : Keeps s0 s) :
    Keeps s0 (writeBUF s o v) := by
  unfold writeBUF
  repeat with_reducible first
    | assumption | apply writeRetire_keeps | apply clearScrub_keeps | apply clearPerrmap_keeps
    | (simp only [keeps_mk]; exact Keeps.parts ‹_›) | (simp only [keeps_mk]; refine Keeps.parts ?_) | split | dsimp only
    | intro

theorem writePlain_keeps {s0 : State} (s : State) (b o : Nat) (v : W64) (hk : Keeps s0 s) :
    Keeps s0 (writePlain s b o v) := by
  unfold writePlain
  repeat with_reducible first
    | assumption | apply regStore_keeps | (simp only [keeps_mk]; exact Keeps.parts ‹_›)
    | (simp only [keeps_mk]; refine Keeps.parts ?_) | split | dsimp only | intro

theorem writeSpecific_keeps {s0 : State} (s : State) (w : Dom) (og : Origin) (b o : Nat) (v : W64) (hk : Keeps s0 s) :
    Keeps s0 (writeSpecific s w og b o v) := by
  unfold writeSpecific
  repeat with_reducible first
    | assumption | apply writeRegion_keeps | apply writeExtCmd_keeps | apply writeReservation_keeps | apply writeRst_keeps
    | apply writeBootCmd_keeps | apply writeAssign_keeps | apply writeFuseCmd_keeps | apply writeTcfg_keeps
    | apply writeKill_keeps | apply writeDOM_keeps | apply writeCLK_keeps | apply writePMU_keeps | apply writeREC_keeps
    | apply writeTAG_keeps | apply writeSEGAB_keeps | apply writeMOV_keeps | apply writeWQS_keeps | apply writeWQC_keeps
    | apply writeXTS_keeps | apply writeBUF_keeps | apply writePlain_keeps | (simp only [keeps_mk]; exact Keeps.parts ‹_›)
    | (simp only [keeps_mk]; refine Keeps.parts ?_) | split | dsimp only | intro

theorem writeReg_keeps {s0 : State} (s : State) (w : Dom) (og : Origin) (a : Nat) (v : W64) (hk : Keeps s0 s) :
    Keeps s0 (writeReg s w og a v) := by
  unfold writeReg
  repeat with_reducible first
    | assumption | apply guardedWrite_keeps | apply writeHeader_keeps | apply writeSpecific_keeps
    | (simp only [keeps_mk]; exact Keeps.parts ‹_›) | (simp only [keeps_mk]; refine Keeps.parts ?_) | split | dsimp only
    | intro

theorem hearSequenced_keeps {s0 : State} (s : State) (rx : Rx) (hk : Keeps s0 s) :
    Keeps s0 (hearSequenced s rx) := by
  unfold hearSequenced
  repeat with_reducible first
    | assumption | apply setLink_keeps | (simp only [keeps_mk]; exact Keeps.parts ‹_›)
    | (simp only [keeps_mk]; refine Keeps.parts ?_) | split | dsimp only | intro

theorem acceptIn_keeps {s0 : State} (s : State) (node : BitVec 6) (hk : Keeps s0 s) :
    Keeps s0 (acceptIn s node) := by
  unfold acceptIn
  repeat with_reducible first
    | assumption | apply setLink_keeps | (simp only [keeps_mk]; exact Keeps.parts ‹_›)
    | (simp only [keeps_mk]; refine Keeps.parts ?_) | split | dsimp only | intro

theorem linkLevel_keeps {s0 : State} (s : State) (rx : Rx) (pass : State → State × Bool) (go : State → State) (h_pass : ∀ (x0 : State), Keeps s0 x0 → Keeps s0 (pass x0).1) (h_go : ∀ (x0 : State), Keeps s0 x0 → Keeps s0 (go x0)) (hk : Keeps s0 s) :
    Keeps s0 (linkLevel s rx pass go) := by
  unfold linkLevel
  repeat with_reducible first
    | assumption | apply emit_keeps | apply receive_keeps | refine receive_keeps_of ‹_› ?_ | apply wakeRun_keeps
    | apply hearSequenced_keeps | apply acceptIn_keeps | apply h_pass | apply h_go
    | (simp only [keeps_mk]; exact Keeps.parts ‹_›) | (simp only [keeps_mk]; refine Keeps.parts ?_) | split | dsimp only
    | intro

theorem admitAll_keeps {s0 : State} (s : State) (hk : Keeps s0 s) :
    Keeps s0 (admitAll s).1 := by
  unfold admitAll
  repeat with_reducible first
    | assumption | (simp only [keeps_mk]; exact Keeps.parts ‹_›) | (simp only [keeps_mk]; refine Keeps.parts ?_) | split
    | dsimp only | intro
theorem admitAll_keeps_of {s0 tt : State} {xx : Bool} (s : State) (hE : (admitAll s) = (tt, xx)) (hk : Keeps s0 s) :
    Keeps s0 tt := by
  have hK := admitAll_keeps (s0 := s0) (s := s)
  rw [hE] at hK; exact hK hk

theorem rejectPacket_keeps {s0 : State} (rx : Rx) (p : Packet) (s : State) (hk : Keeps s0 s) :
    Keeps s0 (rejectPacket rx p s) := by
  unfold rejectPacket
  repeat with_reducible first
    | assumption | apply occur_keeps | apply linkLevel_keeps | apply admitAll_keeps | refine admitAll_keeps_of ‹_› ?_
    | (simp only [keeps_mk]; exact Keeps.parts ‹_›) | (simp only [keeps_mk]; refine Keeps.parts ?_) | split | dsimp only
    | intro

theorem wellFormedOnly_keeps {s0 : State} (rx : Rx) (p : Packet) (go : State → State) (s : State) (h_go : ∀ (x0 : State), Keeps s0 x0 → Keeps s0 (go x0)) (hk : Keeps s0 s) :
    Keeps s0 (wellFormedOnly rx p go s) := by
  unfold wellFormedOnly
  repeat with_reducible first
    | assumption | apply rejectPacket_keeps | apply h_go | (simp only [keeps_mk]; exact Keeps.parts ‹_›)
    | (simp only [keeps_mk]; refine Keeps.parts ?_) | split | dsimp only | intro

theorem admitRequest_keeps {s0 : State} (rq : Req) (len : Nat) (s : State) (hk : Keeps s0 s) :
    Keeps s0 (admitRequest rq len s).1 := by
  unfold admitRequest
  repeat with_reducible first
    | assumption | apply occur_keeps | apply noteFailing_keeps | apply useContext_keeps
    | (simp only [keeps_mk]; exact Keeps.parts ‹_›) | (simp only [keeps_mk]; refine Keeps.parts ?_) | split | dsimp only
    | intro
theorem admitRequest_keeps_of {s0 tt : State} {xx : Bool} (rq : Req) (len : Nat) (s : State) (hE : (admitRequest rq len s) = (tt, xx)) (hk : Keeps s0 s) :
    Keeps s0 tt := by
  have hK := admitRequest_keeps (s0 := s0) (rq := rq) (len := len) (s := s)
  rw [hE] at hK; exact hK hk

theorem answerNoConn_keeps {s0 : State} (s : State) (rq : Req) (type : Byte) (hk : Keeps s0 s) :
    Keeps s0 (answerNoConn s rq type) := by
  unfold answerNoConn
  repeat with_reducible first
    | assumption | apply enqueue_keeps | (simp only [keeps_mk]; exact Keeps.parts ‹_›)
    | (simp only [keeps_mk]; refine Keeps.parts ?_) | split | dsimp only | intro

theorem serveRequest_keeps {s0 : State} (rq : Req) (type : Byte) (len : Nat) (run : State → Conn → State × Answered) (s : State) (h_run : ∀ (x0 : State) (x1 : Conn), Keeps s0 x0 → Keeps s0 (run x0 x1).1) (hk : Keeps s0 s) :
    Keeps s0 (serveRequest rq type len run s) := by
  unfold serveRequest
  repeat with_reducible first
    | assumption | apply judgeRequest_keeps | apply linkLevel_keeps | apply admitRequest_keeps
    | refine admitRequest_keeps_of ‹_› ?_ | apply answerNoConn_keeps | apply h_run
    | (simp only [keeps_mk]; exact Keeps.parts ‹_›) | (simp only [keeps_mk]; refine Keeps.parts ?_) | split | dsimp only
    | intro

theorem request_keeps {s0 : State} (rq : Req) (p : Packet) (run : State → Conn → State × Answered) (s : State) (h_run : ∀ (x0 : State) (x1 : Conn), Keeps s0 x0 → Keeps s0 (run x0 x1).1) (hk : Keeps s0 s) :
    Keeps s0 (request rq p run s) := by
  unfold request
  repeat with_reducible first
    | assumption | apply wellFormedOnly_keeps | apply serveRequest_keeps | apply h_run
    | (simp only [keeps_mk]; exact Keeps.parts ‹_›) | (simp only [keeps_mk]; refine Keeps.parts ?_) | split | dsimp only
    | intro

theorem runClose_keeps {s0 : State} (rq : Req) (s : State) (_c : Conn) (hk : Keeps s0 s) :
    Keeps s0 (runClose rq s _c).1 := by
  unfold runClose
  repeat with_reducible first
    | assumption | apply closeConn_keeps | (simp only [keeps_mk]; exact Keeps.parts ‹_›)
    | (simp only [keeps_mk]; refine Keeps.parts ?_) | split | dsimp only | intro

theorem runRegionWrite_keeps {s0 : State} (rq : Req) (key : W32) (off : Nat) (data : List Byte) (s : State) (c : Conn) (hk : Keeps s0 s) :
    Keeps s0 (runRegionWrite rq key off data s c).1 := by
  unfold runRegionWrite
  repeat with_reducible first
    | assumption | apply violate_keeps | apply memWrite_keeps | (simp only [keeps_mk]; exact Keeps.parts ‹_›)
    | (simp only [keeps_mk]; refine Keeps.parts ?_) | split | dsimp only | intro

theorem runRegionRead_keeps {s0 : State} (rq : Req) (key : W32) (off n : Nat) (s : State) (c : Conn) (hk : Keeps s0 s) :
    Keeps s0 (runRegionRead rq key off n s c).1 := by
  unfold runRegionRead
  repeat with_reducible first
    | assumption | apply violate_keeps | apply noteFailing_keeps | (simp only [keeps_mk]; exact Keeps.parts ‹_›)
    | (simp only [keeps_mk]; refine Keeps.parts ?_) | split | dsimp only | intro

theorem runRegWrite_keeps {s0 : State} (rq : Req) (addr : Nat) (v : W64) (s : State) (c : Conn) (hk : Keeps s0 s) :
    Keeps s0 (runRegWrite rq addr v s c).1 := by
  unfold runRegWrite
  repeat with_reducible first
    | assumption | apply writeReg_keeps | (simp only [keeps_mk]; exact Keeps.parts ‹_›)
    | (simp only [keeps_mk]; refine Keeps.parts ?_) | split | dsimp only | intro

theorem runRegRead_keeps {s0 : State} (rq : Req) (addr n : Nat) (s : State) (c : Conn) (hk : Keeps s0 s) :
    Keeps s0 (runRegRead rq addr n s c).1 := by
  unfold runRegRead
  repeat with_reducible first
    | assumption | apply readRegs_keeps | refine readRegs_keeps_of ‹_› ?_ | (simp only [keeps_mk]; exact Keeps.parts ‹_›)
    | (simp only [keeps_mk]; refine Keeps.parts ?_) | split | dsimp only | intro

theorem runDoorbell_keeps {s0 : State} (rq : Req) (n : Nat) (t : W16) (s : State) (c : Conn) (hk : Keeps s0 s) :
    Keeps s0 (runDoorbell rq n t s c).1 := by
  unfold runDoorbell
  repeat with_reducible first
    | assumption | apply checkedDoorbell_keeps | (simp only [keeps_mk]; exact Keeps.parts ‹_›)
    | (simp only [keeps_mk]; refine Keeps.parts ?_) | split | dsimp only | intro

theorem deliver_keeps {s0 : State} (rq : Req) (t : Nat) (tc : Conn) (entry : W64) (rest : List W64) (data : List Byte) (s : State) (hk : Keeps s0 s) :
    Keeps s0 (deliver rq t tc entry rest data s) := by
  unfold deliver
  repeat with_reducible first
    | assumption | apply copyTo_keeps | apply violate_keeps | apply memWrite_keeps
    | (simp only [keeps_mk]; exact Keeps.parts ‹_›) | (simp only [keeps_mk]; refine Keeps.parts ?_) | split | dsimp only
    | intro

theorem runSend_keeps {s0 : State} (rq : Req) (t : Nat) (data : List Byte) (s : State) (c : Conn) (hk : Keeps s0 s) :
    Keeps s0 (runSend rq t data s c).1 := by
  unfold runSend
  repeat with_reducible first
    | assumption | apply violate_keeps | apply deliver_keeps | (simp only [keeps_mk]; exact Keeps.parts ‹_›)
    | (simp only [keeps_mk]; refine Keeps.parts ?_) | split | dsimp only | intro

theorem runPost_keeps {s0 : State} (rq : Req) (es : List W64) (s : State) (c : Conn) (hk : Keeps s0 s) :
    Keeps s0 (runPost rq es s c).1 := by
  unfold runPost
  repeat with_reducible first
    | assumption | apply violate_keeps | (simp only [keeps_mk]; exact Keeps.parts ‹_›)
    | (simp only [keeps_mk]; refine Keeps.parts ?_) | split | dsimp only | intro

theorem endUpSlot_keeps {s0 : State} (s : State) (g : Seg) (k : BitVec 6) (hk : Keeps s0 s) :
    Keeps s0 (endUpSlot s g k) := by
  unfold endUpSlot
  repeat with_reducible first
    | assumption | apply setLink_keeps | (simp only [keeps_mk]; exact Keeps.parts ‹_›)
    | (simp only [keeps_mk]; refine Keeps.parts ?_) | split | dsimp only | intro

theorem sendDown_keeps {s0 : State} (s : State) (g : Seg) (k : BitVec 6) (node : BitVec 6) (hk : Keeps s0 s) :
    Keeps s0 (sendDown s g k node) := by
  unfold sendDown
  repeat with_reducible first
    | assumption | apply sendOne_keeps | apply holdSlot_keeps | (simp only [keeps_mk]; exact Keeps.parts ‹_›)
    | (simp only [keeps_mk]; refine Keeps.parts ?_) | split | dsimp only | intro

theorem requireRange_keeps {s0 : State} (s : State) (node : BitVec 6) (hk : Keeps s0 s) :
    Keeps s0 (requireRange s node) := by
  unfold requireRange
  repeat with_reducible first
    | assumption | apply setSegAB_keeps | (simp only [keeps_mk]; exact Keeps.parts ‹_›)
    | (simp only [keeps_mk]; refine Keeps.parts ?_) | split | dsimp only | intro

theorem endFrameLinks_keeps {s0 : State} (s : State) (hk : Keeps s0 s) :
    Keeps s0 (endFrameLinks s) := by
  unfold endFrameLinks
  repeat with_reducible first
    | assumption | (simp only [keeps_mk]; exact Keeps.parts ‹_›) | (simp only [keeps_mk]; refine Keeps.parts ?_) | split
    | dsimp only | intro

theorem checkHoldover_keeps {s0 : State} (s : State) (hk : Keeps s0 s) :
    Keeps s0 (checkHoldover s) := by
  unfold checkHoldover
  repeat with_reducible first
    | assumption | apply enterHoldover_keeps | (simp only [keeps_mk]; exact Keeps.parts ‹_›)
    | (simp only [keeps_mk]; refine Keeps.parts ?_) | split | dsimp only | intro

theorem sendBeacons_keeps {s0 : State} (s : State) (hk : Keeps s0 s) :
    Keeps s0 (sendBeacons s) := by
  unfold sendBeacons
  repeat with_reducible first
    | assumption | apply sendBeacon_keeps | (simp only [keeps_mk]; exact Keeps.parts ‹_›)
    | (simp only [keeps_mk]; refine Keeps.parts ?_) | split | dsimp only | intro

theorem endFrame_keeps {s0 : State} (s : State) (cki : Option Int) (hk : Keeps s0 s) :
    Keeps s0 (endFrame s cki) := by
  unfold endFrame
  repeat with_reducible first
    | assumption | apply endFrameAB_keeps | apply endFrameClock_keeps | (simp only [keeps_mk]; exact Keeps.parts ‹_›)
    | (simp only [keeps_mk]; refine Keeps.parts ?_) | split | dsimp only | intro

theorem countFrames_keeps {s0 : State} (s : State) (hk : Keeps s0 s) :
    Keeps s0 (countFrames s) := by
  unfold countFrames
  repeat with_reducible first
    | assumption | apply harmlessFrame_keeps | apply moverFrame_keeps | apply endFrameLinks_keeps
    | (simp only [keeps_mk]; exact Keeps.parts ‹_›) | (simp only [keeps_mk]; refine Keeps.parts ?_) | split | dsimp only
    | intro

theorem frameBoundary_keeps {s0 : State} (s : State) (cki : Option Int) (hk : Keeps s0 s) :
    Keeps s0 (frameBoundary s cki) := by
  unfold frameBoundary
  repeat with_reducible first
    | assumption | apply advanceFrame_keeps | apply autoMirror_keeps | apply checkHoldover_keeps | apply sendBeacons_keeps
    | apply endFrame_keeps | apply countFrames_keeps | (simp only [keeps_mk]; exact Keeps.parts ‹_›)
    | (simp only [keeps_mk]; refine Keeps.parts ?_) | split | dsimp only | intro

theorem idle_keeps {s0 : State} (s : State) (hk : Keeps s0 s) :
    Keeps s0 (idle s) := by
  unfold idle
  repeat with_reducible first
    | assumption | (simp only [keeps_mk]; exact Keeps.parts ‹_›) | (simp only [keeps_mk]; refine Keeps.parts ?_) | split
    | dsimp only | intro

end Sys2Proof.Machine
end

