-- ==== Sys2Proof/Laws/State.lean ====
section
/-! SUPPORT. Every named update of State, field by field: what it leaves as it was, and the read-back of what it sets. -/

namespace Sys2Proof.Machine

set_option Elab.async false

/-! ### emit -/

@[simp] theorem emit_pending (s : State) (x : Output) : (emit s x).pending = s.pending := rfl
@[simp] theorem emit_phase (s : State) (x : Output) : (emit s x).phase = s.phase := rfl
@[simp] theorem emit_now (s : State) (x : Output) : (emit s x).now = s.now := rfl
@[simp] theorem emit_frames (s : State) (x : Output) : (emit s x).frames = s.frames := rfl
@[simp] theorem emit_regs (s : State) (x : Output) : (emit s x).regs = s.regs := rfl
@[simp] theorem emit_hdrs (s : State) (x : Output) : (emit s x).hdrs = s.hdrs := rfl
@[simp] theorem emit_latches (s : State) (x : Output) : (emit s x).latches = s.latches := rfl
@[simp] theorem emit_clk (s : State) (x : Output) : (emit s x).clk = s.clk := rfl
@[simp] theorem emit_segA (s : State) (x : Output) : (emit s x).segA = s.segA := rfl
@[simp] theorem emit_segB (s : State) (x : Output) : (emit s x).segB = s.segB := rfl
@[simp] theorem emit_segC (s : State) (x : Output) : (emit s x).segC = s.segC := rfl
@[simp] theorem emit_links (s : State) (x : Output) : (emit s x).links = s.links := rfl
@[simp] theorem emit_linkDup (s : State) (x : Output) : (emit s x).linkDup = s.linkDup := rfl
@[simp] theorem emit_linkAhead (s : State) (x : Output) : (emit s x).linkAhead = s.linkAhead := rfl
@[simp] theorem emit_linkReject (s : State) (x : Output) : (emit s x).linkReject = s.linkReject := rfl
@[simp] theorem emit_evDrop (s : State) (x : Output) : (emit s x).evDrop = s.evDrop := rfl
@[simp] theorem emit_conns (s : State) (x : Output) : (emit s x).conns = s.conns := rfl
@[simp] theorem emit_cache (s : State) (x : Output) : (emit s x).cache = s.cache := rfl
@[simp] theorem emit_loads (s : State) (x : Output) : (emit s x).loads = s.loads := rfl
@[simp] theorem emit_spills (s : State) (x : Output) : (emit s x).spills = s.spills := rfl
@[simp] theorem emit_epochs (s : State) (x : Output) : (emit s x).epochs = s.epochs := rfl
@[simp] theorem emit_regions (s : State) (x : Output) : (emit s x).regions = s.regions := rfl
@[simp] theorem emit_tags (s : State) (x : Output) : (emit s x).tags = s.tags := rfl
@[simp] theorem emit_freeCtr (s : State) (x : Output) : (emit s x).freeCtr = s.freeCtr := rfl
@[simp] theorem emit_powers (s : State) (x : Output) : (emit s x).powers = s.powers := rfl
@[simp] theorem emit_extents (s : State) (x : Output) : (emit s x).extents = s.extents := rfl
@[simp] theorem emit_sqs (s : State) (x : Output) : (emit s x).sqs = s.sqs := rfl
@[simp] theorem emit_cqs (s : State) (x : Output) : (emit s x).cqs = s.cqs := rfl
@[simp] theorem emit_entries (s : State) (x : Output) : (emit s x).entries = s.entries := rfl
@[simp] theorem emit_fetchLast (s : State) (x : Output) : (emit s x).fetchLast = s.fetchLast := rfl
@[simp] theorem emit_shares (s : State) (x : Output) : (emit s x).shares = s.shares := rfl
@[simp] theorem emit_charges (s : State) (x : Output) : (emit s x).charges = s.charges := rfl
@[simp] theorem emit_policies (s : State) (x : Output) : (emit s x).policies = s.policies := rfl
@[simp] theorem emit_wstart (s : State) (x : Output) : (emit s x).wstart = s.wstart := rfl
@[simp] theorem emit_susCnt (s : State) (x : Output) : (emit s x).susCnt = s.susCnt := rfl
@[simp] theorem emit_guarCnt (s : State) (x : Output) : (emit s x).guarCnt = s.guarCnt := rfl
@[simp] theorem emit_lateCnt (s : State) (x : Output) : (emit s x).lateCnt = s.lateCnt := rfl
@[simp] theorem emit_timeoutCnt (s : State) (x : Output) : (emit s x).timeoutCnt = s.timeoutCnt := rfl
@[simp] theorem emit_fchs (s : State) (x : Output) : (emit s x).fchs = s.fchs := rfl
@[simp] theorem emit_seqs (s : State) (x : Output) : (emit s x).seqs = s.seqs := rfl
@[simp] theorem emit_keys (s : State) (x : Output) : (emit s x).keys = s.keys := rfl
@[simp] theorem emit_eccHard (s : State) (x : Output) : (emit s x).eccHard = s.eccHard := rfl
@[simp] theorem emit_eccHfail (s : State) (x : Output) : (emit s x).eccHfail = s.eccHfail := rfl
@[simp] theorem emit_eccSoft (s : State) (x : Output) : (emit s x).eccSoft = s.eccSoft := rfl
@[simp] theorem emit_eccSfail (s : State) (x : Output) : (emit s x).eccSfail = s.eccSfail := rfl
@[simp] theorem emit_beads (s : State) (x : Output) : (emit s x).beads = s.beads := rfl
@[simp] theorem emit_badBeads (s : State) (x : Output) : (emit s x).badBeads = s.badBeads := rfl
@[simp] theorem emit_bands (s : State) (x : Output) : (emit s x).bands = s.bands := rfl
@[simp] theorem emit_abaOwn (s : State) (x : Output) : (emit s x).abaOwn = s.abaOwn := rfl
@[simp] theorem emit_abaHit (s : State) (x : Output) : (emit s x).abaHit = s.abaHit := rfl
@[simp] theorem emit_abaBorrow (s : State) (x : Output) : (emit s x).abaBorrow = s.abaBorrow := rfl
@[simp] theorem emit_abaNominal (s : State) (x : Output) : (emit s x).abaNominal = s.abaNominal := rfl
@[simp] theorem emit_fus (s : State) (x : Output) : (emit s x).fus = s.fus := rfl
@[simp] theorem emit_movers (s : State) (x : Output) : (emit s x).movers = s.movers := rfl
@[simp] theorem emit_readPort (s : State) (x : Output) : (emit s x).readPort = s.readPort := rfl
@[simp] theorem emit_writePort (s : State) (x : Output) : (emit s x).writePort = s.writePort := rfl
@[simp] theorem emit_cwyCnt (s : State) (x : Output) : (emit s x).cwyCnt = s.cwyCnt := rfl
@[simp] theorem emit_cwy (s : State) (x : Output) : (emit s x).cwy = s.cwy := rfl
@[simp] theorem emit_cwyBad (s : State) (x : Output) : (emit s x).cwyBad = s.cwyBad := rfl
@[simp] theorem emit_mem (s : State) (x : Output) : (emit s x).mem = s.mem := rfl
@[simp] theorem emit_badMem (s : State) (x : Output) : (emit s x).badMem = s.badMem := rfl
@[simp] theorem emit_retired (s : State) (x : Output) : (emit s x).retired = s.retired := rfl
@[simp] theorem emit_perr (s : State) (x : Output) : (emit s x).perr = s.perr := rfl
@[simp] theorem emit_lastErr (s : State) (x : Output) : (emit s x).lastErr = s.lastErr := rfl
@[simp] theorem emit_scrubs (s : State) (x : Output) : (emit s x).scrubs = s.scrubs := rfl
@[simp] theorem emit_recorder (s : State) (x : Output) : (emit s x).recorder = s.recorder := rfl
@[simp] theorem emit_tag (s : State) (x : Output) : (emit s x).tag = s.tag := rfl
@[simp] theorem emit_pmu (s : State) (x : Output) : (emit s x).pmu = s.pmu := rfl
@[simp] theorem emit_mon (s : State) (x : Output) : (emit s x).mon = s.mon := rfl
@[simp] theorem emit_glb (s : State) (x : Output) : (emit s x).glb = s.glb := rfl
@[simp] theorem emit_boot (s : State) (x : Output) : (emit s x).boot = s.boot := rfl
@[simp] theorem emit_pins (s : State) (x : Output) : (emit s x).pins = s.pins := rfl

/-! ### regSet -/

@[simp] theorem regSet_pending (s : State) (b o : Nat) (v : W64) : (regSet s b o v).pending = s.pending := rfl
@[simp] theorem regSet_out (s : State) (b o : Nat) (v : W64) : (regSet s b o v).out = s.out := rfl
@[simp] theorem regSet_phase (s : State) (b o : Nat) (v : W64) : (regSet s b o v).phase = s.phase := rfl
@[simp] theorem regSet_now (s : State) (b o : Nat) (v : W64) : (regSet s b o v).now = s.now := rfl
@[simp] theorem regSet_frames (s : State) (b o : Nat) (v : W64) : (regSet s b o v).frames = s.frames := rfl
@[simp] theorem regSet_hdrs (s : State) (b o : Nat) (v : W64) : (regSet s b o v).hdrs = s.hdrs := rfl
@[simp] theorem regSet_latches (s : State) (b o : Nat) (v : W64) : (regSet s b o v).latches = s.latches := rfl
@[simp] theorem regSet_clk (s : State) (b o : Nat) (v : W64) : (regSet s b o v).clk = s.clk := rfl
@[simp] theorem regSet_segA (s : State) (b o : Nat) (v : W64) : (regSet s b o v).segA = s.segA := rfl
@[simp] theorem regSet_segB (s : State) (b o : Nat) (v : W64) : (regSet s b o v).segB = s.segB := rfl
@[simp] theorem regSet_segC (s : State) (b o : Nat) (v : W64) : (regSet s b o v).segC = s.segC := rfl
@[simp] theorem regSet_links (s : State) (b o : Nat) (v : W64) : (regSet s b o v).links = s.links := rfl
@[simp] theorem regSet_linkDup (s : State) (b o : Nat) (v : W64) : (regSet s b o v).linkDup = s.linkDup := rfl
@[simp] theorem regSet_linkAhead (s : State) (b o : Nat) (v : W64) : (regSet s b o v).linkAhead = s.linkAhead := rfl
@[simp] theorem regSet_linkReject (s : State) (b o : Nat) (v : W64) : (regSet s b o v).linkReject = s.linkReject := rfl
@[simp] theorem regSet_evDrop (s : State) (b o : Nat) (v : W64) : (regSet s b o v).evDrop = s.evDrop := rfl
@[simp] theorem regSet_conns (s : State) (b o : Nat) (v : W64) : (regSet s b o v).conns = s.conns := rfl
@[simp] theorem regSet_cache (s : State) (b o : Nat) (v : W64) : (regSet s b o v).cache = s.cache := rfl
@[simp] theorem regSet_loads (s : State) (b o : Nat) (v : W64) : (regSet s b o v).loads = s.loads := rfl
@[simp] theorem regSet_spills (s : State) (b o : Nat) (v : W64) : (regSet s b o v).spills = s.spills := rfl
@[simp] theorem regSet_epochs (s : State) (b o : Nat) (v : W64) : (regSet s b o v).epochs = s.epochs := rfl
@[simp] theorem regSet_regions (s : State) (b o : Nat) (v : W64) : (regSet s b o v).regions = s.regions := rfl
@[simp] theorem regSet_tags (s : State) (b o : Nat) (v : W64) : (regSet s b o v).tags = s.tags := rfl
@[simp] theorem regSet_freeCtr (s : State) (b o : Nat) (v : W64) : (regSet s b o v).freeCtr = s.freeCtr := rfl
@[simp] theorem regSet_powers (s : State) (b o : Nat) (v : W64) : (regSet s b o v).powers = s.powers := rfl
@[simp] theorem regSet_extents (s : State) (b o : Nat) (v : W64) : (regSet s b o v).extents = s.extents := rfl
@[simp] theorem regSet_sqs (s : State) (b o : Nat) (v : W64) : (regSet s b o v).sqs = s.sqs := rfl
@[simp] theorem regSet_cqs (s : State) (b o : Nat) (v : W64) : (regSet s b o v).cqs = s.cqs := rfl
@[simp] theorem regSet_entries (s : State) (b o : Nat) (v : W64) : (regSet s b o v).entries = s.entries := rfl
@[simp] theorem regSet_fetchLast (s : State) (b o : Nat) (v : W64) : (regSet s b o v).fetchLast = s.fetchLast := rfl
@[simp] theorem regSet_shares (s : State) (b o : Nat) (v : W64) : (regSet s b o v).shares = s.shares := rfl
@[simp] theorem regSet_charges (s : State) (b o : Nat) (v : W64) : (regSet s b o v).charges = s.charges := rfl
@[simp] theorem regSet_policies (s : State) (b o : Nat) (v : W64) : (regSet s b o v).policies = s.policies := rfl
@[simp] theorem regSet_wstart (s : State) (b o : Nat) (v : W64) : (regSet s b o v).wstart = s.wstart := rfl
@[simp] theorem regSet_susCnt (s : State) (b o : Nat) (v : W64) : (regSet s b o v).susCnt = s.susCnt := rfl
@[simp] theorem regSet_guarCnt (s : State) (b o : Nat) (v : W64) : (regSet s b o v).guarCnt = s.guarCnt := rfl
@[simp] theorem regSet_lateCnt (s : State) (b o : Nat) (v : W64) : (regSet s b o v).lateCnt = s.lateCnt := rfl
@[simp] theorem regSet_timeoutCnt (s : State) (b o : Nat) (v : W64) : (regSet s b o v).timeoutCnt = s.timeoutCnt := rfl
@[simp] theorem regSet_fchs (s : State) (b o : Nat) (v : W64) : (regSet s b o v).fchs = s.fchs := rfl
@[simp] theorem regSet_seqs (s : State) (b o : Nat) (v : W64) : (regSet s b o v).seqs = s.seqs := rfl
@[simp] theorem regSet_keys (s : State) (b o : Nat) (v : W64) : (regSet s b o v).keys = s.keys := rfl
@[simp] theorem regSet_eccHard (s : State) (b o : Nat) (v : W64) : (regSet s b o v).eccHard = s.eccHard := rfl
@[simp] theorem regSet_eccHfail (s : State) (b o : Nat) (v : W64) : (regSet s b o v).eccHfail = s.eccHfail := rfl
@[simp] theorem regSet_eccSoft (s : State) (b o : Nat) (v : W64) : (regSet s b o v).eccSoft = s.eccSoft := rfl
@[simp] theorem regSet_eccSfail (s : State) (b o : Nat) (v : W64) : (regSet s b o v).eccSfail = s.eccSfail := rfl
@[simp] theorem regSet_beads (s : State) (b o : Nat) (v : W64) : (regSet s b o v).beads = s.beads := rfl
@[simp] theorem regSet_badBeads (s : State) (b o : Nat) (v : W64) : (regSet s b o v).badBeads = s.badBeads := rfl
@[simp] theorem regSet_bands (s : State) (b o : Nat) (v : W64) : (regSet s b o v).bands = s.bands := rfl
@[simp] theorem regSet_abaOwn (s : State) (b o : Nat) (v : W64) : (regSet s b o v).abaOwn = s.abaOwn := rfl
@[simp] theorem regSet_abaHit (s : State) (b o : Nat) (v : W64) : (regSet s b o v).abaHit = s.abaHit := rfl
@[simp] theorem regSet_abaBorrow (s : State) (b o : Nat) (v : W64) : (regSet s b o v).abaBorrow = s.abaBorrow := rfl
@[simp] theorem regSet_abaNominal (s : State) (b o : Nat) (v : W64) : (regSet s b o v).abaNominal = s.abaNominal := rfl
@[simp] theorem regSet_fus (s : State) (b o : Nat) (v : W64) : (regSet s b o v).fus = s.fus := rfl
@[simp] theorem regSet_movers (s : State) (b o : Nat) (v : W64) : (regSet s b o v).movers = s.movers := rfl
@[simp] theorem regSet_readPort (s : State) (b o : Nat) (v : W64) : (regSet s b o v).readPort = s.readPort := rfl
@[simp] theorem regSet_writePort (s : State) (b o : Nat) (v : W64) : (regSet s b o v).writePort = s.writePort := rfl
@[simp] theorem regSet_cwyCnt (s : State) (b o : Nat) (v : W64) : (regSet s b o v).cwyCnt = s.cwyCnt := rfl
@[simp] theorem regSet_cwy (s : State) (b o : Nat) (v : W64) : (regSet s b o v).cwy = s.cwy := rfl
@[simp] theorem regSet_cwyBad (s : State) (b o : Nat) (v : W64) : (regSet s b o v).cwyBad = s.cwyBad := rfl
@[simp] theorem regSet_mem (s : State) (b o : Nat) (v : W64) : (regSet s b o v).mem = s.mem := rfl
@[simp] theorem regSet_badMem (s : State) (b o : Nat) (v : W64) : (regSet s b o v).badMem = s.badMem := rfl
@[simp] theorem regSet_retired (s : State) (b o : Nat) (v : W64) : (regSet s b o v).retired = s.retired := rfl
@[simp] theorem regSet_perr (s : State) (b o : Nat) (v : W64) : (regSet s b o v).perr = s.perr := rfl
@[simp] theorem regSet_lastErr (s : State) (b o : Nat) (v : W64) : (regSet s b o v).lastErr = s.lastErr := rfl
@[simp] theorem regSet_scrubs (s : State) (b o : Nat) (v : W64) : (regSet s b o v).scrubs = s.scrubs := rfl
@[simp] theorem regSet_recorder (s : State) (b o : Nat) (v : W64) : (regSet s b o v).recorder = s.recorder := rfl
@[simp] theorem regSet_tag (s : State) (b o : Nat) (v : W64) : (regSet s b o v).tag = s.tag := rfl
@[simp] theorem regSet_pmu (s : State) (b o : Nat) (v : W64) : (regSet s b o v).pmu = s.pmu := rfl
@[simp] theorem regSet_mon (s : State) (b o : Nat) (v : W64) : (regSet s b o v).mon = s.mon := rfl
@[simp] theorem regSet_glb (s : State) (b o : Nat) (v : W64) : (regSet s b o v).glb = s.glb := rfl
@[simp] theorem regSet_boot (s : State) (b o : Nat) (v : W64) : (regSet s b o v).boot = s.boot := rfl
@[simp] theorem regSet_pins (s : State) (b o : Nat) (v : W64) : (regSet s b o v).pins = s.pins := rfl

/-! ### setHdr -/

@[simp] theorem setHdr_pending (s : State) (b : Nat) (h : Hdr) : (setHdr s b h).pending = s.pending := rfl
@[simp] theorem setHdr_out (s : State) (b : Nat) (h : Hdr) : (setHdr s b h).out = s.out := rfl
@[simp] theorem setHdr_phase (s : State) (b : Nat) (h : Hdr) : (setHdr s b h).phase = s.phase := rfl
@[simp] theorem setHdr_now (s : State) (b : Nat) (h : Hdr) : (setHdr s b h).now = s.now := rfl
@[simp] theorem setHdr_frames (s : State) (b : Nat) (h : Hdr) : (setHdr s b h).frames = s.frames := rfl
@[simp] theorem setHdr_regs (s : State) (b : Nat) (h : Hdr) : (setHdr s b h).regs = s.regs := rfl
@[simp] theorem setHdr_latches (s : State) (b : Nat) (h : Hdr) : (setHdr s b h).latches = s.latches := rfl
@[simp] theorem setHdr_clk (s : State) (b : Nat) (h : Hdr) : (setHdr s b h).clk = s.clk := rfl
@[simp] theorem setHdr_segA (s : State) (b : Nat) (h : Hdr) : (setHdr s b h).segA = s.segA := rfl
@[simp] theorem setHdr_segB (s : State) (b : Nat) (h : Hdr) : (setHdr s b h).segB = s.segB := rfl
@[simp] theorem setHdr_segC (s : State) (b : Nat) (h : Hdr) : (setHdr s b h).segC = s.segC := rfl
@[simp] theorem setHdr_links (s : State) (b : Nat) (h : Hdr) : (setHdr s b h).links = s.links := rfl
@[simp] theorem setHdr_linkDup (s : State) (b : Nat) (h : Hdr) : (setHdr s b h).linkDup = s.linkDup := rfl
@[simp] theorem setHdr_linkAhead (s : State) (b : Nat) (h : Hdr) : (setHdr s b h).linkAhead = s.linkAhead := rfl
@[simp] theorem setHdr_linkReject (s : State) (b : Nat) (h : Hdr) : (setHdr s b h).linkReject = s.linkReject := rfl
@[simp] theorem setHdr_evDrop (s : State) (b : Nat) (h : Hdr) : (setHdr s b h).evDrop = s.evDrop := rfl
@[simp] theorem setHdr_conns (s : State) (b : Nat) (h : Hdr) : (setHdr s b h).conns = s.conns := rfl
@[simp] theorem setHdr_cache (s : State) (b : Nat) (h : Hdr) : (setHdr s b h).cache = s.cache := rfl
@[simp] theorem setHdr_loads (s : State) (b : Nat) (h : Hdr) : (setHdr s b h).loads = s.loads := rfl
@[simp] theorem setHdr_spills (s : State) (b : Nat) (h : Hdr) : (setHdr s b h).spills = s.spills := rfl
@[simp] theorem setHdr_epochs (s : State) (b : Nat) (h : Hdr) : (setHdr s b h).epochs = s.epochs := rfl
@[simp] theorem setHdr_regions (s : State) (b : Nat) (h : Hdr) : (setHdr s b h).regions = s.regions := rfl
@[simp] theorem setHdr_tags (s : State) (b : Nat) (h : Hdr) : (setHdr s b h).tags = s.tags := rfl
@[simp] theorem setHdr_freeCtr (s : State) (b : Nat) (h : Hdr) : (setHdr s b h).freeCtr = s.freeCtr := rfl
@[simp] theorem setHdr_powers (s : State) (b : Nat) (h : Hdr) : (setHdr s b h).powers = s.powers := rfl
@[simp] theorem setHdr_extents (s : State) (b : Nat) (h : Hdr) : (setHdr s b h).extents = s.extents := rfl
@[simp] theorem setHdr_sqs (s : State) (b : Nat) (h : Hdr) : (setHdr s b h).sqs = s.sqs := rfl
@[simp] theorem setHdr_cqs (s : State) (b : Nat) (h : Hdr) : (setHdr s b h).cqs = s.cqs := rfl
@[simp] theorem setHdr_entries (s : State) (b : Nat) (h : Hdr) : (setHdr s b h).entries = s.entries := rfl
@[simp] theorem setHdr_fetchLast (s : State) (b : Nat) (h : Hdr) : (setHdr s b h).fetchLast = s.fetchLast := rfl
@[simp] theorem setHdr_shares (s : State) (b : Nat) (h : Hdr) : (setHdr s b h).shares = s.shares := rfl
@[simp] theorem setHdr_charges (s : State) (b : Nat) (h : Hdr) : (setHdr s b h).charges = s.charges := rfl
@[simp] theorem setHdr_policies (s : State) (b : Nat) (h : Hdr) : (setHdr s b h).policies = s.policies := rfl
@[simp] theorem setHdr_wstart (s : State) (b : Nat) (h : Hdr) : (setHdr s b h).wstart = s.wstart := rfl
@[simp] theorem setHdr_susCnt (s : State) (b : Nat) (h : Hdr) : (setHdr s b h).susCnt = s.susCnt := rfl
@[simp] theorem setHdr_guarCnt (s : State) (b : Nat) (h : Hdr) : (setHdr s b h).guarCnt = s.guarCnt := rfl
@[simp] theorem setHdr_lateCnt (s : State) (b : Nat) (h : Hdr) : (setHdr s b h).lateCnt = s.lateCnt := rfl
@[simp] theorem setHdr_timeoutCnt (s : State) (b : Nat) (h : Hdr) : (setHdr s b h).timeoutCnt = s.timeoutCnt := rfl
@[simp] theorem setHdr_fchs (s : State) (b : Nat) (h : Hdr) : (setHdr s b h).fchs = s.fchs := rfl
@[simp] theorem setHdr_seqs (s : State) (b : Nat) (h : Hdr) : (setHdr s b h).seqs = s.seqs := rfl
@[simp] theorem setHdr_keys (s : State) (b : Nat) (h : Hdr) : (setHdr s b h).keys = s.keys := rfl
@[simp] theorem setHdr_eccHard (s : State) (b : Nat) (h : Hdr) : (setHdr s b h).eccHard = s.eccHard := rfl
@[simp] theorem setHdr_eccHfail (s : State) (b : Nat) (h : Hdr) : (setHdr s b h).eccHfail = s.eccHfail := rfl
@[simp] theorem setHdr_eccSoft (s : State) (b : Nat) (h : Hdr) : (setHdr s b h).eccSoft = s.eccSoft := rfl
@[simp] theorem setHdr_eccSfail (s : State) (b : Nat) (h : Hdr) : (setHdr s b h).eccSfail = s.eccSfail := rfl
@[simp] theorem setHdr_beads (s : State) (b : Nat) (h : Hdr) : (setHdr s b h).beads = s.beads := rfl
@[simp] theorem setHdr_badBeads (s : State) (b : Nat) (h : Hdr) : (setHdr s b h).badBeads = s.badBeads := rfl
@[simp] theorem setHdr_bands (s : State) (b : Nat) (h : Hdr) : (setHdr s b h).bands = s.bands := rfl
@[simp] theorem setHdr_abaOwn (s : State) (b : Nat) (h : Hdr) : (setHdr s b h).abaOwn = s.abaOwn := rfl
@[simp] theorem setHdr_abaHit (s : State) (b : Nat) (h : Hdr) : (setHdr s b h).abaHit = s.abaHit := rfl
@[simp] theorem setHdr_abaBorrow (s : State) (b : Nat) (h : Hdr) : (setHdr s b h).abaBorrow = s.abaBorrow := rfl
@[simp] theorem setHdr_abaNominal (s : State) (b : Nat) (h : Hdr) : (setHdr s b h).abaNominal = s.abaNominal := rfl
@[simp] theorem setHdr_fus (s : State) (b : Nat) (h : Hdr) : (setHdr s b h).fus = s.fus := rfl
@[simp] theorem setHdr_movers (s : State) (b : Nat) (h : Hdr) : (setHdr s b h).movers = s.movers := rfl
@[simp] theorem setHdr_readPort (s : State) (b : Nat) (h : Hdr) : (setHdr s b h).readPort = s.readPort := rfl
@[simp] theorem setHdr_writePort (s : State) (b : Nat) (h : Hdr) : (setHdr s b h).writePort = s.writePort := rfl
@[simp] theorem setHdr_cwyCnt (s : State) (b : Nat) (h : Hdr) : (setHdr s b h).cwyCnt = s.cwyCnt := rfl
@[simp] theorem setHdr_cwy (s : State) (b : Nat) (h : Hdr) : (setHdr s b h).cwy = s.cwy := rfl
@[simp] theorem setHdr_cwyBad (s : State) (b : Nat) (h : Hdr) : (setHdr s b h).cwyBad = s.cwyBad := rfl
@[simp] theorem setHdr_mem (s : State) (b : Nat) (h : Hdr) : (setHdr s b h).mem = s.mem := rfl
@[simp] theorem setHdr_badMem (s : State) (b : Nat) (h : Hdr) : (setHdr s b h).badMem = s.badMem := rfl
@[simp] theorem setHdr_retired (s : State) (b : Nat) (h : Hdr) : (setHdr s b h).retired = s.retired := rfl
@[simp] theorem setHdr_perr (s : State) (b : Nat) (h : Hdr) : (setHdr s b h).perr = s.perr := rfl
@[simp] theorem setHdr_lastErr (s : State) (b : Nat) (h : Hdr) : (setHdr s b h).lastErr = s.lastErr := rfl
@[simp] theorem setHdr_scrubs (s : State) (b : Nat) (h : Hdr) : (setHdr s b h).scrubs = s.scrubs := rfl
@[simp] theorem setHdr_recorder (s : State) (b : Nat) (h : Hdr) : (setHdr s b h).recorder = s.recorder := rfl
@[simp] theorem setHdr_tag (s : State) (b : Nat) (h : Hdr) : (setHdr s b h).tag = s.tag := rfl
@[simp] theorem setHdr_pmu (s : State) (b : Nat) (h : Hdr) : (setHdr s b h).pmu = s.pmu := rfl
@[simp] theorem setHdr_mon (s : State) (b : Nat) (h : Hdr) : (setHdr s b h).mon = s.mon := rfl
@[simp] theorem setHdr_glb (s : State) (b : Nat) (h : Hdr) : (setHdr s b h).glb = s.glb := rfl
@[simp] theorem setHdr_boot (s : State) (b : Nat) (h : Hdr) : (setHdr s b h).boot = s.boot := rfl
@[simp] theorem setHdr_pins (s : State) (b : Nat) (h : Hdr) : (setHdr s b h).pins = s.pins := rfl

/-! ### setLatch -/

@[simp] theorem setLatch_pending (s : State) (x : Latch) : (setLatch s x).pending = s.pending := rfl
@[simp] theorem setLatch_out (s : State) (x : Latch) : (setLatch s x).out = s.out := rfl
@[simp] theorem setLatch_phase (s : State) (x : Latch) : (setLatch s x).phase = s.phase := rfl
@[simp] theorem setLatch_now (s : State) (x : Latch) : (setLatch s x).now = s.now := rfl
@[simp] theorem setLatch_frames (s : State) (x : Latch) : (setLatch s x).frames = s.frames := rfl
@[simp] theorem setLatch_regs (s : State) (x : Latch) : (setLatch s x).regs = s.regs := rfl
@[simp] theorem setLatch_hdrs (s : State) (x : Latch) : (setLatch s x).hdrs = s.hdrs := rfl
@[simp] theorem setLatch_clk (s : State) (x : Latch) : (setLatch s x).clk = s.clk := rfl
@[simp] theorem setLatch_segA (s : State) (x : Latch) : (setLatch s x).segA = s.segA := rfl
@[simp] theorem setLatch_segB (s : State) (x : Latch) : (setLatch s x).segB = s.segB := rfl
@[simp] theorem setLatch_segC (s : State) (x : Latch) : (setLatch s x).segC = s.segC := rfl
@[simp] theorem setLatch_links (s : State) (x : Latch) : (setLatch s x).links = s.links := rfl
@[simp] theorem setLatch_linkDup (s : State) (x : Latch) : (setLatch s x).linkDup = s.linkDup := rfl
@[simp] theorem setLatch_linkAhead (s : State) (x : Latch) : (setLatch s x).linkAhead = s.linkAhead := rfl
@[simp] theorem setLatch_linkReject (s : State) (x : Latch) : (setLatch s x).linkReject = s.linkReject := rfl
@[simp] theorem setLatch_evDrop (s : State) (x : Latch) : (setLatch s x).evDrop = s.evDrop := rfl
@[simp] theorem setLatch_conns (s : State) (x : Latch) : (setLatch s x).conns = s.conns := rfl
@[simp] theorem setLatch_cache (s : State) (x : Latch) : (setLatch s x).cache = s.cache := rfl
@[simp] theorem setLatch_loads (s : State) (x : Latch) : (setLatch s x).loads = s.loads := rfl
@[simp] theorem setLatch_spills (s : State) (x : Latch) : (setLatch s x).spills = s.spills := rfl
@[simp] theorem setLatch_epochs (s : State) (x : Latch) : (setLatch s x).epochs = s.epochs := rfl
@[simp] theorem setLatch_regions (s : State) (x : Latch) : (setLatch s x).regions = s.regions := rfl
@[simp] theorem setLatch_tags (s : State) (x : Latch) : (setLatch s x).tags = s.tags := rfl
@[simp] theorem setLatch_freeCtr (s : State) (x : Latch) : (setLatch s x).freeCtr = s.freeCtr := rfl
@[simp] theorem setLatch_powers (s : State) (x : Latch) : (setLatch s x).powers = s.powers := rfl
@[simp] theorem setLatch_extents (s : State) (x : Latch) : (setLatch s x).extents = s.extents := rfl
@[simp] theorem setLatch_sqs (s : State) (x : Latch) : (setLatch s x).sqs = s.sqs := rfl
@[simp] theorem setLatch_cqs (s : State) (x : Latch) : (setLatch s x).cqs = s.cqs := rfl
@[simp] theorem setLatch_entries (s : State) (x : Latch) : (setLatch s x).entries = s.entries := rfl
@[simp] theorem setLatch_fetchLast (s : State) (x : Latch) : (setLatch s x).fetchLast = s.fetchLast := rfl
@[simp] theorem setLatch_shares (s : State) (x : Latch) : (setLatch s x).shares = s.shares := rfl
@[simp] theorem setLatch_charges (s : State) (x : Latch) : (setLatch s x).charges = s.charges := rfl
@[simp] theorem setLatch_policies (s : State) (x : Latch) : (setLatch s x).policies = s.policies := rfl
@[simp] theorem setLatch_wstart (s : State) (x : Latch) : (setLatch s x).wstart = s.wstart := rfl
@[simp] theorem setLatch_susCnt (s : State) (x : Latch) : (setLatch s x).susCnt = s.susCnt := rfl
@[simp] theorem setLatch_guarCnt (s : State) (x : Latch) : (setLatch s x).guarCnt = s.guarCnt := rfl
@[simp] theorem setLatch_lateCnt (s : State) (x : Latch) : (setLatch s x).lateCnt = s.lateCnt := rfl
@[simp] theorem setLatch_timeoutCnt (s : State) (x : Latch) : (setLatch s x).timeoutCnt = s.timeoutCnt := rfl
@[simp] theorem setLatch_fchs (s : State) (x : Latch) : (setLatch s x).fchs = s.fchs := rfl
@[simp] theorem setLatch_seqs (s : State) (x : Latch) : (setLatch s x).seqs = s.seqs := rfl
@[simp] theorem setLatch_keys (s : State) (x : Latch) : (setLatch s x).keys = s.keys := rfl
@[simp] theorem setLatch_eccHard (s : State) (x : Latch) : (setLatch s x).eccHard = s.eccHard := rfl
@[simp] theorem setLatch_eccHfail (s : State) (x : Latch) : (setLatch s x).eccHfail = s.eccHfail := rfl
@[simp] theorem setLatch_eccSoft (s : State) (x : Latch) : (setLatch s x).eccSoft = s.eccSoft := rfl
@[simp] theorem setLatch_eccSfail (s : State) (x : Latch) : (setLatch s x).eccSfail = s.eccSfail := rfl
@[simp] theorem setLatch_beads (s : State) (x : Latch) : (setLatch s x).beads = s.beads := rfl
@[simp] theorem setLatch_badBeads (s : State) (x : Latch) : (setLatch s x).badBeads = s.badBeads := rfl
@[simp] theorem setLatch_bands (s : State) (x : Latch) : (setLatch s x).bands = s.bands := rfl
@[simp] theorem setLatch_abaOwn (s : State) (x : Latch) : (setLatch s x).abaOwn = s.abaOwn := rfl
@[simp] theorem setLatch_abaHit (s : State) (x : Latch) : (setLatch s x).abaHit = s.abaHit := rfl
@[simp] theorem setLatch_abaBorrow (s : State) (x : Latch) : (setLatch s x).abaBorrow = s.abaBorrow := rfl
@[simp] theorem setLatch_abaNominal (s : State) (x : Latch) : (setLatch s x).abaNominal = s.abaNominal := rfl
@[simp] theorem setLatch_fus (s : State) (x : Latch) : (setLatch s x).fus = s.fus := rfl
@[simp] theorem setLatch_movers (s : State) (x : Latch) : (setLatch s x).movers = s.movers := rfl
@[simp] theorem setLatch_readPort (s : State) (x : Latch) : (setLatch s x).readPort = s.readPort := rfl
@[simp] theorem setLatch_writePort (s : State) (x : Latch) : (setLatch s x).writePort = s.writePort := rfl
@[simp] theorem setLatch_cwyCnt (s : State) (x : Latch) : (setLatch s x).cwyCnt = s.cwyCnt := rfl
@[simp] theorem setLatch_cwy (s : State) (x : Latch) : (setLatch s x).cwy = s.cwy := rfl
@[simp] theorem setLatch_cwyBad (s : State) (x : Latch) : (setLatch s x).cwyBad = s.cwyBad := rfl
@[simp] theorem setLatch_mem (s : State) (x : Latch) : (setLatch s x).mem = s.mem := rfl
@[simp] theorem setLatch_badMem (s : State) (x : Latch) : (setLatch s x).badMem = s.badMem := rfl
@[simp] theorem setLatch_retired (s : State) (x : Latch) : (setLatch s x).retired = s.retired := rfl
@[simp] theorem setLatch_perr (s : State) (x : Latch) : (setLatch s x).perr = s.perr := rfl
@[simp] theorem setLatch_lastErr (s : State) (x : Latch) : (setLatch s x).lastErr = s.lastErr := rfl
@[simp] theorem setLatch_scrubs (s : State) (x : Latch) : (setLatch s x).scrubs = s.scrubs := rfl
@[simp] theorem setLatch_recorder (s : State) (x : Latch) : (setLatch s x).recorder = s.recorder := rfl
@[simp] theorem setLatch_tag (s : State) (x : Latch) : (setLatch s x).tag = s.tag := rfl
@[simp] theorem setLatch_pmu (s : State) (x : Latch) : (setLatch s x).pmu = s.pmu := rfl
@[simp] theorem setLatch_mon (s : State) (x : Latch) : (setLatch s x).mon = s.mon := rfl
@[simp] theorem setLatch_glb (s : State) (x : Latch) : (setLatch s x).glb = s.glb := rfl
@[simp] theorem setLatch_boot (s : State) (x : Latch) : (setLatch s x).boot = s.boot := rfl
@[simp] theorem setLatch_pins (s : State) (x : Latch) : (setLatch s x).pins = s.pins := rfl

/-! ### setSrc -/

@[simp] theorem setSrc_pending (s : State) (k : Nat) (v : Src) : (setSrc s k v).pending = s.pending := rfl
@[simp] theorem setSrc_out (s : State) (k : Nat) (v : Src) : (setSrc s k v).out = s.out := rfl
@[simp] theorem setSrc_phase (s : State) (k : Nat) (v : Src) : (setSrc s k v).phase = s.phase := rfl
@[simp] theorem setSrc_now (s : State) (k : Nat) (v : Src) : (setSrc s k v).now = s.now := rfl
@[simp] theorem setSrc_frames (s : State) (k : Nat) (v : Src) : (setSrc s k v).frames = s.frames := rfl
@[simp] theorem setSrc_regs (s : State) (k : Nat) (v : Src) : (setSrc s k v).regs = s.regs := rfl
@[simp] theorem setSrc_hdrs (s : State) (k : Nat) (v : Src) : (setSrc s k v).hdrs = s.hdrs := rfl
@[simp] theorem setSrc_latches (s : State) (k : Nat) (v : Src) : (setSrc s k v).latches = s.latches := rfl
@[simp] theorem setSrc_segA (s : State) (k : Nat) (v : Src) : (setSrc s k v).segA = s.segA := rfl
@[simp] theorem setSrc_segB (s : State) (k : Nat) (v : Src) : (setSrc s k v).segB = s.segB := rfl
@[simp] theorem setSrc_segC (s : State) (k : Nat) (v : Src) : (setSrc s k v).segC = s.segC := rfl
@[simp] theorem setSrc_links (s : State) (k : Nat) (v : Src) : (setSrc s k v).links = s.links := rfl
@[simp] theorem setSrc_linkDup (s : State) (k : Nat) (v : Src) : (setSrc s k v).linkDup = s.linkDup := rfl
@[simp] theorem setSrc_linkAhead (s : State) (k : Nat) (v : Src) : (setSrc s k v).linkAhead = s.linkAhead := rfl
@[simp] theorem setSrc_linkReject (s : State) (k : Nat) (v : Src) : (setSrc s k v).linkReject = s.linkReject := rfl
@[simp] theorem setSrc_evDrop (s : State) (k : Nat) (v : Src) : (setSrc s k v).evDrop = s.evDrop := rfl
@[simp] theorem setSrc_conns (s : State) (k : Nat) (v : Src) : (setSrc s k v).conns = s.conns := rfl
@[simp] theorem setSrc_cache (s : State) (k : Nat) (v : Src) : (setSrc s k v).cache = s.cache := rfl
@[simp] theorem setSrc_loads (s : State) (k : Nat) (v : Src) : (setSrc s k v).loads = s.loads := rfl
@[simp] theorem setSrc_spills (s : State) (k : Nat) (v : Src) : (setSrc s k v).spills = s.spills := rfl
@[simp] theorem setSrc_epochs (s : State) (k : Nat) (v : Src) : (setSrc s k v).epochs = s.epochs := rfl
@[simp] theorem setSrc_regions (s : State) (k : Nat) (v : Src) : (setSrc s k v).regions = s.regions := rfl
@[simp] theorem setSrc_tags (s : State) (k : Nat) (v : Src) : (setSrc s k v).tags = s.tags := rfl
@[simp] theorem setSrc_freeCtr (s : State) (k : Nat) (v : Src) : (setSrc s k v).freeCtr = s.freeCtr := rfl
@[simp] theorem setSrc_powers (s : State) (k : Nat) (v : Src) : (setSrc s k v).powers = s.powers := rfl
@[simp] theorem setSrc_extents (s : State) (k : Nat) (v : Src) : (setSrc s k v).extents = s.extents := rfl
@[simp] theorem setSrc_sqs (s : State) (k : Nat) (v : Src) : (setSrc s k v).sqs = s.sqs := rfl
@[simp] theorem setSrc_cqs (s : State) (k : Nat) (v : Src) : (setSrc s k v).cqs = s.cqs := rfl
@[simp] theorem setSrc_entries (s : State) (k : Nat) (v : Src) : (setSrc s k v).entries = s.entries := rfl
@[simp] theorem setSrc_fetchLast (s : State) (k : Nat) (v : Src) : (setSrc s k v).fetchLast = s.fetchLast := rfl
@[simp] theorem setSrc_shares (s : State) (k : Nat) (v : Src) : (setSrc s k v).shares = s.shares := rfl
@[simp] theorem setSrc_charges (s : State) (k : Nat) (v : Src) : (setSrc s k v).charges = s.charges := rfl
@[simp] theorem setSrc_policies (s : State) (k : Nat) (v : Src) : (setSrc s k v).policies = s.policies := rfl
@[simp] theorem setSrc_wstart (s : State) (k : Nat) (v : Src) : (setSrc s k v).wstart = s.wstart := rfl
@[simp] theorem setSrc_susCnt (s : State) (k : Nat) (v : Src) : (setSrc s k v).susCnt = s.susCnt := rfl
@[simp] theorem setSrc_guarCnt (s : State) (k : Nat) (v : Src) : (setSrc s k v).guarCnt = s.guarCnt := rfl
@[simp] theorem setSrc_lateCnt (s : State) (k : Nat) (v : Src) : (setSrc s k v).lateCnt = s.lateCnt := rfl
@[simp] theorem setSrc_timeoutCnt (s : State) (k : Nat) (v : Src) : (setSrc s k v).timeoutCnt = s.timeoutCnt := rfl
@[simp] theorem setSrc_fchs (s : State) (k : Nat) (v : Src) : (setSrc s k v).fchs = s.fchs := rfl
@[simp] theorem setSrc_seqs (s : State) (k : Nat) (v : Src) : (setSrc s k v).seqs = s.seqs := rfl
@[simp] theorem setSrc_keys (s : State) (k : Nat) (v : Src) : (setSrc s k v).keys = s.keys := rfl
@[simp] theorem setSrc_eccHard (s : State) (k : Nat) (v : Src) : (setSrc s k v).eccHard = s.eccHard := rfl
@[simp] theorem setSrc_eccHfail (s : State) (k : Nat) (v : Src) : (setSrc s k v).eccHfail = s.eccHfail := rfl
@[simp] theorem setSrc_eccSoft (s : State) (k : Nat) (v : Src) : (setSrc s k v).eccSoft = s.eccSoft := rfl
@[simp] theorem setSrc_eccSfail (s : State) (k : Nat) (v : Src) : (setSrc s k v).eccSfail = s.eccSfail := rfl
@[simp] theorem setSrc_beads (s : State) (k : Nat) (v : Src) : (setSrc s k v).beads = s.beads := rfl
@[simp] theorem setSrc_badBeads (s : State) (k : Nat) (v : Src) : (setSrc s k v).badBeads = s.badBeads := rfl
@[simp] theorem setSrc_bands (s : State) (k : Nat) (v : Src) : (setSrc s k v).bands = s.bands := rfl
@[simp] theorem setSrc_abaOwn (s : State) (k : Nat) (v : Src) : (setSrc s k v).abaOwn = s.abaOwn := rfl
@[simp] theorem setSrc_abaHit (s : State) (k : Nat) (v : Src) : (setSrc s k v).abaHit = s.abaHit := rfl
@[simp] theorem setSrc_abaBorrow (s : State) (k : Nat) (v : Src) : (setSrc s k v).abaBorrow = s.abaBorrow := rfl
@[simp] theorem setSrc_abaNominal (s : State) (k : Nat) (v : Src) : (setSrc s k v).abaNominal = s.abaNominal := rfl
@[simp] theorem setSrc_fus (s : State) (k : Nat) (v : Src) : (setSrc s k v).fus = s.fus := rfl
@[simp] theorem setSrc_movers (s : State) (k : Nat) (v : Src) : (setSrc s k v).movers = s.movers := rfl
@[simp] theorem setSrc_readPort (s : State) (k : Nat) (v : Src) : (setSrc s k v).readPort = s.readPort := rfl
@[simp] theorem setSrc_writePort (s : State) (k : Nat) (v : Src) : (setSrc s k v).writePort = s.writePort := rfl
@[simp] theorem setSrc_cwyCnt (s : State) (k : Nat) (v : Src) : (setSrc s k v).cwyCnt = s.cwyCnt := rfl
@[simp] theorem setSrc_cwy (s : State) (k : Nat) (v : Src) : (setSrc s k v).cwy = s.cwy := rfl
@[simp] theorem setSrc_cwyBad (s : State) (k : Nat) (v : Src) : (setSrc s k v).cwyBad = s.cwyBad := rfl
@[simp] theorem setSrc_mem (s : State) (k : Nat) (v : Src) : (setSrc s k v).mem = s.mem := rfl
@[simp] theorem setSrc_badMem (s : State) (k : Nat) (v : Src) : (setSrc s k v).badMem = s.badMem := rfl
@[simp] theorem setSrc_retired (s : State) (k : Nat) (v : Src) : (setSrc s k v).retired = s.retired := rfl
@[simp] theorem setSrc_perr (s : State) (k : Nat) (v : Src) : (setSrc s k v).perr = s.perr := rfl
@[simp] theorem setSrc_lastErr (s : State) (k : Nat) (v : Src) : (setSrc s k v).lastErr = s.lastErr := rfl
@[simp] theorem setSrc_scrubs (s : State) (k : Nat) (v : Src) : (setSrc s k v).scrubs = s.scrubs := rfl
@[simp] theorem setSrc_recorder (s : State) (k : Nat) (v : Src) : (setSrc s k v).recorder = s.recorder := rfl
@[simp] theorem setSrc_tag (s : State) (k : Nat) (v : Src) : (setSrc s k v).tag = s.tag := rfl
@[simp] theorem setSrc_pmu (s : State) (k : Nat) (v : Src) : (setSrc s k v).pmu = s.pmu := rfl
@[simp] theorem setSrc_mon (s : State) (k : Nat) (v : Src) : (setSrc s k v).mon = s.mon := rfl
@[simp] theorem setSrc_glb (s : State) (k : Nat) (v : Src) : (setSrc s k v).glb = s.glb := rfl
@[simp] theorem setSrc_boot (s : State) (k : Nat) (v : Src) : (setSrc s k v).boot = s.boot := rfl
@[simp] theorem setSrc_pins (s : State) (k : Nat) (v : Src) : (setSrc s k v).pins = s.pins := rfl

/-! ### setLink -/

@[simp] theorem setLink_pending (s : State) (n : BitVec 6) (l : LinkSt) : (setLink s n l).pending = s.pending := rfl
@[simp] theorem setLink_out (s : State) (n : BitVec 6) (l : LinkSt) : (setLink s n l).out = s.out := rfl
@[simp] theorem setLink_phase (s : State) (n : BitVec 6) (l : LinkSt) : (setLink s n l).phase = s.phase := rfl
@[simp] theorem setLink_now (s : State) (n : BitVec 6) (l : LinkSt) : (setLink s n l).now = s.now := rfl
@[simp] theorem setLink_frames (s : State) (n : BitVec 6) (l : LinkSt) : (setLink s n l).frames = s.frames := rfl
@[simp] theorem setLink_regs (s : State) (n : BitVec 6) (l : LinkSt) : (setLink s n l).regs = s.regs := rfl
@[simp] theorem setLink_hdrs (s : State) (n : BitVec 6) (l : LinkSt) : (setLink s n l).hdrs = s.hdrs := rfl
@[simp] theorem setLink_latches (s : State) (n : BitVec 6) (l : LinkSt) : (setLink s n l).latches = s.latches := rfl
@[simp] theorem setLink_clk (s : State) (n : BitVec 6) (l : LinkSt) : (setLink s n l).clk = s.clk := rfl
@[simp] theorem setLink_segA (s : State) (n : BitVec 6) (l : LinkSt) : (setLink s n l).segA = s.segA := rfl
@[simp] theorem setLink_segB (s : State) (n : BitVec 6) (l : LinkSt) : (setLink s n l).segB = s.segB := rfl
@[simp] theorem setLink_segC (s : State) (n : BitVec 6) (l : LinkSt) : (setLink s n l).segC = s.segC := rfl
@[simp] theorem setLink_linkDup (s : State) (n : BitVec 6) (l : LinkSt) : (setLink s n l).linkDup = s.linkDup := rfl
@[simp] theorem setLink_linkAhead (s : State) (n : BitVec 6) (l : LinkSt) : (setLink s n l).linkAhead = s.linkAhead := rfl
@[simp] theorem setLink_linkReject (s : State) (n : BitVec 6) (l : LinkSt) : (setLink s n l).linkReject = s.linkReject := rfl
@[simp] theorem setLink_evDrop (s : State) (n : BitVec 6) (l : LinkSt) : (setLink s n l).evDrop = s.evDrop := rfl
@[simp] theorem setLink_conns (s : State) (n : BitVec 6) (l : LinkSt) : (setLink s n l).conns = s.conns := rfl
@[simp] theorem setLink_cache (s : State) (n : BitVec 6) (l : LinkSt) : (setLink s n l).cache = s.cache := rfl
@[simp] theorem setLink_loads (s : State) (n : BitVec 6) (l : LinkSt) : (setLink s n l).loads = s.loads := rfl
@[simp] theorem setLink_spills (s : State) (n : BitVec 6) (l : LinkSt) : (setLink s n l).spills = s.spills := rfl
@[simp] theorem setLink_epochs (s : State) (n : BitVec 6) (l : LinkSt) : (setLink s n l).epochs = s.epochs := rfl
@[simp] theorem setLink_regions (s : State) (n : BitVec 6) (l : LinkSt) : (setLink s n l).regions = s.regions := rfl
@[simp] theorem setLink_tags (s : State) (n : BitVec 6) (l : LinkSt) : (setLink s n l).tags = s.tags := rfl
@[simp] theorem setLink_freeCtr (s : State) (n : BitVec 6) (l : LinkSt) : (setLink s n l).freeCtr = s.freeCtr := rfl
@[simp] theorem setLink_powers (s : State) (n : BitVec 6) (l : LinkSt) : (setLink s n l).powers = s.powers := rfl
@[simp] theorem setLink_extents (s : State) (n : BitVec 6) (l : LinkSt) : (setLink s n l).extents = s.extents := rfl
@[simp] theorem setLink_sqs (s : State) (n : BitVec 6) (l : LinkSt) : (setLink s n l).sqs = s.sqs := rfl
@[simp] theorem setLink_cqs (s : State) (n : BitVec 6) (l : LinkSt) : (setLink s n l).cqs = s.cqs := rfl
@[simp] theorem setLink_entries (s : State) (n : BitVec 6) (l : LinkSt) : (setLink s n l).entries = s.entries := rfl
@[simp] theorem setLink_fetchLast (s : State) (n : BitVec 6) (l : LinkSt) : (setLink s n l).fetchLast = s.fetchLast := rfl
@[simp] theorem setLink_shares (s : State) (n : BitVec 6) (l : LinkSt) : (setLink s n l).shares = s.shares := rfl
@[simp] theorem setLink_charges (s : State) (n : BitVec 6) (l : LinkSt) : (setLink s n l).charges = s.charges := rfl
@[simp] theorem setLink_policies (s : State) (n : BitVec 6) (l : LinkSt) : (setLink s n l).policies = s.policies := rfl
@[simp] theorem setLink_wstart (s : State) (n : BitVec 6) (l : LinkSt) : (setLink s n l).wstart = s.wstart := rfl
@[simp] theorem setLink_susCnt (s : State) (n : BitVec 6) (l : LinkSt) : (setLink s n l).susCnt = s.susCnt := rfl
@[simp] theorem setLink_guarCnt (s : State) (n : BitVec 6) (l : LinkSt) : (setLink s n l).guarCnt = s.guarCnt := rfl
@[simp] theorem setLink_lateCnt (s : State) (n : BitVec 6) (l : LinkSt) : (setLink s n l).lateCnt = s.lateCnt := rfl
@[simp] theorem setLink_timeoutCnt (s : State) (n : BitVec 6) (l : LinkSt) : (setLink s n l).timeoutCnt = s.timeoutCnt := rfl
@[simp] theorem setLink_fchs (s : State) (n : BitVec 6) (l : LinkSt) : (setLink s n l).fchs = s.fchs := rfl
@[simp] theorem setLink_seqs (s : State) (n : BitVec 6) (l : LinkSt) : (setLink s n l).seqs = s.seqs := rfl
@[simp] theorem setLink_keys (s : State) (n : BitVec 6) (l : LinkSt) : (setLink s n l).keys = s.keys := rfl
@[simp] theorem setLink_eccHard (s : State) (n : BitVec 6) (l : LinkSt) : (setLink s n l).eccHard = s.eccHard := rfl
@[simp] theorem setLink_eccHfail (s : State) (n : BitVec 6) (l : LinkSt) : (setLink s n l).eccHfail = s.eccHfail := rfl
@[simp] theorem setLink_eccSoft (s : State) (n : BitVec 6) (l : LinkSt) : (setLink s n l).eccSoft = s.eccSoft := rfl
@[simp] theorem setLink_eccSfail (s : State) (n : BitVec 6) (l : LinkSt) : (setLink s n l).eccSfail = s.eccSfail := rfl
@[simp] theorem setLink_beads (s : State) (n : BitVec 6) (l : LinkSt) : (setLink s n l).beads = s.beads := rfl
@[simp] theorem setLink_badBeads (s : State) (n : BitVec 6) (l : LinkSt) : (setLink s n l).badBeads = s.badBeads := rfl
@[simp] theorem setLink_bands (s : State) (n : BitVec 6) (l : LinkSt) : (setLink s n l).bands = s.bands := rfl
@[simp] theorem setLink_abaOwn (s : State) (n : BitVec 6) (l : LinkSt) : (setLink s n l).abaOwn = s.abaOwn := rfl
@[simp] theorem setLink_abaHit (s : State) (n : BitVec 6) (l : LinkSt) : (setLink s n l).abaHit = s.abaHit := rfl
@[simp] theorem setLink_abaBorrow (s : State) (n : BitVec 6) (l : LinkSt) : (setLink s n l).abaBorrow = s.abaBorrow := rfl
@[simp] theorem setLink_abaNominal (s : State) (n : BitVec 6) (l : LinkSt) : (setLink s n l).abaNominal = s.abaNominal := rfl
@[simp] theorem setLink_fus (s : State) (n : BitVec 6) (l : LinkSt) : (setLink s n l).fus = s.fus := rfl
@[simp] theorem setLink_movers (s : State) (n : BitVec 6) (l : LinkSt) : (setLink s n l).movers = s.movers := rfl
@[simp] theorem setLink_readPort (s : State) (n : BitVec 6) (l : LinkSt) : (setLink s n l).readPort = s.readPort := rfl
@[simp] theorem setLink_writePort (s : State) (n : BitVec 6) (l : LinkSt) : (setLink s n l).writePort = s.writePort := rfl
@[simp] theorem setLink_cwyCnt (s : State) (n : BitVec 6) (l : LinkSt) : (setLink s n l).cwyCnt = s.cwyCnt := rfl
@[simp] theorem setLink_cwy (s : State) (n : BitVec 6) (l : LinkSt) : (setLink s n l).cwy = s.cwy := rfl
@[simp] theorem setLink_cwyBad (s : State) (n : BitVec 6) (l : LinkSt) : (setLink s n l).cwyBad = s.cwyBad := rfl
@[simp] theorem setLink_mem (s : State) (n : BitVec 6) (l : LinkSt) : (setLink s n l).mem = s.mem := rfl
@[simp] theorem setLink_badMem (s : State) (n : BitVec 6) (l : LinkSt) : (setLink s n l).badMem = s.badMem := rfl
@[simp] theorem setLink_retired (s : State) (n : BitVec 6) (l : LinkSt) : (setLink s n l).retired = s.retired := rfl
@[simp] theorem setLink_perr (s : State) (n : BitVec 6) (l : LinkSt) : (setLink s n l).perr = s.perr := rfl
@[simp] theorem setLink_lastErr (s : State) (n : BitVec 6) (l : LinkSt) : (setLink s n l).lastErr = s.lastErr := rfl
@[simp] theorem setLink_scrubs (s : State) (n : BitVec 6) (l : LinkSt) : (setLink s n l).scrubs = s.scrubs := rfl
@[simp] theorem setLink_recorder (s : State) (n : BitVec 6) (l : LinkSt) : (setLink s n l).recorder = s.recorder := rfl
@[simp] theorem setLink_tag (s : State) (n : BitVec 6) (l : LinkSt) : (setLink s n l).tag = s.tag := rfl
@[simp] theorem setLink_pmu (s : State) (n : BitVec 6) (l : LinkSt) : (setLink s n l).pmu = s.pmu := rfl
@[simp] theorem setLink_mon (s : State) (n : BitVec 6) (l : LinkSt) : (setLink s n l).mon = s.mon := rfl
@[simp] theorem setLink_glb (s : State) (n : BitVec 6) (l : LinkSt) : (setLink s n l).glb = s.glb := rfl
@[simp] theorem setLink_boot (s : State) (n : BitVec 6) (l : LinkSt) : (setLink s n l).boot = s.boot := rfl
@[simp] theorem setLink_pins (s : State) (n : BitVec 6) (l : LinkSt) : (setLink s n l).pins = s.pins := rfl

/-! ### setEntry -/

@[simp] theorem setEntry_pending (s : State) (e : Entry) : (setEntry s e).pending = s.pending := rfl
@[simp] theorem setEntry_out (s : State) (e : Entry) : (setEntry s e).out = s.out := rfl
@[simp] theorem setEntry_phase (s : State) (e : Entry) : (setEntry s e).phase = s.phase := rfl
@[simp] theorem setEntry_now (s : State) (e : Entry) : (setEntry s e).now = s.now := rfl
@[simp] theorem setEntry_frames (s : State) (e : Entry) : (setEntry s e).frames = s.frames := rfl
@[simp] theorem setEntry_regs (s : State) (e : Entry) : (setEntry s e).regs = s.regs := rfl
@[simp] theorem setEntry_hdrs (s : State) (e : Entry) : (setEntry s e).hdrs = s.hdrs := rfl
@[simp] theorem setEntry_latches (s : State) (e : Entry) : (setEntry s e).latches = s.latches := rfl
@[simp] theorem setEntry_clk (s : State) (e : Entry) : (setEntry s e).clk = s.clk := rfl
@[simp] theorem setEntry_segA (s : State) (e : Entry) : (setEntry s e).segA = s.segA := rfl
@[simp] theorem setEntry_segB (s : State) (e : Entry) : (setEntry s e).segB = s.segB := rfl
@[simp] theorem setEntry_segC (s : State) (e : Entry) : (setEntry s e).segC = s.segC := rfl
@[simp] theorem setEntry_links (s : State) (e : Entry) : (setEntry s e).links = s.links := rfl
@[simp] theorem setEntry_linkDup (s : State) (e : Entry) : (setEntry s e).linkDup = s.linkDup := rfl
@[simp] theorem setEntry_linkAhead (s : State) (e : Entry) : (setEntry s e).linkAhead = s.linkAhead := rfl
@[simp] theorem setEntry_linkReject (s : State) (e : Entry) : (setEntry s e).linkReject = s.linkReject := rfl
@[simp] theorem setEntry_evDrop (s : State) (e : Entry) : (setEntry s e).evDrop = s.evDrop := rfl
@[simp] theorem setEntry_conns (s : State) (e : Entry) : (setEntry s e).conns = s.conns := rfl
@[simp] theorem setEntry_cache (s : State) (e : Entry) : (setEntry s e).cache = s.cache := rfl
@[simp] theorem setEntry_loads (s : State) (e : Entry) : (setEntry s e).loads = s.loads := rfl
@[simp] theorem setEntry_spills (s : State) (e : Entry) : (setEntry s e).spills = s.spills := rfl
@[simp] theorem setEntry_epochs (s : State) (e : Entry) : (setEntry s e).epochs = s.epochs := rfl
@[simp] theorem setEntry_regions (s : State) (e : Entry) : (setEntry s e).regions = s.regions := rfl
@[simp] theorem setEntry_tags (s : State) (e : Entry) : (setEntry s e).tags = s.tags := rfl
@[simp] theorem setEntry_freeCtr (s : State) (e : Entry) : (setEntry s e).freeCtr = s.freeCtr := rfl
@[simp] theorem setEntry_powers (s : State) (e : Entry) : (setEntry s e).powers = s.powers := rfl
@[simp] theorem setEntry_extents (s : State) (e : Entry) : (setEntry s e).extents = s.extents := rfl
@[simp] theorem setEntry_sqs (s : State) (e : Entry) : (setEntry s e).sqs = s.sqs := rfl
@[simp] theorem setEntry_cqs (s : State) (e : Entry) : (setEntry s e).cqs = s.cqs := rfl
@[simp] theorem setEntry_fetchLast (s : State) (e : Entry) : (setEntry s e).fetchLast = s.fetchLast := rfl
@[simp] theorem setEntry_shares (s : State) (e : Entry) : (setEntry s e).shares = s.shares := rfl
@[simp] theorem setEntry_charges (s : State) (e : Entry) : (setEntry s e).charges = s.charges := rfl
@[simp] theorem setEntry_policies (s : State) (e : Entry) : (setEntry s e).policies = s.policies := rfl
@[simp] theorem setEntry_wstart (s : State) (e : Entry) : (setEntry s e).wstart = s.wstart := rfl
@[simp] theorem setEntry_susCnt (s : State) (e : Entry) : (setEntry s e).susCnt = s.susCnt := rfl
@[simp] theorem setEntry_guarCnt (s : State) (e : Entry) : (setEntry s e).guarCnt = s.guarCnt := rfl
@[simp] theorem setEntry_lateCnt (s : State) (e : Entry) : (setEntry s e).lateCnt = s.lateCnt := rfl
@[simp] theorem setEntry_timeoutCnt (s : State) (e : Entry) : (setEntry s e).timeoutCnt = s.timeoutCnt := rfl
@[simp] theorem setEntry_fchs (s : State) (e : Entry) : (setEntry s e).fchs = s.fchs := rfl
@[simp] theorem setEntry_seqs (s : State) (e : Entry) : (setEntry s e).seqs = s.seqs := rfl
@[simp] theorem setEntry_keys (s : State) (e : Entry) : (setEntry s e).keys = s.keys := rfl
@[simp] theorem setEntry_eccHard (s : State) (e : Entry) : (setEntry s e).eccHard = s.eccHard := rfl
@[simp] theorem setEntry_eccHfail (s : State) (e : Entry) : (setEntry s e).eccHfail = s.eccHfail := rfl
@[simp] theorem setEntry_eccSoft (s : State) (e : Entry) : (setEntry s e).eccSoft = s.eccSoft := rfl
@[simp] theorem setEntry_eccSfail (s : State) (e : Entry) : (setEntry s e).eccSfail = s.eccSfail := rfl
@[simp] theorem setEntry_beads (s : State) (e : Entry) : (setEntry s e).beads = s.beads := rfl
@[simp] theorem setEntry_badBeads (s : State) (e : Entry) : (setEntry s e).badBeads = s.badBeads := rfl
@[simp] theorem setEntry_bands (s : State) (e : Entry) : (setEntry s e).bands = s.bands := rfl
@[simp] theorem setEntry_abaOwn (s : State) (e : Entry) : (setEntry s e).abaOwn = s.abaOwn := rfl
@[simp] theorem setEntry_abaHit (s : State) (e : Entry) : (setEntry s e).abaHit = s.abaHit := rfl
@[simp] theorem setEntry_abaBorrow (s : State) (e : Entry) : (setEntry s e).abaBorrow = s.abaBorrow := rfl
@[simp] theorem setEntry_abaNominal (s : State) (e : Entry) : (setEntry s e).abaNominal = s.abaNominal := rfl
@[simp] theorem setEntry_fus (s : State) (e : Entry) : (setEntry s e).fus = s.fus := rfl
@[simp] theorem setEntry_movers (s : State) (e : Entry) : (setEntry s e).movers = s.movers := rfl
@[simp] theorem setEntry_readPort (s : State) (e : Entry) : (setEntry s e).readPort = s.readPort := rfl
@[simp] theorem setEntry_writePort (s : State) (e : Entry) : (setEntry s e).writePort = s.writePort := rfl
@[simp] theorem setEntry_cwyCnt (s : State) (e : Entry) : (setEntry s e).cwyCnt = s.cwyCnt := rfl
@[simp] theorem setEntry_cwy (s : State) (e : Entry) : (setEntry s e).cwy = s.cwy := rfl
@[simp] theorem setEntry_cwyBad (s : State) (e : Entry) : (setEntry s e).cwyBad = s.cwyBad := rfl
@[simp] theorem setEntry_mem (s : State) (e : Entry) : (setEntry s e).mem = s.mem := rfl
@[simp] theorem setEntry_badMem (s : State) (e : Entry) : (setEntry s e).badMem = s.badMem := rfl
@[simp] theorem setEntry_retired (s : State) (e : Entry) : (setEntry s e).retired = s.retired := rfl
@[simp] theorem setEntry_perr (s : State) (e : Entry) : (setEntry s e).perr = s.perr := rfl
@[simp] theorem setEntry_lastErr (s : State) (e : Entry) : (setEntry s e).lastErr = s.lastErr := rfl
@[simp] theorem setEntry_scrubs (s : State) (e : Entry) : (setEntry s e).scrubs = s.scrubs := rfl
@[simp] theorem setEntry_recorder (s : State) (e : Entry) : (setEntry s e).recorder = s.recorder := rfl
@[simp] theorem setEntry_tag (s : State) (e : Entry) : (setEntry s e).tag = s.tag := rfl
@[simp] theorem setEntry_pmu (s : State) (e : Entry) : (setEntry s e).pmu = s.pmu := rfl
@[simp] theorem setEntry_mon (s : State) (e : Entry) : (setEntry s e).mon = s.mon := rfl
@[simp] theorem setEntry_glb (s : State) (e : Entry) : (setEntry s e).glb = s.glb := rfl
@[simp] theorem setEntry_boot (s : State) (e : Entry) : (setEntry s e).boot = s.boot := rfl
@[simp] theorem setEntry_pins (s : State) (e : Entry) : (setEntry s e).pins = s.pins := rfl

/-! ### leaveFlight -/

@[simp] theorem leaveFlight_pending (s : State) (r : EntryRef) : (leaveFlight s r).pending = s.pending := rfl
@[simp] theorem leaveFlight_out (s : State) (r : EntryRef) : (leaveFlight s r).out = s.out := rfl
@[simp] theorem leaveFlight_phase (s : State) (r : EntryRef) : (leaveFlight s r).phase = s.phase := rfl
@[simp] theorem leaveFlight_now (s : State) (r : EntryRef) : (leaveFlight s r).now = s.now := rfl
@[simp] theorem leaveFlight_frames (s : State) (r : EntryRef) : (leaveFlight s r).frames = s.frames := rfl
@[simp] theorem leaveFlight_regs (s : State) (r : EntryRef) : (leaveFlight s r).regs = s.regs := rfl
@[simp] theorem leaveFlight_hdrs (s : State) (r : EntryRef) : (leaveFlight s r).hdrs = s.hdrs := rfl
@[simp] theorem leaveFlight_latches (s : State) (r : EntryRef) : (leaveFlight s r).latches = s.latches := rfl
@[simp] theorem leaveFlight_clk (s : State) (r : EntryRef) : (leaveFlight s r).clk = s.clk := rfl
@[simp] theorem leaveFlight_segA (s : State) (r : EntryRef) : (leaveFlight s r).segA = s.segA := rfl
@[simp] theorem leaveFlight_segB (s : State) (r : EntryRef) : (leaveFlight s r).segB = s.segB := rfl
@[simp] theorem leaveFlight_segC (s : State) (r : EntryRef) : (leaveFlight s r).segC = s.segC := rfl
@[simp] theorem leaveFlight_links (s : State) (r : EntryRef) : (leaveFlight s r).links = s.links := rfl
@[simp] theorem leaveFlight_linkDup (s : State) (r : EntryRef) : (leaveFlight s r).linkDup = s.linkDup := rfl
@[simp] theorem leaveFlight_linkAhead (s : State) (r : EntryRef) : (leaveFlight s r).linkAhead = s.linkAhead := rfl
@[simp] theorem leaveFlight_linkReject (s : State) (r : EntryRef) : (leaveFlight s r).linkReject = s.linkReject := rfl
@[simp] theorem leaveFlight_evDrop (s : State) (r : EntryRef) : (leaveFlight s r).evDrop = s.evDrop := rfl
@[simp] theorem leaveFlight_conns (s : State) (r : EntryRef) : (leaveFlight s r).conns = s.conns := rfl
@[simp] theorem leaveFlight_cache (s : State) (r : EntryRef) : (leaveFlight s r).cache = s.cache := rfl
@[simp] theorem leaveFlight_loads (s : State) (r : EntryRef) : (leaveFlight s r).loads = s.loads := rfl
@[simp] theorem leaveFlight_spills (s : State) (r : EntryRef) : (leaveFlight s r).spills = s.spills := rfl
@[simp] theorem leaveFlight_epochs (s : State) (r : EntryRef) : (leaveFlight s r).epochs = s.epochs := rfl
@[simp] theorem leaveFlight_regions (s : State) (r : EntryRef) : (leaveFlight s r).regions = s.regions := rfl
@[simp] theorem leaveFlight_tags (s : State) (r : EntryRef) : (leaveFlight s r).tags = s.tags := rfl
@[simp] theorem leaveFlight_freeCtr (s : State) (r : EntryRef) : (leaveFlight s r).freeCtr = s.freeCtr := rfl
@[simp] theorem leaveFlight_powers (s : State) (r : EntryRef) : (leaveFlight s r).powers = s.powers := rfl
@[simp] theorem leaveFlight_extents (s : State) (r : EntryRef) : (leaveFlight s r).extents = s.extents := rfl
@[simp] theorem leaveFlight_sqs (s : State) (r : EntryRef) : (leaveFlight s r).sqs = s.sqs := rfl
@[simp] theorem leaveFlight_cqs (s : State) (r : EntryRef) : (leaveFlight s r).cqs = s.cqs := rfl
@[simp] theorem leaveFlight_fetchLast (s : State) (r : EntryRef) : (leaveFlight s r).fetchLast = s.fetchLast := rfl
@[simp] theorem leaveFlight_shares (s : State) (r : EntryRef) : (leaveFlight s r).shares = s.shares := rfl
@[simp] theorem leaveFlight_charges (s : State) (r : EntryRef) : (leaveFlight s r).charges = s.charges := rfl
@[simp] theorem leaveFlight_policies (s : State) (r : EntryRef) : (leaveFlight s r).policies = s.policies := rfl
@[simp] theorem leaveFlight_wstart (s : State) (r : EntryRef) : (leaveFlight s r).wstart = s.wstart := rfl
@[simp] theorem leaveFlight_susCnt (s : State) (r : EntryRef) : (leaveFlight s r).susCnt = s.susCnt := rfl
@[simp] theorem leaveFlight_guarCnt (s : State) (r : EntryRef) : (leaveFlight s r).guarCnt = s.guarCnt := rfl
@[simp] theorem leaveFlight_lateCnt (s : State) (r : EntryRef) : (leaveFlight s r).lateCnt = s.lateCnt := rfl
@[simp] theorem leaveFlight_timeoutCnt (s : State) (r : EntryRef) : (leaveFlight s r).timeoutCnt = s.timeoutCnt := rfl
@[simp] theorem leaveFlight_fchs (s : State) (r : EntryRef) : (leaveFlight s r).fchs = s.fchs := rfl
@[simp] theorem leaveFlight_seqs (s : State) (r : EntryRef) : (leaveFlight s r).seqs = s.seqs := rfl
@[simp] theorem leaveFlight_keys (s : State) (r : EntryRef) : (leaveFlight s r).keys = s.keys := rfl
@[simp] theorem leaveFlight_eccHard (s : State) (r : EntryRef) : (leaveFlight s r).eccHard = s.eccHard := rfl
@[simp] theorem leaveFlight_eccHfail (s : State) (r : EntryRef) : (leaveFlight s r).eccHfail = s.eccHfail := rfl
@[simp] theorem leaveFlight_eccSoft (s : State) (r : EntryRef) : (leaveFlight s r).eccSoft = s.eccSoft := rfl
@[simp] theorem leaveFlight_eccSfail (s : State) (r : EntryRef) : (leaveFlight s r).eccSfail = s.eccSfail := rfl
@[simp] theorem leaveFlight_beads (s : State) (r : EntryRef) : (leaveFlight s r).beads = s.beads := rfl
@[simp] theorem leaveFlight_badBeads (s : State) (r : EntryRef) : (leaveFlight s r).badBeads = s.badBeads := rfl
@[simp] theorem leaveFlight_bands (s : State) (r : EntryRef) : (leaveFlight s r).bands = s.bands := rfl
@[simp] theorem leaveFlight_abaOwn (s : State) (r : EntryRef) : (leaveFlight s r).abaOwn = s.abaOwn := rfl
@[simp] theorem leaveFlight_abaHit (s : State) (r : EntryRef) : (leaveFlight s r).abaHit = s.abaHit := rfl
@[simp] theorem leaveFlight_abaBorrow (s : State) (r : EntryRef) : (leaveFlight s r).abaBorrow = s.abaBorrow := rfl
@[simp] theorem leaveFlight_abaNominal (s : State) (r : EntryRef) : (leaveFlight s r).abaNominal = s.abaNominal := rfl
@[simp] theorem leaveFlight_fus (s : State) (r : EntryRef) : (leaveFlight s r).fus = s.fus := rfl
@[simp] theorem leaveFlight_movers (s : State) (r : EntryRef) : (leaveFlight s r).movers = s.movers := rfl
@[simp] theorem leaveFlight_readPort (s : State) (r : EntryRef) : (leaveFlight s r).readPort = s.readPort := rfl
@[simp] theorem leaveFlight_writePort (s : State) (r : EntryRef) : (leaveFlight s r).writePort = s.writePort := rfl
@[simp] theorem leaveFlight_cwyCnt (s : State) (r : EntryRef) : (leaveFlight s r).cwyCnt = s.cwyCnt := rfl
@[simp] theorem leaveFlight_cwy (s : State) (r : EntryRef) : (leaveFlight s r).cwy = s.cwy := rfl
@[simp] theorem leaveFlight_cwyBad (s : State) (r : EntryRef) : (leaveFlight s r).cwyBad = s.cwyBad := rfl
@[simp] theorem leaveFlight_mem (s : State) (r : EntryRef) : (leaveFlight s r).mem = s.mem := rfl
@[simp] theorem leaveFlight_badMem (s : State) (r : EntryRef) : (leaveFlight s r).badMem = s.badMem := rfl
@[simp] theorem leaveFlight_retired (s : State) (r : EntryRef) : (leaveFlight s r).retired = s.retired := rfl
@[simp] theorem leaveFlight_perr (s : State) (r : EntryRef) : (leaveFlight s r).perr = s.perr := rfl
@[simp] theorem leaveFlight_lastErr (s : State) (r : EntryRef) : (leaveFlight s r).lastErr = s.lastErr := rfl
@[simp] theorem leaveFlight_scrubs (s : State) (r : EntryRef) : (leaveFlight s r).scrubs = s.scrubs := rfl
@[simp] theorem leaveFlight_recorder (s : State) (r : EntryRef) : (leaveFlight s r).recorder = s.recorder := rfl
@[simp] theorem leaveFlight_tag (s : State) (r : EntryRef) : (leaveFlight s r).tag = s.tag := rfl
@[simp] theorem leaveFlight_pmu (s : State) (r : EntryRef) : (leaveFlight s r).pmu = s.pmu := rfl
@[simp] theorem leaveFlight_mon (s : State) (r : EntryRef) : (leaveFlight s r).mon = s.mon := rfl
@[simp] theorem leaveFlight_glb (s : State) (r : EntryRef) : (leaveFlight s r).glb = s.glb := rfl
@[simp] theorem leaveFlight_boot (s : State) (r : EntryRef) : (leaveFlight s r).boot = s.boot := rfl
@[simp] theorem leaveFlight_pins (s : State) (r : EntryRef) : (leaveFlight s r).pins = s.pins := rfl

/-! ### setFch -/

@[simp] theorem setFch_pending (s : State) (c : Nat) (f : Fch) : (setFch s c f).pending = s.pending := rfl
@[simp] theorem setFch_out (s : State) (c : Nat) (f : Fch) : (setFch s c f).out = s.out := rfl
@[simp] theorem setFch_phase (s : State) (c : Nat) (f : Fch) : (setFch s c f).phase = s.phase := rfl
@[simp] theorem setFch_now (s : State) (c : Nat) (f : Fch) : (setFch s c f).now = s.now := rfl
@[simp] theorem setFch_frames (s : State) (c : Nat) (f : Fch) : (setFch s c f).frames = s.frames := rfl
@[simp] theorem setFch_regs (s : State) (c : Nat) (f : Fch) : (setFch s c f).regs = s.regs := rfl
@[simp] theorem setFch_hdrs (s : State) (c : Nat) (f : Fch) : (setFch s c f).hdrs = s.hdrs := rfl
@[simp] theorem setFch_latches (s : State) (c : Nat) (f : Fch) : (setFch s c f).latches = s.latches := rfl
@[simp] theorem setFch_clk (s : State) (c : Nat) (f : Fch) : (setFch s c f).clk = s.clk := rfl
@[simp] theorem setFch_segA (s : State) (c : Nat) (f : Fch) : (setFch s c f).segA = s.segA := rfl
@[simp] theorem setFch_segB (s : State) (c : Nat) (f : Fch) : (setFch s c f).segB = s.segB := rfl
@[simp] theorem setFch_segC (s : State) (c : Nat) (f : Fch) : (setFch s c f).segC = s.segC := rfl
@[simp] theorem setFch_links (s : State) (c : Nat) (f : Fch) : (setFch s c f).links = s.links := rfl
@[simp] theorem setFch_linkDup (s : State) (c : Nat) (f : Fch) : (setFch s c f).linkDup = s.linkDup := rfl
@[simp] theorem setFch_linkAhead (s : State) (c : Nat) (f : Fch) : (setFch s c f).linkAhead = s.linkAhead := rfl
@[simp] theorem setFch_linkReject (s : State) (c : Nat) (f : Fch) : (setFch s c f).linkReject = s.linkReject := rfl
@[simp] theorem setFch_evDrop (s : State) (c : Nat) (f : Fch) : (setFch s c f).evDrop = s.evDrop := rfl
@[simp] theorem setFch_conns (s : State) (c : Nat) (f : Fch) : (setFch s c f).conns = s.conns := rfl
@[simp] theorem setFch_cache (s : State) (c : Nat) (f : Fch) : (setFch s c f).cache = s.cache := rfl
@[simp] theorem setFch_loads (s : State) (c : Nat) (f : Fch) : (setFch s c f).loads = s.loads := rfl
@[simp] theorem setFch_spills (s : State) (c : Nat) (f : Fch) : (setFch s c f).spills = s.spills := rfl
@[simp] theorem setFch_epochs (s : State) (c : Nat) (f : Fch) : (setFch s c f).epochs = s.epochs := rfl
@[simp] theorem setFch_regions (s : State) (c : Nat) (f : Fch) : (setFch s c f).regions = s.regions := rfl
@[simp] theorem setFch_tags (s : State) (c : Nat) (f : Fch) : (setFch s c f).tags = s.tags := rfl
@[simp] theorem setFch_freeCtr (s : State) (c : Nat) (f : Fch) : (setFch s c f).freeCtr = s.freeCtr := rfl
@[simp] theorem setFch_powers (s : State) (c : Nat) (f : Fch) : (setFch s c f).powers = s.powers := rfl
@[simp] theorem setFch_extents (s : State) (c : Nat) (f : Fch) : (setFch s c f).extents = s.extents := rfl
@[simp] theorem setFch_sqs (s : State) (c : Nat) (f : Fch) : (setFch s c f).sqs = s.sqs := rfl
@[simp] theorem setFch_cqs (s : State) (c : Nat) (f : Fch) : (setFch s c f).cqs = s.cqs := rfl
@[simp] theorem setFch_entries (s : State) (c : Nat) (f : Fch) : (setFch s c f).entries = s.entries := rfl
@[simp] theorem setFch_fetchLast (s : State) (c : Nat) (f : Fch) : (setFch s c f).fetchLast = s.fetchLast := rfl
@[simp] theorem setFch_shares (s : State) (c : Nat) (f : Fch) : (setFch s c f).shares = s.shares := rfl
@[simp] theorem setFch_charges (s : State) (c : Nat) (f : Fch) : (setFch s c f).charges = s.charges := rfl
@[simp] theorem setFch_policies (s : State) (c : Nat) (f : Fch) : (setFch s c f).policies = s.policies := rfl
@[simp] theorem setFch_wstart (s : State) (c : Nat) (f : Fch) : (setFch s c f).wstart = s.wstart := rfl
@[simp] theorem setFch_susCnt (s : State) (c : Nat) (f : Fch) : (setFch s c f).susCnt = s.susCnt := rfl
@[simp] theorem setFch_guarCnt (s : State) (c : Nat) (f : Fch) : (setFch s c f).guarCnt = s.guarCnt := rfl
@[simp] theorem setFch_lateCnt (s : State) (c : Nat) (f : Fch) : (setFch s c f).lateCnt = s.lateCnt := rfl
@[simp] theorem setFch_timeoutCnt (s : State) (c : Nat) (f : Fch) : (setFch s c f).timeoutCnt = s.timeoutCnt := rfl
@[simp] theorem setFch_seqs (s : State) (c : Nat) (f : Fch) : (setFch s c f).seqs = s.seqs := rfl
@[simp] theorem setFch_keys (s : State) (c : Nat) (f : Fch) : (setFch s c f).keys = s.keys := rfl
@[simp] theorem setFch_eccHard (s : State) (c : Nat) (f : Fch) : (setFch s c f).eccHard = s.eccHard := rfl
@[simp] theorem setFch_eccHfail (s : State) (c : Nat) (f : Fch) : (setFch s c f).eccHfail = s.eccHfail := rfl
@[simp] theorem setFch_eccSoft (s : State) (c : Nat) (f : Fch) : (setFch s c f).eccSoft = s.eccSoft := rfl
@[simp] theorem setFch_eccSfail (s : State) (c : Nat) (f : Fch) : (setFch s c f).eccSfail = s.eccSfail := rfl
@[simp] theorem setFch_beads (s : State) (c : Nat) (f : Fch) : (setFch s c f).beads = s.beads := rfl
@[simp] theorem setFch_badBeads (s : State) (c : Nat) (f : Fch) : (setFch s c f).badBeads = s.badBeads := rfl
@[simp] theorem setFch_bands (s : State) (c : Nat) (f : Fch) : (setFch s c f).bands = s.bands := rfl
@[simp] theorem setFch_abaOwn (s : State) (c : Nat) (f : Fch) : (setFch s c f).abaOwn = s.abaOwn := rfl
@[simp] theorem setFch_abaHit (s : State) (c : Nat) (f : Fch) : (setFch s c f).abaHit = s.abaHit := rfl
@[simp] theorem setFch_abaBorrow (s : State) (c : Nat) (f : Fch) : (setFch s c f).abaBorrow = s.abaBorrow := rfl
@[simp] theorem setFch_abaNominal (s : State) (c : Nat) (f : Fch) : (setFch s c f).abaNominal = s.abaNominal := rfl
@[simp] theorem setFch_fus (s : State) (c : Nat) (f : Fch) : (setFch s c f).fus = s.fus := rfl
@[simp] theorem setFch_movers (s : State) (c : Nat) (f : Fch) : (setFch s c f).movers = s.movers := rfl
@[simp] theorem setFch_readPort (s : State) (c : Nat) (f : Fch) : (setFch s c f).readPort = s.readPort := rfl
@[simp] theorem setFch_writePort (s : State) (c : Nat) (f : Fch) : (setFch s c f).writePort = s.writePort := rfl
@[simp] theorem setFch_cwyCnt (s : State) (c : Nat) (f : Fch) : (setFch s c f).cwyCnt = s.cwyCnt := rfl
@[simp] theorem setFch_cwy (s : State) (c : Nat) (f : Fch) : (setFch s c f).cwy = s.cwy := rfl
@[simp] theorem setFch_cwyBad (s : State) (c : Nat) (f : Fch) : (setFch s c f).cwyBad = s.cwyBad := rfl
@[simp] theorem setFch_mem (s : State) (c : Nat) (f : Fch) : (setFch s c f).mem = s.mem := rfl
@[simp] theorem setFch_badMem (s : State) (c : Nat) (f : Fch) : (setFch s c f).badMem = s.badMem := rfl
@[simp] theorem setFch_retired (s : State) (c : Nat) (f : Fch) : (setFch s c f).retired = s.retired := rfl
@[simp] theorem setFch_perr (s : State) (c : Nat) (f : Fch) : (setFch s c f).perr = s.perr := rfl
@[simp] theorem setFch_lastErr (s : State) (c : Nat) (f : Fch) : (setFch s c f).lastErr = s.lastErr := rfl
@[simp] theorem setFch_scrubs (s : State) (c : Nat) (f : Fch) : (setFch s c f).scrubs = s.scrubs := rfl
@[simp] theorem setFch_recorder (s : State) (c : Nat) (f : Fch) : (setFch s c f).recorder = s.recorder := rfl
@[simp] theorem setFch_tag (s : State) (c : Nat) (f : Fch) : (setFch s c f).tag = s.tag := rfl
@[simp] theorem setFch_pmu (s : State) (c : Nat) (f : Fch) : (setFch s c f).pmu = s.pmu := rfl
@[simp] theorem setFch_mon (s : State) (c : Nat) (f : Fch) : (setFch s c f).mon = s.mon := rfl
@[simp] theorem setFch_glb (s : State) (c : Nat) (f : Fch) : (setFch s c f).glb = s.glb := rfl
@[simp] theorem setFch_boot (s : State) (c : Nat) (f : Fch) : (setFch s c f).boot = s.boot := rfl
@[simp] theorem setFch_pins (s : State) (c : Nat) (f : Fch) : (setFch s c f).pins = s.pins := rfl

/-! ### setLun -/

@[simp] theorem setLun_pending (s : State) (l : Nat) (v : LunSt) : (setLun s l v).pending = s.pending := rfl
@[simp] theorem setLun_out (s : State) (l : Nat) (v : LunSt) : (setLun s l v).out = s.out := rfl
@[simp] theorem setLun_phase (s : State) (l : Nat) (v : LunSt) : (setLun s l v).phase = s.phase := rfl
@[simp] theorem setLun_now (s : State) (l : Nat) (v : LunSt) : (setLun s l v).now = s.now := rfl
@[simp] theorem setLun_frames (s : State) (l : Nat) (v : LunSt) : (setLun s l v).frames = s.frames := rfl
@[simp] theorem setLun_regs (s : State) (l : Nat) (v : LunSt) : (setLun s l v).regs = s.regs := rfl
@[simp] theorem setLun_hdrs (s : State) (l : Nat) (v : LunSt) : (setLun s l v).hdrs = s.hdrs := rfl
@[simp] theorem setLun_latches (s : State) (l : Nat) (v : LunSt) : (setLun s l v).latches = s.latches := rfl
@[simp] theorem setLun_clk (s : State) (l : Nat) (v : LunSt) : (setLun s l v).clk = s.clk := rfl
@[simp] theorem setLun_segA (s : State) (l : Nat) (v : LunSt) : (setLun s l v).segA = s.segA := rfl
@[simp] theorem setLun_segB (s : State) (l : Nat) (v : LunSt) : (setLun s l v).segB = s.segB := rfl
@[simp] theorem setLun_segC (s : State) (l : Nat) (v : LunSt) : (setLun s l v).segC = s.segC := rfl
@[simp] theorem setLun_links (s : State) (l : Nat) (v : LunSt) : (setLun s l v).links = s.links := rfl
@[simp] theorem setLun_linkDup (s : State) (l : Nat) (v : LunSt) : (setLun s l v).linkDup = s.linkDup := rfl
@[simp] theorem setLun_linkAhead (s : State) (l : Nat) (v : LunSt) : (setLun s l v).linkAhead = s.linkAhead := rfl
@[simp] theorem setLun_linkReject (s : State) (l : Nat) (v : LunSt) : (setLun s l v).linkReject = s.linkReject := rfl
@[simp] theorem setLun_evDrop (s : State) (l : Nat) (v : LunSt) : (setLun s l v).evDrop = s.evDrop := rfl
@[simp] theorem setLun_conns (s : State) (l : Nat) (v : LunSt) : (setLun s l v).conns = s.conns := rfl
@[simp] theorem setLun_cache (s : State) (l : Nat) (v : LunSt) : (setLun s l v).cache = s.cache := rfl
@[simp] theorem setLun_loads (s : State) (l : Nat) (v : LunSt) : (setLun s l v).loads = s.loads := rfl
@[simp] theorem setLun_spills (s : State) (l : Nat) (v : LunSt) : (setLun s l v).spills = s.spills := rfl
@[simp] theorem setLun_epochs (s : State) (l : Nat) (v : LunSt) : (setLun s l v).epochs = s.epochs := rfl
@[simp] theorem setLun_regions (s : State) (l : Nat) (v : LunSt) : (setLun s l v).regions = s.regions := rfl
@[simp] theorem setLun_tags (s : State) (l : Nat) (v : LunSt) : (setLun s l v).tags = s.tags := rfl
@[simp] theorem setLun_freeCtr (s : State) (l : Nat) (v : LunSt) : (setLun s l v).freeCtr = s.freeCtr := rfl
@[simp] theorem setLun_powers (s : State) (l : Nat) (v : LunSt) : (setLun s l v).powers = s.powers := rfl
@[simp] theorem setLun_extents (s : State) (l : Nat) (v : LunSt) : (setLun s l v).extents = s.extents := rfl
@[simp] theorem setLun_sqs (s : State) (l : Nat) (v : LunSt) : (setLun s l v).sqs = s.sqs := rfl
@[simp] theorem setLun_cqs (s : State) (l : Nat) (v : LunSt) : (setLun s l v).cqs = s.cqs := rfl
@[simp] theorem setLun_entries (s : State) (l : Nat) (v : LunSt) : (setLun s l v).entries = s.entries := rfl
@[simp] theorem setLun_fetchLast (s : State) (l : Nat) (v : LunSt) : (setLun s l v).fetchLast = s.fetchLast := rfl
@[simp] theorem setLun_shares (s : State) (l : Nat) (v : LunSt) : (setLun s l v).shares = s.shares := rfl
@[simp] theorem setLun_charges (s : State) (l : Nat) (v : LunSt) : (setLun s l v).charges = s.charges := rfl
@[simp] theorem setLun_policies (s : State) (l : Nat) (v : LunSt) : (setLun s l v).policies = s.policies := rfl
@[simp] theorem setLun_wstart (s : State) (l : Nat) (v : LunSt) : (setLun s l v).wstart = s.wstart := rfl
@[simp] theorem setLun_susCnt (s : State) (l : Nat) (v : LunSt) : (setLun s l v).susCnt = s.susCnt := rfl
@[simp] theorem setLun_guarCnt (s : State) (l : Nat) (v : LunSt) : (setLun s l v).guarCnt = s.guarCnt := rfl
@[simp] theorem setLun_lateCnt (s : State) (l : Nat) (v : LunSt) : (setLun s l v).lateCnt = s.lateCnt := rfl
@[simp] theorem setLun_timeoutCnt (s : State) (l : Nat) (v : LunSt) : (setLun s l v).timeoutCnt = s.timeoutCnt := rfl
@[simp] theorem setLun_seqs (s : State) (l : Nat) (v : LunSt) : (setLun s l v).seqs = s.seqs := rfl
@[simp] theorem setLun_keys (s : State) (l : Nat) (v : LunSt) : (setLun s l v).keys = s.keys := rfl
@[simp] theorem setLun_eccHard (s : State) (l : Nat) (v : LunSt) : (setLun s l v).eccHard = s.eccHard := rfl
@[simp] theorem setLun_eccHfail (s : State) (l : Nat) (v : LunSt) : (setLun s l v).eccHfail = s.eccHfail := rfl
@[simp] theorem setLun_eccSoft (s : State) (l : Nat) (v : LunSt) : (setLun s l v).eccSoft = s.eccSoft := rfl
@[simp] theorem setLun_eccSfail (s : State) (l : Nat) (v : LunSt) : (setLun s l v).eccSfail = s.eccSfail := rfl
@[simp] theorem setLun_beads (s : State) (l : Nat) (v : LunSt) : (setLun s l v).beads = s.beads := rfl
@[simp] theorem setLun_badBeads (s : State) (l : Nat) (v : LunSt) : (setLun s l v).badBeads = s.badBeads := rfl
@[simp] theorem setLun_bands (s : State) (l : Nat) (v : LunSt) : (setLun s l v).bands = s.bands := rfl
@[simp] theorem setLun_abaOwn (s : State) (l : Nat) (v : LunSt) : (setLun s l v).abaOwn = s.abaOwn := rfl
@[simp] theorem setLun_abaHit (s : State) (l : Nat) (v : LunSt) : (setLun s l v).abaHit = s.abaHit := rfl
@[simp] theorem setLun_abaBorrow (s : State) (l : Nat) (v : LunSt) : (setLun s l v).abaBorrow = s.abaBorrow := rfl
@[simp] theorem setLun_abaNominal (s : State) (l : Nat) (v : LunSt) : (setLun s l v).abaNominal = s.abaNominal := rfl
@[simp] theorem setLun_fus (s : State) (l : Nat) (v : LunSt) : (setLun s l v).fus = s.fus := rfl
@[simp] theorem setLun_movers (s : State) (l : Nat) (v : LunSt) : (setLun s l v).movers = s.movers := rfl
@[simp] theorem setLun_readPort (s : State) (l : Nat) (v : LunSt) : (setLun s l v).readPort = s.readPort := rfl
@[simp] theorem setLun_writePort (s : State) (l : Nat) (v : LunSt) : (setLun s l v).writePort = s.writePort := rfl
@[simp] theorem setLun_cwyCnt (s : State) (l : Nat) (v : LunSt) : (setLun s l v).cwyCnt = s.cwyCnt := rfl
@[simp] theorem setLun_cwy (s : State) (l : Nat) (v : LunSt) : (setLun s l v).cwy = s.cwy := rfl
@[simp] theorem setLun_cwyBad (s : State) (l : Nat) (v : LunSt) : (setLun s l v).cwyBad = s.cwyBad := rfl
@[simp] theorem setLun_mem (s : State) (l : Nat) (v : LunSt) : (setLun s l v).mem = s.mem := rfl
@[simp] theorem setLun_badMem (s : State) (l : Nat) (v : LunSt) : (setLun s l v).badMem = s.badMem := rfl
@[simp] theorem setLun_retired (s : State) (l : Nat) (v : LunSt) : (setLun s l v).retired = s.retired := rfl
@[simp] theorem setLun_perr (s : State) (l : Nat) (v : LunSt) : (setLun s l v).perr = s.perr := rfl
@[simp] theorem setLun_lastErr (s : State) (l : Nat) (v : LunSt) : (setLun s l v).lastErr = s.lastErr := rfl
@[simp] theorem setLun_scrubs (s : State) (l : Nat) (v : LunSt) : (setLun s l v).scrubs = s.scrubs := rfl
@[simp] theorem setLun_recorder (s : State) (l : Nat) (v : LunSt) : (setLun s l v).recorder = s.recorder := rfl
@[simp] theorem setLun_tag (s : State) (l : Nat) (v : LunSt) : (setLun s l v).tag = s.tag := rfl
@[simp] theorem setLun_pmu (s : State) (l : Nat) (v : LunSt) : (setLun s l v).pmu = s.pmu := rfl
@[simp] theorem setLun_mon (s : State) (l : Nat) (v : LunSt) : (setLun s l v).mon = s.mon := rfl
@[simp] theorem setLun_glb (s : State) (l : Nat) (v : LunSt) : (setLun s l v).glb = s.glb := rfl
@[simp] theorem setLun_boot (s : State) (l : Nat) (v : LunSt) : (setLun s l v).boot = s.boot := rfl
@[simp] theorem setLun_pins (s : State) (l : Nat) (v : LunSt) : (setLun s l v).pins = s.pins := rfl

/-! ### setSeq -/

@[simp] theorem setSeq_pending (s : State) (n : Nat) (q : SeqSt) : (setSeq s n q).pending = s.pending := rfl
@[simp] theorem setSeq_out (s : State) (n : Nat) (q : SeqSt) : (setSeq s n q).out = s.out := rfl
@[simp] theorem setSeq_phase (s : State) (n : Nat) (q : SeqSt) : (setSeq s n q).phase = s.phase := rfl
@[simp] theorem setSeq_now (s : State) (n : Nat) (q : SeqSt) : (setSeq s n q).now = s.now := rfl
@[simp] theorem setSeq_frames (s : State) (n : Nat) (q : SeqSt) : (setSeq s n q).frames = s.frames := rfl
@[simp] theorem setSeq_regs (s : State) (n : Nat) (q : SeqSt) : (setSeq s n q).regs = s.regs := rfl
@[simp] theorem setSeq_hdrs (s : State) (n : Nat) (q : SeqSt) : (setSeq s n q).hdrs = s.hdrs := rfl
@[simp] theorem setSeq_latches (s : State) (n : Nat) (q : SeqSt) : (setSeq s n q).latches = s.latches := rfl
@[simp] theorem setSeq_clk (s : State) (n : Nat) (q : SeqSt) : (setSeq s n q).clk = s.clk := rfl
@[simp] theorem setSeq_segA (s : State) (n : Nat) (q : SeqSt) : (setSeq s n q).segA = s.segA := rfl
@[simp] theorem setSeq_segB (s : State) (n : Nat) (q : SeqSt) : (setSeq s n q).segB = s.segB := rfl
@[simp] theorem setSeq_segC (s : State) (n : Nat) (q : SeqSt) : (setSeq s n q).segC = s.segC := rfl
@[simp] theorem setSeq_links (s : State) (n : Nat) (q : SeqSt) : (setSeq s n q).links = s.links := rfl
@[simp] theorem setSeq_linkDup (s : State) (n : Nat) (q : SeqSt) : (setSeq s n q).linkDup = s.linkDup := rfl
@[simp] theorem setSeq_linkAhead (s : State) (n : Nat) (q : SeqSt) : (setSeq s n q).linkAhead = s.linkAhead := rfl
@[simp] theorem setSeq_linkReject (s : State) (n : Nat) (q : SeqSt) : (setSeq s n q).linkReject = s.linkReject := rfl
@[simp] theorem setSeq_evDrop (s : State) (n : Nat) (q : SeqSt) : (setSeq s n q).evDrop = s.evDrop := rfl
@[simp] theorem setSeq_conns (s : State) (n : Nat) (q : SeqSt) : (setSeq s n q).conns = s.conns := rfl
@[simp] theorem setSeq_cache (s : State) (n : Nat) (q : SeqSt) : (setSeq s n q).cache = s.cache := rfl
@[simp] theorem setSeq_loads (s : State) (n : Nat) (q : SeqSt) : (setSeq s n q).loads = s.loads := rfl
@[simp] theorem setSeq_spills (s : State) (n : Nat) (q : SeqSt) : (setSeq s n q).spills = s.spills := rfl
@[simp] theorem setSeq_epochs (s : State) (n : Nat) (q : SeqSt) : (setSeq s n q).epochs = s.epochs := rfl
@[simp] theorem setSeq_regions (s : State) (n : Nat) (q : SeqSt) : (setSeq s n q).regions = s.regions := rfl
@[simp] theorem setSeq_tags (s : State) (n : Nat) (q : SeqSt) : (setSeq s n q).tags = s.tags := rfl
@[simp] theorem setSeq_freeCtr (s : State) (n : Nat) (q : SeqSt) : (setSeq s n q).freeCtr = s.freeCtr := rfl
@[simp] theorem setSeq_powers (s : State) (n : Nat) (q : SeqSt) : (setSeq s n q).powers = s.powers := rfl
@[simp] theorem setSeq_extents (s : State) (n : Nat) (q : SeqSt) : (setSeq s n q).extents = s.extents := rfl
@[simp] theorem setSeq_sqs (s : State) (n : Nat) (q : SeqSt) : (setSeq s n q).sqs = s.sqs := rfl
@[simp] theorem setSeq_cqs (s : State) (n : Nat) (q : SeqSt) : (setSeq s n q).cqs = s.cqs := rfl
@[simp] theorem setSeq_entries (s : State) (n : Nat) (q : SeqSt) : (setSeq s n q).entries = s.entries := rfl
@[simp] theorem setSeq_fetchLast (s : State) (n : Nat) (q : SeqSt) : (setSeq s n q).fetchLast = s.fetchLast := rfl
@[simp] theorem setSeq_shares (s : State) (n : Nat) (q : SeqSt) : (setSeq s n q).shares = s.shares := rfl
@[simp] theorem setSeq_charges (s : State) (n : Nat) (q : SeqSt) : (setSeq s n q).charges = s.charges := rfl
@[simp] theorem setSeq_policies (s : State) (n : Nat) (q : SeqSt) : (setSeq s n q).policies = s.policies := rfl
@[simp] theorem setSeq_wstart (s : State) (n : Nat) (q : SeqSt) : (setSeq s n q).wstart = s.wstart := rfl
@[simp] theorem setSeq_susCnt (s : State) (n : Nat) (q : SeqSt) : (setSeq s n q).susCnt = s.susCnt := rfl
@[simp] theorem setSeq_guarCnt (s : State) (n : Nat) (q : SeqSt) : (setSeq s n q).guarCnt = s.guarCnt := rfl
@[simp] theorem setSeq_lateCnt (s : State) (n : Nat) (q : SeqSt) : (setSeq s n q).lateCnt = s.lateCnt := rfl
@[simp] theorem setSeq_timeoutCnt (s : State) (n : Nat) (q : SeqSt) : (setSeq s n q).timeoutCnt = s.timeoutCnt := rfl
@[simp] theorem setSeq_fchs (s : State) (n : Nat) (q : SeqSt) : (setSeq s n q).fchs = s.fchs := rfl
@[simp] theorem setSeq_keys (s : State) (n : Nat) (q : SeqSt) : (setSeq s n q).keys = s.keys := rfl
@[simp] theorem setSeq_eccHard (s : State) (n : Nat) (q : SeqSt) : (setSeq s n q).eccHard = s.eccHard := rfl
@[simp] theorem setSeq_eccHfail (s : State) (n : Nat) (q : SeqSt) : (setSeq s n q).eccHfail = s.eccHfail := rfl
@[simp] theorem setSeq_eccSoft (s : State) (n : Nat) (q : SeqSt) : (setSeq s n q).eccSoft = s.eccSoft := rfl
@[simp] theorem setSeq_eccSfail (s : State) (n : Nat) (q : SeqSt) : (setSeq s n q).eccSfail = s.eccSfail := rfl
@[simp] theorem setSeq_beads (s : State) (n : Nat) (q : SeqSt) : (setSeq s n q).beads = s.beads := rfl
@[simp] theorem setSeq_badBeads (s : State) (n : Nat) (q : SeqSt) : (setSeq s n q).badBeads = s.badBeads := rfl
@[simp] theorem setSeq_bands (s : State) (n : Nat) (q : SeqSt) : (setSeq s n q).bands = s.bands := rfl
@[simp] theorem setSeq_abaOwn (s : State) (n : Nat) (q : SeqSt) : (setSeq s n q).abaOwn = s.abaOwn := rfl
@[simp] theorem setSeq_abaHit (s : State) (n : Nat) (q : SeqSt) : (setSeq s n q).abaHit = s.abaHit := rfl
@[simp] theorem setSeq_abaBorrow (s : State) (n : Nat) (q : SeqSt) : (setSeq s n q).abaBorrow = s.abaBorrow := rfl
@[simp] theorem setSeq_abaNominal (s : State) (n : Nat) (q : SeqSt) : (setSeq s n q).abaNominal = s.abaNominal := rfl
@[simp] theorem setSeq_fus (s : State) (n : Nat) (q : SeqSt) : (setSeq s n q).fus = s.fus := rfl
@[simp] theorem setSeq_movers (s : State) (n : Nat) (q : SeqSt) : (setSeq s n q).movers = s.movers := rfl
@[simp] theorem setSeq_readPort (s : State) (n : Nat) (q : SeqSt) : (setSeq s n q).readPort = s.readPort := rfl
@[simp] theorem setSeq_writePort (s : State) (n : Nat) (q : SeqSt) : (setSeq s n q).writePort = s.writePort := rfl
@[simp] theorem setSeq_cwyCnt (s : State) (n : Nat) (q : SeqSt) : (setSeq s n q).cwyCnt = s.cwyCnt := rfl
@[simp] theorem setSeq_cwy (s : State) (n : Nat) (q : SeqSt) : (setSeq s n q).cwy = s.cwy := rfl
@[simp] theorem setSeq_cwyBad (s : State) (n : Nat) (q : SeqSt) : (setSeq s n q).cwyBad = s.cwyBad := rfl
@[simp] theorem setSeq_mem (s : State) (n : Nat) (q : SeqSt) : (setSeq s n q).mem = s.mem := rfl
@[simp] theorem setSeq_badMem (s : State) (n : Nat) (q : SeqSt) : (setSeq s n q).badMem = s.badMem := rfl
@[simp] theorem setSeq_retired (s : State) (n : Nat) (q : SeqSt) : (setSeq s n q).retired = s.retired := rfl
@[simp] theorem setSeq_perr (s : State) (n : Nat) (q : SeqSt) : (setSeq s n q).perr = s.perr := rfl
@[simp] theorem setSeq_lastErr (s : State) (n : Nat) (q : SeqSt) : (setSeq s n q).lastErr = s.lastErr := rfl
@[simp] theorem setSeq_scrubs (s : State) (n : Nat) (q : SeqSt) : (setSeq s n q).scrubs = s.scrubs := rfl
@[simp] theorem setSeq_recorder (s : State) (n : Nat) (q : SeqSt) : (setSeq s n q).recorder = s.recorder := rfl
@[simp] theorem setSeq_tag (s : State) (n : Nat) (q : SeqSt) : (setSeq s n q).tag = s.tag := rfl
@[simp] theorem setSeq_pmu (s : State) (n : Nat) (q : SeqSt) : (setSeq s n q).pmu = s.pmu := rfl
@[simp] theorem setSeq_mon (s : State) (n : Nat) (q : SeqSt) : (setSeq s n q).mon = s.mon := rfl
@[simp] theorem setSeq_glb (s : State) (n : Nat) (q : SeqSt) : (setSeq s n q).glb = s.glb := rfl
@[simp] theorem setSeq_boot (s : State) (n : Nat) (q : SeqSt) : (setSeq s n q).boot = s.boot := rfl
@[simp] theorem setSeq_pins (s : State) (n : Nat) (q : SeqSt) : (setSeq s n q).pins = s.pins := rfl

/-! ### setKeySlot -/

@[simp] theorem setKeySlot_pending (s : State) (k : Nat) (v : KeySlot) : (setKeySlot s k v).pending = s.pending := rfl
@[simp] theorem setKeySlot_out (s : State) (k : Nat) (v : KeySlot) : (setKeySlot s k v).out = s.out := rfl
@[simp] theorem setKeySlot_phase (s : State) (k : Nat) (v : KeySlot) : (setKeySlot s k v).phase = s.phase := rfl
@[simp] theorem setKeySlot_now (s : State) (k : Nat) (v : KeySlot) : (setKeySlot s k v).now = s.now := rfl
@[simp] theorem setKeySlot_frames (s : State) (k : Nat) (v : KeySlot) : (setKeySlot s k v).frames = s.frames := rfl
@[simp] theorem setKeySlot_regs (s : State) (k : Nat) (v : KeySlot) : (setKeySlot s k v).regs = s.regs := rfl
@[simp] theorem setKeySlot_hdrs (s : State) (k : Nat) (v : KeySlot) : (setKeySlot s k v).hdrs = s.hdrs := rfl
@[simp] theorem setKeySlot_latches (s : State) (k : Nat) (v : KeySlot) : (setKeySlot s k v).latches = s.latches := rfl
@[simp] theorem setKeySlot_clk (s : State) (k : Nat) (v : KeySlot) : (setKeySlot s k v).clk = s.clk := rfl
@[simp] theorem setKeySlot_segA (s : State) (k : Nat) (v : KeySlot) : (setKeySlot s k v).segA = s.segA := rfl
@[simp] theorem setKeySlot_segB (s : State) (k : Nat) (v : KeySlot) : (setKeySlot s k v).segB = s.segB := rfl
@[simp] theorem setKeySlot_segC (s : State) (k : Nat) (v : KeySlot) : (setKeySlot s k v).segC = s.segC := rfl
@[simp] theorem setKeySlot_links (s : State) (k : Nat) (v : KeySlot) : (setKeySlot s k v).links = s.links := rfl
@[simp] theorem setKeySlot_linkDup (s : State) (k : Nat) (v : KeySlot) : (setKeySlot s k v).linkDup = s.linkDup := rfl
@[simp] theorem setKeySlot_linkAhead (s : State) (k : Nat) (v : KeySlot) : (setKeySlot s k v).linkAhead = s.linkAhead := rfl
@[simp] theorem setKeySlot_linkReject (s : State) (k : Nat) (v : KeySlot) : (setKeySlot s k v).linkReject = s.linkReject := rfl
@[simp] theorem setKeySlot_evDrop (s : State) (k : Nat) (v : KeySlot) : (setKeySlot s k v).evDrop = s.evDrop := rfl
@[simp] theorem setKeySlot_conns (s : State) (k : Nat) (v : KeySlot) : (setKeySlot s k v).conns = s.conns := rfl
@[simp] theorem setKeySlot_cache (s : State) (k : Nat) (v : KeySlot) : (setKeySlot s k v).cache = s.cache := rfl
@[simp] theorem setKeySlot_loads (s : State) (k : Nat) (v : KeySlot) : (setKeySlot s k v).loads = s.loads := rfl
@[simp] theorem setKeySlot_spills (s : State) (k : Nat) (v : KeySlot) : (setKeySlot s k v).spills = s.spills := rfl
@[simp] theorem setKeySlot_epochs (s : State) (k : Nat) (v : KeySlot) : (setKeySlot s k v).epochs = s.epochs := rfl
@[simp] theorem setKeySlot_regions (s : State) (k : Nat) (v : KeySlot) : (setKeySlot s k v).regions = s.regions := rfl
@[simp] theorem setKeySlot_tags (s : State) (k : Nat) (v : KeySlot) : (setKeySlot s k v).tags = s.tags := rfl
@[simp] theorem setKeySlot_freeCtr (s : State) (k : Nat) (v : KeySlot) : (setKeySlot s k v).freeCtr = s.freeCtr := rfl
@[simp] theorem setKeySlot_powers (s : State) (k : Nat) (v : KeySlot) : (setKeySlot s k v).powers = s.powers := rfl
@[simp] theorem setKeySlot_extents (s : State) (k : Nat) (v : KeySlot) : (setKeySlot s k v).extents = s.extents := rfl
@[simp] theorem setKeySlot_sqs (s : State) (k : Nat) (v : KeySlot) : (setKeySlot s k v).sqs = s.sqs := rfl
@[simp] theorem setKeySlot_cqs (s : State) (k : Nat) (v : KeySlot) : (setKeySlot s k v).cqs = s.cqs := rfl
@[simp] theorem setKeySlot_entries (s : State) (k : Nat) (v : KeySlot) : (setKeySlot s k v).entries = s.entries := rfl
@[simp] theorem setKeySlot_fetchLast (s : State) (k : Nat) (v : KeySlot) : (setKeySlot s k v).fetchLast = s.fetchLast := rfl
@[simp] theorem setKeySlot_shares (s : State) (k : Nat) (v : KeySlot) : (setKeySlot s k v).shares = s.shares := rfl
@[simp] theorem setKeySlot_charges (s : State) (k : Nat) (v : KeySlot) : (setKeySlot s k v).charges = s.charges := rfl
@[simp] theorem setKeySlot_policies (s : State) (k : Nat) (v : KeySlot) : (setKeySlot s k v).policies = s.policies := rfl
@[simp] theorem setKeySlot_wstart (s : State) (k : Nat) (v : KeySlot) : (setKeySlot s k v).wstart = s.wstart := rfl
@[simp] theorem setKeySlot_susCnt (s : State) (k : Nat) (v : KeySlot) : (setKeySlot s k v).susCnt = s.susCnt := rfl
@[simp] theorem setKeySlot_guarCnt (s : State) (k : Nat) (v : KeySlot) : (setKeySlot s k v).guarCnt = s.guarCnt := rfl
@[simp] theorem setKeySlot_lateCnt (s : State) (k : Nat) (v : KeySlot) : (setKeySlot s k v).lateCnt = s.lateCnt := rfl
@[simp] theorem setKeySlot_timeoutCnt (s : State) (k : Nat) (v : KeySlot) : (setKeySlot s k v).timeoutCnt = s.timeoutCnt := rfl
@[simp] theorem setKeySlot_fchs (s : State) (k : Nat) (v : KeySlot) : (setKeySlot s k v).fchs = s.fchs := rfl
@[simp] theorem setKeySlot_seqs (s : State) (k : Nat) (v : KeySlot) : (setKeySlot s k v).seqs = s.seqs := rfl
@[simp] theorem setKeySlot_eccHard (s : State) (k : Nat) (v : KeySlot) : (setKeySlot s k v).eccHard = s.eccHard := rfl
@[simp] theorem setKeySlot_eccHfail (s : State) (k : Nat) (v : KeySlot) : (setKeySlot s k v).eccHfail = s.eccHfail := rfl
@[simp] theorem setKeySlot_eccSoft (s : State) (k : Nat) (v : KeySlot) : (setKeySlot s k v).eccSoft = s.eccSoft := rfl
@[simp] theorem setKeySlot_eccSfail (s : State) (k : Nat) (v : KeySlot) : (setKeySlot s k v).eccSfail = s.eccSfail := rfl
@[simp] theorem setKeySlot_beads (s : State) (k : Nat) (v : KeySlot) : (setKeySlot s k v).beads = s.beads := rfl
@[simp] theorem setKeySlot_badBeads (s : State) (k : Nat) (v : KeySlot) : (setKeySlot s k v).badBeads = s.badBeads := rfl
@[simp] theorem setKeySlot_bands (s : State) (k : Nat) (v : KeySlot) : (setKeySlot s k v).bands = s.bands := rfl
@[simp] theorem setKeySlot_abaOwn (s : State) (k : Nat) (v : KeySlot) : (setKeySlot s k v).abaOwn = s.abaOwn := rfl
@[simp] theorem setKeySlot_abaHit (s : State) (k : Nat) (v : KeySlot) : (setKeySlot s k v).abaHit = s.abaHit := rfl
@[simp] theorem setKeySlot_abaBorrow (s : State) (k : Nat) (v : KeySlot) : (setKeySlot s k v).abaBorrow = s.abaBorrow := rfl
@[simp] theorem setKeySlot_abaNominal (s : State) (k : Nat) (v : KeySlot) : (setKeySlot s k v).abaNominal = s.abaNominal := rfl
@[simp] theorem setKeySlot_fus (s : State) (k : Nat) (v : KeySlot) : (setKeySlot s k v).fus = s.fus := rfl
@[simp] theorem setKeySlot_movers (s : State) (k : Nat) (v : KeySlot) : (setKeySlot s k v).movers = s.movers := rfl
@[simp] theorem setKeySlot_readPort (s : State) (k : Nat) (v : KeySlot) : (setKeySlot s k v).readPort = s.readPort := rfl
@[simp] theorem setKeySlot_writePort (s : State) (k : Nat) (v : KeySlot) : (setKeySlot s k v).writePort = s.writePort := rfl
@[simp] theorem setKeySlot_cwyCnt (s : State) (k : Nat) (v : KeySlot) : (setKeySlot s k v).cwyCnt = s.cwyCnt := rfl
@[simp] theorem setKeySlot_cwy (s : State) (k : Nat) (v : KeySlot) : (setKeySlot s k v).cwy = s.cwy := rfl
@[simp] theorem setKeySlot_cwyBad (s : State) (k : Nat) (v : KeySlot) : (setKeySlot s k v).cwyBad = s.cwyBad := rfl
@[simp] theorem setKeySlot_mem (s : State) (k : Nat) (v : KeySlot) : (setKeySlot s k v).mem = s.mem := rfl
@[simp] theorem setKeySlot_badMem (s : State) (k : Nat) (v : KeySlot) : (setKeySlot s k v).badMem = s.badMem := rfl
@[simp] theorem setKeySlot_retired (s : State) (k : Nat) (v : KeySlot) : (setKeySlot s k v).retired = s.retired := rfl
@[simp] theorem setKeySlot_perr (s : State) (k : Nat) (v : KeySlot) : (setKeySlot s k v).perr = s.perr := rfl
@[simp] theorem setKeySlot_lastErr (s : State) (k : Nat) (v : KeySlot) : (setKeySlot s k v).lastErr = s.lastErr := rfl
@[simp] theorem setKeySlot_scrubs (s : State) (k : Nat) (v : KeySlot) : (setKeySlot s k v).scrubs = s.scrubs := rfl
@[simp] theorem setKeySlot_recorder (s : State) (k : Nat) (v : KeySlot) : (setKeySlot s k v).recorder = s.recorder := rfl
@[simp] theorem setKeySlot_tag (s : State) (k : Nat) (v : KeySlot) : (setKeySlot s k v).tag = s.tag := rfl
@[simp] theorem setKeySlot_pmu (s : State) (k : Nat) (v : KeySlot) : (setKeySlot s k v).pmu = s.pmu := rfl
@[simp] theorem setKeySlot_mon (s : State) (k : Nat) (v : KeySlot) : (setKeySlot s k v).mon = s.mon := rfl
@[simp] theorem setKeySlot_glb (s : State) (k : Nat) (v : KeySlot) : (setKeySlot s k v).glb = s.glb := rfl
@[simp] theorem setKeySlot_boot (s : State) (k : Nat) (v : KeySlot) : (setKeySlot s k v).boot = s.boot := rfl
@[simp] theorem setKeySlot_pins (s : State) (k : Nat) (v : KeySlot) : (setKeySlot s k v).pins = s.pins := rfl

/-! ### setBead -/

@[simp] theorem setBead_pending (s : State) (a : Nat) (v : Byte) : (setBead s a v).pending = s.pending := rfl
@[simp] theorem setBead_out (s : State) (a : Nat) (v : Byte) : (setBead s a v).out = s.out := rfl
@[simp] theorem setBead_phase (s : State) (a : Nat) (v : Byte) : (setBead s a v).phase = s.phase := rfl
@[simp] theorem setBead_now (s : State) (a : Nat) (v : Byte) : (setBead s a v).now = s.now := rfl
@[simp] theorem setBead_frames (s : State) (a : Nat) (v : Byte) : (setBead s a v).frames = s.frames := rfl
@[simp] theorem setBead_regs (s : State) (a : Nat) (v : Byte) : (setBead s a v).regs = s.regs := rfl
@[simp] theorem setBead_hdrs (s : State) (a : Nat) (v : Byte) : (setBead s a v).hdrs = s.hdrs := rfl
@[simp] theorem setBead_latches (s : State) (a : Nat) (v : Byte) : (setBead s a v).latches = s.latches := rfl
@[simp] theorem setBead_clk (s : State) (a : Nat) (v : Byte) : (setBead s a v).clk = s.clk := rfl
@[simp] theorem setBead_segA (s : State) (a : Nat) (v : Byte) : (setBead s a v).segA = s.segA := rfl
@[simp] theorem setBead_segB (s : State) (a : Nat) (v : Byte) : (setBead s a v).segB = s.segB := rfl
@[simp] theorem setBead_segC (s : State) (a : Nat) (v : Byte) : (setBead s a v).segC = s.segC := rfl
@[simp] theorem setBead_links (s : State) (a : Nat) (v : Byte) : (setBead s a v).links = s.links := rfl
@[simp] theorem setBead_linkDup (s : State) (a : Nat) (v : Byte) : (setBead s a v).linkDup = s.linkDup := rfl
@[simp] theorem setBead_linkAhead (s : State) (a : Nat) (v : Byte) : (setBead s a v).linkAhead = s.linkAhead := rfl
@[simp] theorem setBead_linkReject (s : State) (a : Nat) (v : Byte) : (setBead s a v).linkReject = s.linkReject := rfl
@[simp] theorem setBead_evDrop (s : State) (a : Nat) (v : Byte) : (setBead s a v).evDrop = s.evDrop := rfl
@[simp] theorem setBead_conns (s : State) (a : Nat) (v : Byte) : (setBead s a v).conns = s.conns := rfl
@[simp] theorem setBead_cache (s : State) (a : Nat) (v : Byte) : (setBead s a v).cache = s.cache := rfl
@[simp] theorem setBead_loads (s : State) (a : Nat) (v : Byte) : (setBead s a v).loads = s.loads := rfl
@[simp] theorem setBead_spills (s : State) (a : Nat) (v : Byte) : (setBead s a v).spills = s.spills := rfl
@[simp] theorem setBead_epochs (s : State) (a : Nat) (v : Byte) : (setBead s a v).epochs = s.epochs := rfl
@[simp] theorem setBead_regions (s : State) (a : Nat) (v : Byte) : (setBead s a v).regions = s.regions := rfl
@[simp] theorem setBead_tags (s : State) (a : Nat) (v : Byte) : (setBead s a v).tags = s.tags := rfl
@[simp] theorem setBead_freeCtr (s : State) (a : Nat) (v : Byte) : (setBead s a v).freeCtr = s.freeCtr := rfl
@[simp] theorem setBead_powers (s : State) (a : Nat) (v : Byte) : (setBead s a v).powers = s.powers := rfl
@[simp] theorem setBead_extents (s : State) (a : Nat) (v : Byte) : (setBead s a v).extents = s.extents := rfl
@[simp] theorem setBead_sqs (s : State) (a : Nat) (v : Byte) : (setBead s a v).sqs = s.sqs := rfl
@[simp] theorem setBead_cqs (s : State) (a : Nat) (v : Byte) : (setBead s a v).cqs = s.cqs := rfl
@[simp] theorem setBead_entries (s : State) (a : Nat) (v : Byte) : (setBead s a v).entries = s.entries := rfl
@[simp] theorem setBead_fetchLast (s : State) (a : Nat) (v : Byte) : (setBead s a v).fetchLast = s.fetchLast := rfl
@[simp] theorem setBead_shares (s : State) (a : Nat) (v : Byte) : (setBead s a v).shares = s.shares := rfl
@[simp] theorem setBead_charges (s : State) (a : Nat) (v : Byte) : (setBead s a v).charges = s.charges := rfl
@[simp] theorem setBead_policies (s : State) (a : Nat) (v : Byte) : (setBead s a v).policies = s.policies := rfl
@[simp] theorem setBead_wstart (s : State) (a : Nat) (v : Byte) : (setBead s a v).wstart = s.wstart := rfl
@[simp] theorem setBead_susCnt (s : State) (a : Nat) (v : Byte) : (setBead s a v).susCnt = s.susCnt := rfl
@[simp] theorem setBead_guarCnt (s : State) (a : Nat) (v : Byte) : (setBead s a v).guarCnt = s.guarCnt := rfl
@[simp] theorem setBead_lateCnt (s : State) (a : Nat) (v : Byte) : (setBead s a v).lateCnt = s.lateCnt := rfl
@[simp] theorem setBead_timeoutCnt (s : State) (a : Nat) (v : Byte) : (setBead s a v).timeoutCnt = s.timeoutCnt := rfl
@[simp] theorem setBead_fchs (s : State) (a : Nat) (v : Byte) : (setBead s a v).fchs = s.fchs := rfl
@[simp] theorem setBead_seqs (s : State) (a : Nat) (v : Byte) : (setBead s a v).seqs = s.seqs := rfl
@[simp] theorem setBead_keys (s : State) (a : Nat) (v : Byte) : (setBead s a v).keys = s.keys := rfl
@[simp] theorem setBead_eccHard (s : State) (a : Nat) (v : Byte) : (setBead s a v).eccHard = s.eccHard := rfl
@[simp] theorem setBead_eccHfail (s : State) (a : Nat) (v : Byte) : (setBead s a v).eccHfail = s.eccHfail := rfl
@[simp] theorem setBead_eccSoft (s : State) (a : Nat) (v : Byte) : (setBead s a v).eccSoft = s.eccSoft := rfl
@[simp] theorem setBead_eccSfail (s : State) (a : Nat) (v : Byte) : (setBead s a v).eccSfail = s.eccSfail := rfl
@[simp] theorem setBead_bands (s : State) (a : Nat) (v : Byte) : (setBead s a v).bands = s.bands := rfl
@[simp] theorem setBead_abaOwn (s : State) (a : Nat) (v : Byte) : (setBead s a v).abaOwn = s.abaOwn := rfl
@[simp] theorem setBead_abaHit (s : State) (a : Nat) (v : Byte) : (setBead s a v).abaHit = s.abaHit := rfl
@[simp] theorem setBead_abaBorrow (s : State) (a : Nat) (v : Byte) : (setBead s a v).abaBorrow = s.abaBorrow := rfl
@[simp] theorem setBead_abaNominal (s : State) (a : Nat) (v : Byte) : (setBead s a v).abaNominal = s.abaNominal := rfl
@[simp] theorem setBead_fus (s : State) (a : Nat) (v : Byte) : (setBead s a v).fus = s.fus := rfl
@[simp] theorem setBead_movers (s : State) (a : Nat) (v : Byte) : (setBead s a v).movers = s.movers := rfl
@[simp] theorem setBead_readPort (s : State) (a : Nat) (v : Byte) : (setBead s a v).readPort = s.readPort := rfl
@[simp] theorem setBead_writePort (s : State) (a : Nat) (v : Byte) : (setBead s a v).writePort = s.writePort := rfl
@[simp] theorem setBead_cwyCnt (s : State) (a : Nat) (v : Byte) : (setBead s a v).cwyCnt = s.cwyCnt := rfl
@[simp] theorem setBead_cwy (s : State) (a : Nat) (v : Byte) : (setBead s a v).cwy = s.cwy := rfl
@[simp] theorem setBead_cwyBad (s : State) (a : Nat) (v : Byte) : (setBead s a v).cwyBad = s.cwyBad := rfl
@[simp] theorem setBead_mem (s : State) (a : Nat) (v : Byte) : (setBead s a v).mem = s.mem := rfl
@[simp] theorem setBead_badMem (s : State) (a : Nat) (v : Byte) : (setBead s a v).badMem = s.badMem := rfl
@[simp] theorem setBead_retired (s : State) (a : Nat) (v : Byte) : (setBead s a v).retired = s.retired := rfl
@[simp] theorem setBead_perr (s : State) (a : Nat) (v : Byte) : (setBead s a v).perr = s.perr := rfl
@[simp] theorem setBead_lastErr (s : State) (a : Nat) (v : Byte) : (setBead s a v).lastErr = s.lastErr := rfl
@[simp] theorem setBead_scrubs (s : State) (a : Nat) (v : Byte) : (setBead s a v).scrubs = s.scrubs := rfl
@[simp] theorem setBead_recorder (s : State) (a : Nat) (v : Byte) : (setBead s a v).recorder = s.recorder := rfl
@[simp] theorem setBead_tag (s : State) (a : Nat) (v : Byte) : (setBead s a v).tag = s.tag := rfl
@[simp] theorem setBead_pmu (s : State) (a : Nat) (v : Byte) : (setBead s a v).pmu = s.pmu := rfl
@[simp] theorem setBead_mon (s : State) (a : Nat) (v : Byte) : (setBead s a v).mon = s.mon := rfl
@[simp] theorem setBead_glb (s : State) (a : Nat) (v : Byte) : (setBead s a v).glb = s.glb := rfl
@[simp] theorem setBead_boot (s : State) (a : Nat) (v : Byte) : (setBead s a v).boot = s.boot := rfl
@[simp] theorem setBead_pins (s : State) (a : Nat) (v : Byte) : (setBead s a v).pins = s.pins := rfl

/-! ### setMov -/

@[simp] theorem setMov_pending (s : State) (n : Nat) (m : Mover) : (setMov s n m).pending = s.pending := rfl
@[simp] theorem setMov_out (s : State) (n : Nat) (m : Mover) : (setMov s n m).out = s.out := rfl
@[simp] theorem setMov_phase (s : State) (n : Nat) (m : Mover) : (setMov s n m).phase = s.phase := rfl
@[simp] theorem setMov_now (s : State) (n : Nat) (m : Mover) : (setMov s n m).now = s.now := rfl
@[simp] theorem setMov_frames (s : State) (n : Nat) (m : Mover) : (setMov s n m).frames = s.frames := rfl
@[simp] theorem setMov_regs (s : State) (n : Nat) (m : Mover) : (setMov s n m).regs = s.regs := rfl
@[simp] theorem setMov_hdrs (s : State) (n : Nat) (m : Mover) : (setMov s n m).hdrs = s.hdrs := rfl
@[simp] theorem setMov_latches (s : State) (n : Nat) (m : Mover) : (setMov s n m).latches = s.latches := rfl
@[simp] theorem setMov_clk (s : State) (n : Nat) (m : Mover) : (setMov s n m).clk = s.clk := rfl
@[simp] theorem setMov_segA (s : State) (n : Nat) (m : Mover) : (setMov s n m).segA = s.segA := rfl
@[simp] theorem setMov_segB (s : State) (n : Nat) (m : Mover) : (setMov s n m).segB = s.segB := rfl
@[simp] theorem setMov_segC (s : State) (n : Nat) (m : Mover) : (setMov s n m).segC = s.segC := rfl
@[simp] theorem setMov_links (s : State) (n : Nat) (m : Mover) : (setMov s n m).links = s.links := rfl
@[simp] theorem setMov_linkDup (s : State) (n : Nat) (m : Mover) : (setMov s n m).linkDup = s.linkDup := rfl
@[simp] theorem setMov_linkAhead (s : State) (n : Nat) (m : Mover) : (setMov s n m).linkAhead = s.linkAhead := rfl
@[simp] theorem setMov_linkReject (s : State) (n : Nat) (m : Mover) : (setMov s n m).linkReject = s.linkReject := rfl
@[simp] theorem setMov_evDrop (s : State) (n : Nat) (m : Mover) : (setMov s n m).evDrop = s.evDrop := rfl
@[simp] theorem setMov_conns (s : State) (n : Nat) (m : Mover) : (setMov s n m).conns = s.conns := rfl
@[simp] theorem setMov_cache (s : State) (n : Nat) (m : Mover) : (setMov s n m).cache = s.cache := rfl
@[simp] theorem setMov_loads (s : State) (n : Nat) (m : Mover) : (setMov s n m).loads = s.loads := rfl
@[simp] theorem setMov_spills (s : State) (n : Nat) (m : Mover) : (setMov s n m).spills = s.spills := rfl
@[simp] theorem setMov_epochs (s : State) (n : Nat) (m : Mover) : (setMov s n m).epochs = s.epochs := rfl
@[simp] theorem setMov_regions (s : State) (n : Nat) (m : Mover) : (setMov s n m).regions = s.regions := rfl
@[simp] theorem setMov_tags (s : State) (n : Nat) (m : Mover) : (setMov s n m).tags = s.tags := rfl
@[simp] theorem setMov_freeCtr (s : State) (n : Nat) (m : Mover) : (setMov s n m).freeCtr = s.freeCtr := rfl
@[simp] theorem setMov_powers (s : State) (n : Nat) (m : Mover) : (setMov s n m).powers = s.powers := rfl
@[simp] theorem setMov_extents (s : State) (n : Nat) (m : Mover) : (setMov s n m).extents = s.extents := rfl
@[simp] theorem setMov_sqs (s : State) (n : Nat) (m : Mover) : (setMov s n m).sqs = s.sqs := rfl
@[simp] theorem setMov_cqs (s : State) (n : Nat) (m : Mover) : (setMov s n m).cqs = s.cqs := rfl
@[simp] theorem setMov_entries (s : State) (n : Nat) (m : Mover) : (setMov s n m).entries = s.entries := rfl
@[simp] theorem setMov_fetchLast (s : State) (n : Nat) (m : Mover) : (setMov s n m).fetchLast = s.fetchLast := rfl
@[simp] theorem setMov_shares (s : State) (n : Nat) (m : Mover) : (setMov s n m).shares = s.shares := rfl
@[simp] theorem setMov_charges (s : State) (n : Nat) (m : Mover) : (setMov s n m).charges = s.charges := rfl
@[simp] theorem setMov_policies (s : State) (n : Nat) (m : Mover) : (setMov s n m).policies = s.policies := rfl
@[simp] theorem setMov_wstart (s : State) (n : Nat) (m : Mover) : (setMov s n m).wstart = s.wstart := rfl
@[simp] theorem setMov_susCnt (s : State) (n : Nat) (m : Mover) : (setMov s n m).susCnt = s.susCnt := rfl
@[simp] theorem setMov_guarCnt (s : State) (n : Nat) (m : Mover) : (setMov s n m).guarCnt = s.guarCnt := rfl
@[simp] theorem setMov_lateCnt (s : State) (n : Nat) (m : Mover) : (setMov s n m).lateCnt = s.lateCnt := rfl
@[simp] theorem setMov_timeoutCnt (s : State) (n : Nat) (m : Mover) : (setMov s n m).timeoutCnt = s.timeoutCnt := rfl
@[simp] theorem setMov_fchs (s : State) (n : Nat) (m : Mover) : (setMov s n m).fchs = s.fchs := rfl
@[simp] theorem setMov_seqs (s : State) (n : Nat) (m : Mover) : (setMov s n m).seqs = s.seqs := rfl
@[simp] theorem setMov_keys (s : State) (n : Nat) (m : Mover) : (setMov s n m).keys = s.keys := rfl
@[simp] theorem setMov_eccHard (s : State) (n : Nat) (m : Mover) : (setMov s n m).eccHard = s.eccHard := rfl
@[simp] theorem setMov_eccHfail (s : State) (n : Nat) (m : Mover) : (setMov s n m).eccHfail = s.eccHfail := rfl
@[simp] theorem setMov_eccSoft (s : State) (n : Nat) (m : Mover) : (setMov s n m).eccSoft = s.eccSoft := rfl
@[simp] theorem setMov_eccSfail (s : State) (n : Nat) (m : Mover) : (setMov s n m).eccSfail = s.eccSfail := rfl
@[simp] theorem setMov_beads (s : State) (n : Nat) (m : Mover) : (setMov s n m).beads = s.beads := rfl
@[simp] theorem setMov_badBeads (s : State) (n : Nat) (m : Mover) : (setMov s n m).badBeads = s.badBeads := rfl
@[simp] theorem setMov_bands (s : State) (n : Nat) (m : Mover) : (setMov s n m).bands = s.bands := rfl
@[simp] theorem setMov_abaOwn (s : State) (n : Nat) (m : Mover) : (setMov s n m).abaOwn = s.abaOwn := rfl
@[simp] theorem setMov_abaHit (s : State) (n : Nat) (m : Mover) : (setMov s n m).abaHit = s.abaHit := rfl
@[simp] theorem setMov_abaBorrow (s : State) (n : Nat) (m : Mover) : (setMov s n m).abaBorrow = s.abaBorrow := rfl
@[simp] theorem setMov_abaNominal (s : State) (n : Nat) (m : Mover) : (setMov s n m).abaNominal = s.abaNominal := rfl
@[simp] theorem setMov_fus (s : State) (n : Nat) (m : Mover) : (setMov s n m).fus = s.fus := rfl
@[simp] theorem setMov_readPort (s : State) (n : Nat) (m : Mover) : (setMov s n m).readPort = s.readPort := rfl
@[simp] theorem setMov_writePort (s : State) (n : Nat) (m : Mover) : (setMov s n m).writePort = s.writePort := rfl
@[simp] theorem setMov_cwyCnt (s : State) (n : Nat) (m : Mover) : (setMov s n m).cwyCnt = s.cwyCnt := rfl
@[simp] theorem setMov_cwy (s : State) (n : Nat) (m : Mover) : (setMov s n m).cwy = s.cwy := rfl
@[simp] theorem setMov_cwyBad (s : State) (n : Nat) (m : Mover) : (setMov s n m).cwyBad = s.cwyBad := rfl
@[simp] theorem setMov_mem (s : State) (n : Nat) (m : Mover) : (setMov s n m).mem = s.mem := rfl
@[simp] theorem setMov_badMem (s : State) (n : Nat) (m : Mover) : (setMov s n m).badMem = s.badMem := rfl
@[simp] theorem setMov_retired (s : State) (n : Nat) (m : Mover) : (setMov s n m).retired = s.retired := rfl
@[simp] theorem setMov_perr (s : State) (n : Nat) (m : Mover) : (setMov s n m).perr = s.perr := rfl
@[simp] theorem setMov_lastErr (s : State) (n : Nat) (m : Mover) : (setMov s n m).lastErr = s.lastErr := rfl
@[simp] theorem setMov_scrubs (s : State) (n : Nat) (m : Mover) : (setMov s n m).scrubs = s.scrubs := rfl
@[simp] theorem setMov_recorder (s : State) (n : Nat) (m : Mover) : (setMov s n m).recorder = s.recorder := rfl
@[simp] theorem setMov_tag (s : State) (n : Nat) (m : Mover) : (setMov s n m).tag = s.tag := rfl
@[simp] theorem setMov_pmu (s : State) (n : Nat) (m : Mover) : (setMov s n m).pmu = s.pmu := rfl
@[simp] theorem setMov_mon (s : State) (n : Nat) (m : Mover) : (setMov s n m).mon = s.mon := rfl
@[simp] theorem setMov_glb (s : State) (n : Nat) (m : Mover) : (setMov s n m).glb = s.glb := rfl
@[simp] theorem setMov_boot (s : State) (n : Nat) (m : Mover) : (setMov s n m).boot = s.boot := rfl
@[simp] theorem setMov_pins (s : State) (n : Nat) (m : Mover) : (setMov s n m).pins = s.pins := rfl

/-! ### setTile -/

@[simp] theorem setTile_pending (s : State) (k : Nat) (x : Tile) : (setTile s k x).pending = s.pending := rfl
@[simp] theorem setTile_out (s : State) (k : Nat) (x : Tile) : (setTile s k x).out = s.out := rfl
@[simp] theorem setTile_phase (s : State) (k : Nat) (x : Tile) : (setTile s k x).phase = s.phase := rfl
@[simp] theorem setTile_now (s : State) (k : Nat) (x : Tile) : (setTile s k x).now = s.now := rfl
@[simp] theorem setTile_frames (s : State) (k : Nat) (x : Tile) : (setTile s k x).frames = s.frames := rfl
@[simp] theorem setTile_regs (s : State) (k : Nat) (x : Tile) : (setTile s k x).regs = s.regs := rfl
@[simp] theorem setTile_hdrs (s : State) (k : Nat) (x : Tile) : (setTile s k x).hdrs = s.hdrs := rfl
@[simp] theorem setTile_latches (s : State) (k : Nat) (x : Tile) : (setTile s k x).latches = s.latches := rfl
@[simp] theorem setTile_clk (s : State) (k : Nat) (x : Tile) : (setTile s k x).clk = s.clk := rfl
@[simp] theorem setTile_segA (s : State) (k : Nat) (x : Tile) : (setTile s k x).segA = s.segA := rfl
@[simp] theorem setTile_segB (s : State) (k : Nat) (x : Tile) : (setTile s k x).segB = s.segB := rfl
@[simp] theorem setTile_segC (s : State) (k : Nat) (x : Tile) : (setTile s k x).segC = s.segC := rfl
@[simp] theorem setTile_links (s : State) (k : Nat) (x : Tile) : (setTile s k x).links = s.links := rfl
@[simp] theorem setTile_linkDup (s : State) (k : Nat) (x : Tile) : (setTile s k x).linkDup = s.linkDup := rfl
@[simp] theorem setTile_linkAhead (s : State) (k : Nat) (x : Tile) : (setTile s k x).linkAhead = s.linkAhead := rfl
@[simp] theorem setTile_linkReject (s : State) (k : Nat) (x : Tile) : (setTile s k x).linkReject = s.linkReject := rfl
@[simp] theorem setTile_evDrop (s : State) (k : Nat) (x : Tile) : (setTile s k x).evDrop = s.evDrop := rfl
@[simp] theorem setTile_conns (s : State) (k : Nat) (x : Tile) : (setTile s k x).conns = s.conns := rfl
@[simp] theorem setTile_cache (s : State) (k : Nat) (x : Tile) : (setTile s k x).cache = s.cache := rfl
@[simp] theorem setTile_loads (s : State) (k : Nat) (x : Tile) : (setTile s k x).loads = s.loads := rfl
@[simp] theorem setTile_spills (s : State) (k : Nat) (x : Tile) : (setTile s k x).spills = s.spills := rfl
@[simp] theorem setTile_epochs (s : State) (k : Nat) (x : Tile) : (setTile s k x).epochs = s.epochs := rfl
@[simp] theorem setTile_regions (s : State) (k : Nat) (x : Tile) : (setTile s k x).regions = s.regions := rfl
@[simp] theorem setTile_tags (s : State) (k : Nat) (x : Tile) : (setTile s k x).tags = s.tags := rfl
@[simp] theorem setTile_freeCtr (s : State) (k : Nat) (x : Tile) : (setTile s k x).freeCtr = s.freeCtr := rfl
@[simp] theorem setTile_powers (s : State) (k : Nat) (x : Tile) : (setTile s k x).powers = s.powers := rfl
@[simp] theorem setTile_extents (s : State) (k : Nat) (x : Tile) : (setTile s k x).extents = s.extents := rfl
@[simp] theorem setTile_sqs (s : State) (k : Nat) (x : Tile) : (setTile s k x).sqs = s.sqs := rfl
@[simp] theorem setTile_cqs (s : State) (k : Nat) (x : Tile) : (setTile s k x).cqs = s.cqs := rfl
@[simp] theorem setTile_entries (s : State) (k : Nat) (x : Tile) : (setTile s k x).entries = s.entries := rfl
@[simp] theorem setTile_fetchLast (s : State) (k : Nat) (x : Tile) : (setTile s k x).fetchLast = s.fetchLast := rfl
@[simp] theorem setTile_shares (s : State) (k : Nat) (x : Tile) : (setTile s k x).shares = s.shares := rfl
@[simp] theorem setTile_charges (s : State) (k : Nat) (x : Tile) : (setTile s k x).charges = s.charges := rfl
@[simp] theorem setTile_policies (s : State) (k : Nat) (x : Tile) : (setTile s k x).policies = s.policies := rfl
@[simp] theorem setTile_wstart (s : State) (k : Nat) (x : Tile) : (setTile s k x).wstart = s.wstart := rfl
@[simp] theorem setTile_susCnt (s : State) (k : Nat) (x : Tile) : (setTile s k x).susCnt = s.susCnt := rfl
@[simp] theorem setTile_guarCnt (s : State) (k : Nat) (x : Tile) : (setTile s k x).guarCnt = s.guarCnt := rfl
@[simp] theorem setTile_lateCnt (s : State) (k : Nat) (x : Tile) : (setTile s k x).lateCnt = s.lateCnt := rfl
@[simp] theorem setTile_timeoutCnt (s : State) (k : Nat) (x : Tile) : (setTile s k x).timeoutCnt = s.timeoutCnt := rfl
@[simp] theorem setTile_fchs (s : State) (k : Nat) (x : Tile) : (setTile s k x).fchs = s.fchs := rfl
@[simp] theorem setTile_seqs (s : State) (k : Nat) (x : Tile) : (setTile s k x).seqs = s.seqs := rfl
@[simp] theorem setTile_keys (s : State) (k : Nat) (x : Tile) : (setTile s k x).keys = s.keys := rfl
@[simp] theorem setTile_eccHard (s : State) (k : Nat) (x : Tile) : (setTile s k x).eccHard = s.eccHard := rfl
@[simp] theorem setTile_eccHfail (s : State) (k : Nat) (x : Tile) : (setTile s k x).eccHfail = s.eccHfail := rfl
@[simp] theorem setTile_eccSoft (s : State) (k : Nat) (x : Tile) : (setTile s k x).eccSoft = s.eccSoft := rfl
@[simp] theorem setTile_eccSfail (s : State) (k : Nat) (x : Tile) : (setTile s k x).eccSfail = s.eccSfail := rfl
@[simp] theorem setTile_beads (s : State) (k : Nat) (x : Tile) : (setTile s k x).beads = s.beads := rfl
@[simp] theorem setTile_badBeads (s : State) (k : Nat) (x : Tile) : (setTile s k x).badBeads = s.badBeads := rfl
@[simp] theorem setTile_bands (s : State) (k : Nat) (x : Tile) : (setTile s k x).bands = s.bands := rfl
@[simp] theorem setTile_abaOwn (s : State) (k : Nat) (x : Tile) : (setTile s k x).abaOwn = s.abaOwn := rfl
@[simp] theorem setTile_abaHit (s : State) (k : Nat) (x : Tile) : (setTile s k x).abaHit = s.abaHit := rfl
@[simp] theorem setTile_abaBorrow (s : State) (k : Nat) (x : Tile) : (setTile s k x).abaBorrow = s.abaBorrow := rfl
@[simp] theorem setTile_abaNominal (s : State) (k : Nat) (x : Tile) : (setTile s k x).abaNominal = s.abaNominal := rfl
@[simp] theorem setTile_fus (s : State) (k : Nat) (x : Tile) : (setTile s k x).fus = s.fus := rfl
@[simp] theorem setTile_movers (s : State) (k : Nat) (x : Tile) : (setTile s k x).movers = s.movers := rfl
@[simp] theorem setTile_readPort (s : State) (k : Nat) (x : Tile) : (setTile s k x).readPort = s.readPort := rfl
@[simp] theorem setTile_writePort (s : State) (k : Nat) (x : Tile) : (setTile s k x).writePort = s.writePort := rfl
@[simp] theorem setTile_cwyCnt (s : State) (k : Nat) (x : Tile) : (setTile s k x).cwyCnt = s.cwyCnt := rfl
@[simp] theorem setTile_cwy (s : State) (k : Nat) (x : Tile) : (setTile s k x).cwy = s.cwy := rfl
@[simp] theorem setTile_cwyBad (s : State) (k : Nat) (x : Tile) : (setTile s k x).cwyBad = s.cwyBad := rfl
@[simp] theorem setTile_mem (s : State) (k : Nat) (x : Tile) : (setTile s k x).mem = s.mem := rfl
@[simp] theorem setTile_badMem (s : State) (k : Nat) (x : Tile) : (setTile s k x).badMem = s.badMem := rfl
@[simp] theorem setTile_retired (s : State) (k : Nat) (x : Tile) : (setTile s k x).retired = s.retired := rfl
@[simp] theorem setTile_perr (s : State) (k : Nat) (x : Tile) : (setTile s k x).perr = s.perr := rfl
@[simp] theorem setTile_lastErr (s : State) (k : Nat) (x : Tile) : (setTile s k x).lastErr = s.lastErr := rfl
@[simp] theorem setTile_scrubs (s : State) (k : Nat) (x : Tile) : (setTile s k x).scrubs = s.scrubs := rfl
@[simp] theorem setTile_recorder (s : State) (k : Nat) (x : Tile) : (setTile s k x).recorder = s.recorder := rfl
@[simp] theorem setTile_pmu (s : State) (k : Nat) (x : Tile) : (setTile s k x).pmu = s.pmu := rfl
@[simp] theorem setTile_mon (s : State) (k : Nat) (x : Tile) : (setTile s k x).mon = s.mon := rfl
@[simp] theorem setTile_glb (s : State) (k : Nat) (x : Tile) : (setTile s k x).glb = s.glb := rfl
@[simp] theorem setTile_boot (s : State) (k : Nat) (x : Tile) : (setTile s k x).boot = s.boot := rfl
@[simp] theorem setTile_pins (s : State) (k : Nat) (x : Tile) : (setTile s k x).pins = s.pins := rfl

/-! ### Read-back -/

theorem emit_out (s : State) (x : Output) : (emit s x).out = s.out ++ [x] := rfl
theorem regSet_regs (s : State) (b o : Nat) (v : W64) : (regSet s b o v).regs = tset s.regs (regAddr b o) v := rfl
theorem setHdr_hdrs (s : State) (b : Nat) (h : Hdr) : (setHdr s b h).hdrs = tset s.hdrs b h := rfl
theorem setLink_links (s : State) (n : BitVec 6) (l : LinkSt) : (setLink s n l).links = tset s.links n.toNat l := rfl
theorem setFch_fchs (s : State) (c : Nat) (f : Fch) : (setFch s c f).fchs = tset s.fchs c f := rfl
theorem setSeq_seqs (s : State) (n : Nat) (q : SeqSt) : (setSeq s n q).seqs = tset s.seqs n q := rfl
theorem setKeySlot_keys (s : State) (k : Nat) (v : KeySlot) : (setKeySlot s k v).keys = tset s.keys k v := rfl
theorem setMov_movers (s : State) (n : Nat) (m : Mover) : (setMov s n m).movers = tset s.movers n m := rfl
theorem setTile_tag (s : State) (k : Nat) (x : Tile) : (setTile s k x).tag = { s.tag with tiles := tset s.tag.tiles k x } := rfl

@[simp] theorem linkOf_setLink_self (s : State) (n : BitVec 6) (l : LinkSt) : linkOf (setLink s n l) n = l := by
  simp [linkOf, setLink]
@[simp] theorem fchOf_setFch_self (s : State) (c : Nat) (f : Fch) : fchOf (setFch s c f) c = f := by
  simp [fchOf, setFch]
@[simp] theorem lunOf_setLun_self (s : State) (l : Nat) (v : LunSt) : lunOf (setLun s l v) l = v := by
  simp [lunOf, setLun, fchOf, setFch]
theorem fchOf_setFch_ne (s : State) {c k : Nat} (f : Fch) (h : k ≠ c) : fchOf (setFch s c f) k = fchOf s k := by
  simp [fchOf, setFch, tgetD_tset_ne _ _ _ h]
@[simp] theorem seqOf_setSeq_self (s : State) (n : Nat) (q : SeqSt) : seqOf (setSeq s n q) n = q := by
  simp [seqOf, setSeq]
theorem seqOf_setSeq_ne (s : State) {n k : Nat} (q : SeqSt) (h : k ≠ n) : seqOf (setSeq s n q) k = seqOf s k := by
  simp [seqOf, setSeq, tgetD_tset_ne _ _ _ h]
@[simp] theorem keySlot_setKeySlot_self (s : State) (k : Nat) (v : KeySlot) : keySlot (setKeySlot s k v) k = v := by
  simp [keySlot, setKeySlot]
theorem keySlot_setKeySlot_ne (s : State) {k j : Nat} (v : KeySlot) (h : j ≠ k) : keySlot (setKeySlot s k v) j = keySlot s j := by
  simp [keySlot, setKeySlot, tgetD_tset_ne _ _ _ h]
@[simp] theorem tileOf_setTile_self (s : State) (k : Nat) (x : Tile) : tileOf (setTile s k x) k = x := by
  simp [tileOf, setTile]
theorem tileOf_setTile_ne (s : State) {k j : Nat} (x : Tile) (h : j ≠ k) : tileOf (setTile s k x) j = tileOf s j := by
  simp [tileOf, setTile, tgetD_tset_ne _ _ _ h]

end Sys2Proof.Machine
end

