-- ==== Sys2Proof/Tests/Slice0.lean ====
section
/-! SUPPORT. Tests: the commands WellFormed refuses, small steps against the manual's own values, and for every statement a
state and operands that meet its hypotheses. -/

namespace Sys2Proof.Tests

set_option Elab.async false
set_option linter.all false

open Sys2Proof.Machine

/-! ### States and packets -/

/-- Frame time runs at frame 5, slot 3; segments as reset; C aligned. -/
def t0 : State :=
  { State.reset with
    phase := .running, now := ⟨5, 2, 0⟩, frames := 100
    clk := { locked := true, noTime := false, tk := some ⟨0, 1⟩, srcs := [(1, { state := .timekeeper, lastSeq := some 6 })] }
    segC := { aligned := 0xF }, glb := { ready := true, phase := 6 } }

/-- A clean packet of 40 characters from node 1 in its UP slot of segment A. -/
def rxA : Rx := { seg := .a, slot := 2, edge := 0, air := 640, node := 1, ackv := false, retx := false, lseq := 0, lack := 0 }

/-- The same from node 1 of segment A in the join slot 63. -/
def rxJ : Rx := { rxA with slot := 63 }

/-- Node 1 of segment A has joined with nonce 9. -/
def joined1 (s : State) : State :=
  { s with segA := { s.segA with nodes := [(1, { state := .joined, joined := true, nonce := 9, lastGood := 100 })] } }

def t1 : State := joined1 t0

/-- A connection of domain 0 from node 1, with every credit free and its run in place. -/
def conn0 : Conn :=
  { d := 0, events := true, pinned := false, node := 1, grant := 64, used := 0, nonce := 7, exp := 5, openFrame := 2, base := 0x700000, len := 25984 }

/-- Connection 0 is open and its context cached. -/
def t2 : State := { t1 with conns := [(0, conn0)], cache := [0] }

def rq0 : Req := { rx := rxA, conn := 0, rseq := 5 }

/-- The queue with one command. -/
def withFront (c : Instr) (s : State) : State := { s with pending := [c] }

/-- What a step answers, when it answers next. -/
def after (c : Instr) (s : State) : Option State :=
  match exec c s with
  | .next t => some t
  | _ => none

/-- A property of the state a command leaves. -/
def leaves (c : Instr) (s : State) (p : State → Bool) : Bool :=
  match exec c s with
  | .next t => p t
  | _ => false

/-! ### Ill-formed commands -/

theorem wf_refuses_short_packet : (Instr.ack { rxA with air := 480 }).wf = false := by decide
theorem wf_refuses_join_short_packet : (Instr.join { rxA with air := 5000 } 1 0).wf = false := by decide
theorem wf_refuses_range_short_packet : (Instr.range { rxA with air := 0 } 1 0).wf = false := by decide
theorem wf_refuses_tick_short_packet : (Instr.tick { rxA with air := 0 } 1 0 0).wf = false := by decide
theorem wf_refuses_rejected_short_packet : (Instr.packetRejected { rxA with air := 0 } (List.replicate 16 0)).wf = false ∧
    (Instr.packetRejected rxA (List.replicate 15 0)).wf = false ∧ (Instr.packetRejected rxA (List.replicate 273 0)).wf = false := by
  decide +kernel
theorem wf_refuses_undamaged_reception : (Instr.erroredReception rxA {} false).wf = false := by decide
theorem wf_refuses_credits : (Instr.openConn rxA 0 0 0 true false 0 0).wf = false ∧
    (Instr.openConn rxA 0 0 0 true false 65 0).wf = false ∧ (Instr.openConn rxA 0 0 0 true false 64 0).wf = true := by decide
theorem wf_refuses_close_packet : (Instr.close { rq0 with rx := { rxA with air := 0 } }).wf = false := by decide
theorem wf_refuses_write_length : (Instr.regionWrite rq0 0 0 []).wf = false ∧
    (Instr.regionWrite rq0 0 0 (List.replicate 257 0)).wf = false ∧ (Instr.regionWrite rq0 0 0 (List.replicate 256 0)).wf = true := by
  decide +kernel
theorem wf_refuses_read_length : (Instr.regionRead rq0 0 0 0).wf = false ∧ (Instr.regionRead rq0 0 0 257).wf = false := by decide
theorem wf_refuses_register_address : (Instr.regWrite rq0 0x0004 0).wf = false ∧ (Instr.regRead rq0 0x0081 0).wf = false ∧
    (Instr.snapshotLatch 0 2).wf = false ∧ (Instr.registerWrite 0 1 0).wf = false := by decide
theorem wf_refuses_doorbell_packet : (Instr.doorbell { rq0 with rx := { rxA with air := 0 } } 0 0).wf = false := by decide
theorem wf_refuses_send_length : (Instr.send rq0 0 []).wf = false := by decide
theorem wf_refuses_posts : (Instr.post rq0 []).wf = false ∧ (Instr.post rq0 (List.replicate 9 0)).wf = false ∧
    (Instr.post rq0 [0x80000000000000]).wf = false := by decide
theorem wf_refuses_parameter_page : (Instr.paramRead ⟨0, 0⟩ (List.replicate 4097 0) true).wf = false := by decide +kernel
theorem wf_refuses_codeword : (Instr.sectorDecoded ⟨0, 0⟩ false 0 0 false ⟨true, [], [], 0, 0, 0⟩).wf = false := by decide
theorem wf_refuses_nine_targets : (Instr.channelDiscovery 0 0 (List.replicate 9 ⟨true, false, 0, 1, 1, 1, 1, 1, 0, 0, false, false, false, [], 0⟩)).wf = false ∧
    (Instr.discoveryRbTimeout 0 0 (List.replicate 9 ⟨true, false, 0, 1, 1, 1, 1, 1, 0, 0, false, false, false, [], 0⟩) 0).wf = false := by decide
theorem wf_refuses_long_mask : (Instr.inventory false none (List.replicate 65 true)).wf = false := by decide
theorem wf_refuses_block_number : (Instr.readSingleBlock .all false false 256).wf = false ∧
    (Instr.readMultipleBlocks .all false false 256 0).wf = false ∧ (Instr.writeSingleBlock .all false 256 0).wf = false ∧
    (Instr.readSingleBlock .all true false 256).wf = true := by decide
theorem wf_refuses_eight_readings : (Instr.temperatureConversion (List.replicate 8 0)).wf = false := by decide

/-! ### Witnesses: the machine -/

theorem witness_StepRunsTheFrontCommand : (withFront .powerState t0).pending = .powerState :: [] := rfl

theorem witness_QueueIsFirstInFirstOut :
    (t0.pending = [] ∧ running t0 = true ∧ t0.now.sub.toNat < 6249) ∧
    (running { t0 with now := ⟨5, 62, 6249⟩ } = true ∧ (6249 : BitVec 26).toNat = 6249 ∧ (62 : BitVec 6).toNat < 63) ∧
    (running { t0 with now := ⟨5, 63, 6249⟩ } = true) ∧ running State.reset = false ∧
    exec .freezeExpiry State.reset = .next State.reset := by
  refine ⟨?_, ?_, ?_, ?_, rfl⟩ <;> decide +kernel

theorem witness_MemoryStaysCanonical :
    Memory.wf { t0 with mem := [(0, 1), (2 ^ 23 - 1, 2)] } ∧ step State.reset = .next State.reset := ⟨by decide +kernel, rfl⟩

theorem witness_Fuses :
    fuseTargetBlank { t0.fus with busy := some (0, 0, [1]) } ∧
    (∃ t, step { withFront (.fuseProgrammed true) t0 with fus := { busy := some (0, 0, [1]) } } = .next t) ∧
    ¬ fuseTargetBlank { arb := 5, busy := some (12, 4, []) } ∧ fuseTargetBlank { arb := 5, busy := some (12, 5, []) } := by
  refine ⟨rfl, ⟨_, rfl⟩, ?_, ?_⟩
  · show ¬ (5 ≤ 4); decide
  · show (5 ≤ 5); decide

theorem witness_OccurrenceIsRecorded : isEventOnly 0x901 = false ∧ (0x901 : BitVec 12) ≠ 0x113 ∧ evsBitOf blkREC 0x901 ≠ none ∧
    (hdr t0 blkREC).eve = 0 := by decide +kernel

theorem witness_CopyTakesTheNextEvseq :
    tget t2.conns 0 = some conn0 ∧ queueCount t2 0 conn0 < 32 ∧
    32 ≤ queueCount t2 0 { conn0 with held := List.replicate 32 ⟨0, 1, 0, 0, 0, 0, 0, 0, 0⟩ } := by decide +kernel

theorem witness_RegisterWriteIsGuarded :
    live t0 = true ∧ listed (addrBlk 0x00078) (addrOff 0x00078) = false ∧
    (listed (addrBlk 0x01080) (addrOff 0x01080) = true ∧ canWrite t0 3 (addrBlk 0x01080) (addrOff 0x01080) = false) ∧
    (let s := setHdr t0 blkCLK { lock := true }
     canWrite s 0 (addrBlk 0x01080) (addrOff 0x01080) = true ∧ (hdr s (addrBlk 0x01080)).lock = true ∧
       lockable (addrBlk 0x01080) (addrOff 0x01080) = true) := by decide +kernel

/-! ### Witnesses: chapter 02 -/

theorem witness_WallPairIsCommitted : mayWrite t0 0 blkCLK 0xD8 = true ∧ mayWrite t0 0 blkCLK 0xD0 = true := by decide +kernel

/-- Entry 1 of the source list names node 2 of segment A, which is QUALIFIED. -/
def tQ : State :=
  { t0 with
    regs := [(regAddr blkCLK 0x80, 0x12), (regAddr blkCLK 0x88, 0x22)]
    clk := { t0.clk with
      tk := some ⟨0, 1⟩, missed := 4
      srcs := [(1, { state := .timekeeper }), (2, { state := .qualified, qualFor := 64, run := 8 })] } }

theorem witness_ForceAndSourceList :
    mayWrite tQ 0 blkCLK 0xE0 = true ∧ bit 0x81 7 = true ∧ qualifiedEntry tQ (fld 0x81 1 0) = some 2 ∧
    qualifiedEntry tQ (fld 0x80 1 0) = none ∧ mayWrite tQ 0 blkCLK (0x80 + 8 * (3 : BitVec 2).toNat) = true := by decide +kernel

/-- A TICK in the tick slot from the timekeeper, node 1 of segment A. -/
def rxT : Rx := { rxA with slot := 1 }

theorem witness_TicksAreMeasured :
    (acquiring { t1 with phase := .acquiring } = true ∧ tickHeeded { t1 with phase := .acquiring } { rxT with node := 0 } = false) ∧
    running t1 = true ∧ (receiveAB t1 rxT true).2 = true ∧
    (let r := (receiveAB t1 rxT true).1
     tickHeeded r rxT = true ∧ (srcOf r (srcKey rxT.node)).faulty = 0 ∧ (srcOf r (srcKey rxT.node)).lastSeq = some ((7 : Byte) - 1)) ∧
    tickOut 400400 400000 = false ∧ tickOut 400401 400000 = true := by decide +kernel

theorem witness_ClockSourcesChange :
    (let s := { t0 with clk := { t0.clk with cki := true, tk := some ⟨1, 33⟩ } }
     running s = true ∧ s.clk.drain = false ∧ s.clk.holdover = false ∧ tkIsC s.clk = true) ∧
    (let s := { t0 with clk := { t0.clk with cki := true } }
     running s = true ∧ s.clk.cki = true ∧ tkIsC s.clk = false) ∧
    atBoundary { t0 with now := ⟨5, 0, 0⟩ } = true ∧
    (let s := { tQ with clk := { tQ.clk with srcs := [(2, { state := .faulty })] } }
     (srcOf s (srcKey 2)).state = .faulty ∧ (srcOf s (srcKey 2)).faulty = 0) ∧
    (let s := { tQ with clk := { tQ.clk with srcs := [(2, { state := .heard, run := 8 })] } }
     entryOf s (srcKey 2) = some 1 ∧ (srcOf s (srcKey 2)).state = .heard ∧ 8 ≤ (srcOf s (srcKey 2)).run ∧ isKeeper s.clk (srcKey 2) = false) := by decide +kernel

theorem witness_TimekeepersAreChosen :
    (let s := { tQ with phase := .acquiring, clk := { tQ.clk with tk := none, window := true, srcs := [(2, { state := .heard })] } }
     acquiring s = true ∧ s.clk.window = true ∧ firstHeard s = some 1 ∧ entryStands s 1 = some 2 ∧
       onSeg .c (keyNode s 2) = false ∧ agreed (srcOf s (srcKey (keyNode s 2))).comps = none) ∧
    firstHeard { tQ with clk := { tQ.clk with srcs := [] } } = none ∧
    (let s := { tQ with now := ⟨5, 0, 0⟩ }
     mayElect s = true ∧ forceEntry s = none ∧ switchEntry s = some (1, 2) ∧ newlyQualified (srcOf s 2) = false) ∧
    (let s := { tQ with now := ⟨5, 0, 0⟩, clk := { tQ.clk with forceReq := some ⟨1, 2⟩ } }
     mayElect s = true ∧ forceEntry s = some (1, 2)) ∧
    (let s := { tQ with now := ⟨5, 0, 0⟩, clk := { tQ.clk with forceReq := some ⟨1, 5⟩ } }
     atBoundary s = true ∧ forceEntry s = none) ∧
    (let s := { tQ with regs := [(regAddr blkCLK 0x80, 0x22), (regAddr blkCLK 0x88, 0x12)]
                        now := ⟨5, 0, 0⟩, clk := { tQ.clk with tk := some ⟨1, 1⟩, missed := 0 } }
     mayElect s = true ∧ forceEntry s = none ∧ switchEntry s = none ∧ revertEntry s = some (0, 2)) := by
  decide +kernel

theorem witness_FrameTimeRunsAndStops :
    running t0 = true ∧
    (let s := { t0 with clk := { t0.clk with holdover := true, holdcnt := 16 } }
     running s = true ∧ atBoundary { s with now := ⟨5, 0, 0⟩ } = true ∧ switchDue { s with now := ⟨5, 0, 0⟩ } = false ∧
       s.clk.holdover = true ∧ s.clk.drain = false ∧ 16 ≤ s.clk.holdcnt) ∧
    (let s := { t0 with clk := { t0.clk with drain := true } }
     running s = true ∧ s.clk.drain = true ∧ s.clk.drainAt + 800000 ≤ cycles s ∧ s.now.slot ≠ 0) ∧
    (running { t0 with now := ⟨5, 0, 9⟩, clk := { t0.clk with drain := true } } = true) := by decide +kernel
/-! ### Witnesses: chapter 03 -/

/-- Twelve nodes, 2 to 13, have joined segment A; node 13 was last heard in frame 37. -/
def tFull : State :=
  { t0 with segA := { t0.segA with nodes := (List.range 12).map fun i => (i + 2, { state := .joined, joined := true, nonce := 9, lastGood := if i = 11 then 37 else 100 }) } }

def joinMeets (s : State) (rx : Rx) (i : BitVec 4) (p : State → Bool) : Bool :=
  match joinHeard s rx i 9 with
  | some u => p u
  | none => false

theorem witness_JoinIsJudged :
    joinMeets t0 rxJ 1 (fun u => decide (isJoined (nodeSt (segAB u .a) 1) = false ∧ joinedCount (segAB u .a) < 12)) = true ∧
    joinMeets tFull rxJ 1 (fun u => decide (isJoined (nodeSt (segAB u .a) 1) = false ∧ 12 ≤ joinedCount (segAB u .a))) = true ∧
    joinMeets tFull { rxJ with node := 13 } 13 (fun u => decide (isJoined (nodeSt (segAB u .a) 13) = true ∧
      (nodeSt (segAB u .a) 13).nonce ≠ 8 ∧ u.frames - (nodeSt (segAB u .a) 13).lastGood < 64)) = true ∧
    joinMeets tFull { rxJ with node := 13 } 13 (fun u => decide (isJoined (nodeSt (segAB u .a) 13) = true ∧
      (nodeSt (segAB u .a) 13).nonce = 9 ∧ silenced (nodeSt (segAB u .a) 13) = false)) = true := by decide +kernel

theorem witness_RangeIsJudged :
    joinMeets t1 rxJ 1 (fun u => decide (isJoined (nodeSt (segAB u .a) 1) = true ∧ (nodeSt (segAB u .a) 1).nonce = 9 ∧
      (nodeSt (segAB u .a) 1).state ≠ .muted)) = true ∧
    joinMeets t0 rxJ 1 (fun u => decide (isJoined (nodeSt (segAB u .a) 1) = false)) = true ∧ { rxJ with seg := .c }.seg = .c := by
  decide +kernel

theorem witness_JoinOnSegmentC :
    segOn t0 .c = true ∧ (14 : BitVec 4) ≠ 0 ∧ (14 : BitVec 4) ≠ 15 ∧ (46 : BitVec 6) = nodeId .c 14 ∧ t0.segC.host = none := by
  decide +kernel

theorem witness_NodesAreUnmutedAndLeave :
    (let s := { t0 with segA := { t0.segA with nodes := [(1, { state := .muted, muteLeft := 0 })] } }
     (nodeSt (segAB s .a) 1).state = .muted ∧ (nodeSt (segAB s .a) 1).muteLeft = 0) ∧
    mayWrite t0 0 (segBlk .b) 0x188 = true ∧ bit 0x81 7 = true ∧
    (let s := { t1 with segA := { t1.segA with evictDue := [1] } }
     (segAB s .a).evictDue = [1] ∧ isJoined (nodeSt (segAB s .a) (1 : BitVec 4).toNat) = true) := by decide +kernel

theorem witness_MapsAreAnnouncedAndTakeEffect :
    mayWrite t0 0 (segBlk .a) 0x88 = true ∧ bit 0x0000000F00001301 12 = true ∧
    mapRefusal (regStore t0 (segBlk .a) 0x88 0x0000000F00001301) .a 15 3 = 0 ∧
    mapRefusal (regStore t0 (segBlk .a) 0x88 0x0000000E00001301) .a 14 3 = 1 ∧
    pendReached ⟨defaultMap, 1, 3, 5⟩ t0.now.frame = true ∧ pendReached ⟨defaultMap, 1, 3, 6⟩ t0.now.frame = false := by decide +kernel

theorem witness_ErrorsLanesAndWake :
    segOn t0 .c = true ∧ segOn t0 .a = true ∧ (segAB t0 .a).pendHits = [] ∧ (segAB t0 .a).taken ≠ some rxA.slot ∧
    deafTo t0 rxA = false ∧ edgeClass (halfStrait t0 .a) 0 640 ≠ .hit ∧ upOrTick t0 .a 2 = true ∧
    (let rx := { rxA with edge := 6000 }
     edgeClass (halfStrait t1 .a) rx.edge rx.air = .hit ∧ rightSlot t1 rx true = true ∧ silenced (nodeSt (segAB t1 .a) (nodeIdx rx.node)) = false ∧
       isJoined (nodeSt (segAB t1 .a) (nodeIdx rx.node)) = true) ∧
    (let s := { State.reset with phase := .deepHold, pmu := { seglatch := 2, wakeB := 4 } }
     wakeSeen s .b 2000 2000 = true ∧ wakeSeen s .b 2000 1 = false) ∧ coreOn t0 = true ∧
    live t0 = true ∧ t0.segC.aligned = 0xF ∧ (8 : BitVec 4) ≠ 0 ∧ bit (regGet t0 blkSEGC 0x80) 0 = true ∧
    ((List.range 4).all fun i => decide ((0x0606 : W16).toNat / 16 ^ i % 16 ≤ 6)) = true ∧
    ({ State.reset with phase := .deepHold, pmu := { seglatch := 2 } }).pmu.seglatch.getLsbD (segNum .b) = true := by decide +kernel

/-! ### Witnesses: chapter 04 -/

/-- A packet from node 1 of an unlisted TYPE. -/
def rejectedPacket (t : Byte) : Packet := { hd := rxHeader rxA t 0, payload := [] }

def heard (s : State) (rx : Rx) (p : State → Bool) : Bool :=
  match accepted s rx with
  | some u => p u
  | none => false

theorem witness_PacketsPassTheLinkInOrder :
    (accepted t2 rxA).isSome = true ∧ (receive t2 rxA).2 = true ∧ (linkOf (receive t2 rxA).1 1).lost = false ∧
    judgeSeq (linkOf (hearSequenced (receive t2 rxA).1 { rxA with lseq := 255 }) 1) 255 = .duplicate ∧
    judgeSeq (linkOf (hearSequenced (receive t2 rxA).1 { rxA with lseq := 128 }) 1) 128 = .duplicate ∧
    judgeSeq (linkOf (hearSequenced (receive t2 rxA).1 { rxA with lseq := 127 }) 1) 127 = .ahead ∧
    requestOf (.close rq0) = some (rq0, tyCLOSE, 0) ∧
    (packetOf (.close rq0)).any (fun p => !(malformed p)) = true ∧
    (packetOf (.regionRead rq0 0 0 257)).any malformed = true ∧
    (packetOfBytes (packetBytes (rejectedPacket 0x7F))).any (fun p => malformed p && (accepted t2 (rxOf rxA p.hd)).isSome) = true := by
  decide +kernel

/-- A well-formed OPEN is spelt by its bytes. -/
theorem witness_PacketsReadBack :
    (let i : Instr := .openConn rxA 7 0x11223344 0 true false 64 5
     i.wf = true ∧ packetRx i = some (rxA, 0) ∧ (packetOf i).isSome = true) := by decide +kernel

/-- Node 1's link with one packet unacknowledged. -/
def pk0 (lseq : Byte) : TxPkt := { lseq := lseq, body := .events 0 [] }
def tUn : State := { t2 with links := [(1, { unacked := [pk0 0], txNext := 1, silent := 255 })] }

theorem witness_AcksRetransmissionsAndLosses :
    (receive tUn rxA).2 = true ∧ (linkOf (receive tUn rxA).1 1).lost = false ∧
    (segOn tUn .a = true ∧ slotNode (settleHit (enterSlot tUn .a 2) .a 3) .a 2 false = some 1 ∧
      (nodeSt (segAB (settleHit (enterSlot tUn .a 2) .a 3) .a) 1).state = .joined ∧
      (linkOf (settleHit (enterSlot tUn .a 2) .a 3) 1).gotUp = false) ∧
    (linkOf (settleHit (enterSlot { tUn with links := [(1, { gotUp := true })] } .a 2) .a 3) 1).gotUp = true ∧
    (let s := { tUn with segC := { tUn.segC with host := some ⟨1, 9, 100⟩ }, links := [(33, { unacked := [pk0 0] })] }
     s.segC.host = some ⟨1, 9, 100⟩ ∧ (linkOf s (nodeId .c 1)).lost = false ∧ rtxDue s (linkOf s (nodeId .c 1)) = true) ∧
    (linkJoined tUn 1 = true ∧ (linkOf tUn 1).lost = false ∧ (linkOf tUn 1).unacked ≠ [] ∧ lostFrames tUn ≤ (linkOf tUn 1).silent) ∧
    (let c : Conn := { conn0 with held := [⟨1, 1, 0, 0, 0, 0, 0, 36, 0⟩] }
     tget { t2 with conns := [(0, c)] }.conns 0 = some c ∧ (linkOf t2 c.node).lost = false ∧ 64 ≤ t2.frames - 36) := by decide +kernel

/-- The host of a DOWN slot, and what holds of it. -/
def downMeets (s : State) (p : State → BitVec 6 → Bool) : Bool :=
  match downHost s .a 3 with
  | some (u, node) => p u node
  | none => false

theorem witness_DownSlotSendsInOrder :
    downMeets { t2 with links := [(1, { resend := [pk0 4] })] } (fun u n => decide ((linkOf u n).resend = [pk0 4])) = true ∧
    downMeets { t2 with links := [(1, { unacked := List.replicate 16 (pk0 0), owed := true })] } (fun u n =>
      decide ((linkOf u n).resend = [] ∧ 16 ≤ (linkOf u n).unacked.length ∧ (linkOf u n).owed = true)) = true ∧
    downMeets { t2 with links := [(1, { unacked := List.replicate 16 (pk0 0) })] } (fun u n =>
      decide ((linkOf u n).owed = false ∧ waiting u n = false)) = true ∧
    (takeFirst isReply [⟨.openReply 7 0 false 0 64 0 0, false, 0⟩]).isSome = true ∧
    (takeFirst isReply [⟨.resp 0 ⟨5, 0x20, 0, 0, 0⟩, false, 1⟩]).isSome = true ∧
    takeFirst isReply [⟨.rdata 0 5 0 0 [1], false, 1⟩] = none ∧
    downMeets { t2 with conns := [(0, { conn0 with held := [⟨1, 1, 0, 0, 0, 0, 0, 99, 0⟩] })] } (fun u n =>
      decide (heldConns u n = [0] ∧ copyFailing u conn0 ⟨1, 1, 0, 0, 0, 0, 0, 99, 0⟩ = [] ∧ (linkOf u n).unacked.length < 16)) = true ∧
    downMeets t2 (fun u n => decide (heldConns u n = [] ∧ (linkOf u n).queue = [] ∧ (linkOf u n).owed = false)) = true := by
  decide +kernel

/-- Domain 0's window is too short for a connection's run. -/
def tSmall : State := regSet t2 blkDOM 0x118 0x00060700

theorem tget_filled {α : Type} (x : α) : ∀ n a k, a ≤ k → k < a + n → tget ((List.range' a n).map fun i => (i, x)) k = some x
  | 0, a, k, h, h2 => by omega
  | n + 1, a, k, h, h2 => by
    by_cases e : a = k
    · simp [List.range'_succ, tget, e]
    · simp only [List.range'_succ, List.map_cons, tget, e, if_false]
      exact tget_filled x n (a + 1) k (by omega) (by omega)

/-- With 1024 connections open no number is free. -/
theorem witness_no_connection_free : tlowestFree ((List.range' 0 1024).map fun i => (i, conn0)) 1024 = none := by
  unfold tlowestFree
  rw [List.find?_eq_none]
  intro k hk
  rw [tget_filled conn0 1024 0 k (by omega) (by have := List.mem_range.mp hk; omega)]
  simp

theorem witness_ConnectionsOpenAndClose :
    passes (.openConn rxA 7 1 0 true false 64 5) = true ∧ passes (.openConn rxA 8 0 0 true false 64 5) = true ∧
    heard t2 rxA (fun u => decide (admits u 0 1 1 = false)) = true ∧
    heard t2 rxA (fun u => admits u 0 1 0 && (sameOpen u 1 0 7).isSome) = true ∧
    heard t2 rxA (fun u => admits u 0 1 0 && decide (sameOpen u 1 0 8 = none) && decide (tlowestFree u.conns 1024 = some 1) &&
      (chargeRun u 0 (9600 + 256 * min (64 : Byte).toNat (maxCred u))).isSome) = true ∧
    heard tSmall rxA (fun u => admits u 0 1 0 && decide (sameOpen u 1 0 8 = none) && decide (tlowestFree u.conns 1024 = some 1) &&
      decide (chargeRun u 0 (9600 + 256 * min (64 : Byte).toNat (maxCred u)) = none)) = true ∧
    (taken t2 rq0 0).isSome = true ∧ (mayWrite t2 0 blkCON 0xA0 = true ∧ bit 0x8000 15 = true) ∧ tget t2.conns 0 = some conn0 := by
  decide +kernel

/-- Region 0 of domain 0: 1024 bytes at 0x10000, readable and writable; its first four bytes are written. -/
def tReg : State :=
  { t2 with
    regions := [(0, { d := 0, tag := 5, rd := true, wr := true, wide := false, base := 0x10000, len := 1024 })]
    mem := [(0x10000, 1), (0x10001, 2), (0x10002, 3), (0x10003, 4)] }

def got (s : State) (rq : Req) (len : Nat) (p : State × Conn → Bool) : Bool :=
  match taken s rq len with
  | some x => p x
  | none => false

def okAt (x : Except Viol Nat) (p : Nat → Bool) : Bool :=
  match x with
  | .ok a => p a
  | .error _ => false

theorem witness_RegionRequestsMoveBytes :
    passes (.regionWrite rq0 0x5 0x3FE [1, 2]) = true ∧ passes (.regionRead rq0 0x5 0 4) = true ∧
    got tReg rq0 2 (fun x => okAt (checkRegion x.1 x.2.d 0x5 0x3FE 2 true) fun a => decide (a + 2 ≤ 2 ^ 23)) = true ∧
    got tReg rq0 3 (fun x => !(okAt (checkRegion x.1 x.2.d 0x5 0x3FE 3 true) fun _ => true)) = true ∧
    got tReg rq0 4 (fun x => okAt (checkRegion x.1 x.2.d 0x5 0 4 false) fun a => decide (failing x.1 a 4 = [])) = true ∧
    got { tReg with badMem := [0x10003] } rq0 4
      (fun x => okAt (checkRegion x.1 x.2.d 0x5 0 4 false) fun a => decide (failing x.1 a 4 ≠ [])) = true ∧
    got tReg rq0 4 (fun x => !(okAt (checkRegion x.1 x.2.d 0x6 0 4 false) fun _ => true)) = true := by decide +kernel

/-- Submission ring 0 of domain 0 with 16 entries, two free. -/
def tRing : State :=
  { t2 with
    sqs := [(0, { owner := 0, head := 0, tail := 14 })], cqs := [(0, { owner := 0 })]
    regs := [(regAddr blkWQS 0x400, 0x1)] }

theorem witness_RegisterRequestsAndDoorbells :
    passes (.regWrite rq0 0x00068 7) = true ∧ passes (.regRead rq0 0x00068 0) = true ∧
    got t2 rq0 8 (fun x => (tget (writeReg x.1 x.2.d { conn := 0 } 0x00068 7).conns 0).isSome) = true ∧
    got t2 rq0 0 (fun x => decide (readDenied x.1 x.2.d 0x00068 1 = none ∧ groupOf (addrBlk 0x00068) (addrOff 0x00068) = none)) = true ∧
    got t2 rq0 0 (fun x => (readDenied x.1 x.2.d 0x00078 1).isSome) = true ∧ (taken t2 rq0 0).isSome = true ∧
    (mayWrite tRing 0 blkWQS 0x800 = true ∧ (tget tRing.sqs 0).isSome = true ∧ ((16 : W16) - 14).toNat ≠ 0 ∧ ((16 : W16) - 14).toNat < 32768 ∧
      (14 : W16).toNat + ((16 : W16) - 14).toNat ≤ ringSize (sqCfg tRing 0)) ∧
    ringSize (sqCfg tRing 0) < (14 : W16).toNat + ((17 : W16) - 14).toNat := by decide +kernel

/-- Connection 1 of domain 0 has posted the region's first 256 bytes. -/
def tPost : State := { tReg with conns := [(0, conn0), (1, { conn0 with node := 2, posted := [5] })] }

theorem witness_SendAndPost :
    passes (.send rq0 1 [7]) = true ∧ passes (.post rq0 [5 + 0x30000000000]) = true ∧
    got t2 rq0 1 (fun x => (tget x.1.conns 0).any fun c => decide (c.d = x.2.d ∧ c.posted = [])) = true ∧
    got tPost rq0 1 (fun x => (tget x.1.conns 1).any fun c => decide (c.d = x.2.d ∧ c.posted = [5]) &&
      okAt (checkRegion x.1 c.d (BitVec.ofNat 32 (fld 5 31 0)) (fld 5 54 32) 256 true) fun _ => true) = true ∧
    got { t2 with conns := [(0, { conn0 with d := 3 })] } rq0 1 (fun x => decide (tget x.1.conns 9 = none ∧ x.2.d ≠ 0)) = true ∧
    (got tReg rq0 8 (fun x => decide (x.2.posted.length < 8) &&
      okAt (checkRegion x.1 x.2.d (BitVec.ofNat 32 (fld (5 + 0x30000000000) 31 0)) (fld (5 + 0x30000000000) 54 32) 256 true) fun _ => true) = true ∧
      postWf (5 + 0x30000000000) = true) := by decide +kernel

theorem witness_RequestsOutOfTurnHaveNoEffect :
    passes (.close { rq0 with rseq := 6 }) = true ∧ connFor t2 9 1 = none ∧
    (requestIn t2 { rq0 with rseq := 6 } 0).isSome = true ∧ ((6 : W16) - 5).toNat < 32768 ∧
    65504 ≤ ((4 : W16) - 5).toNat ∧ 65504 ≤ ((5 - 32 : W16) - 5).toNat ∧ ((5 - 33 : W16) - 5).toNat < 65504 ∧ 32768 ≤ ((5 - 33 : W16) - 5).toNat ∧
    (let c : Conn := { conn0 with replay := [(4, .resp 0 ⟨4, 0x20, 0, 0, 0⟩)] }
     (storedReply c 4).isSome = true ∧ (requestIn { t2 with conns := [(0, c)] } { rq0 with rseq := 4 } 0).isSome = true ∧
       chargedFailing t2 (c.base + 128 + 264 * 4) 264 = [] ∧ storedReply c 3 = none) ∧
    (let s := { t2 with conns := [(0, { conn0 with used := 64 })] }
     (heardInOrder s rxA).isSome = true ∧ contextReads s 0 conn0 = true ∧ conn0.grant < 64 + reqCost 1) := by decide +kernel

/-! ### Witnesses: chapter 05 -/

theorem witness_WindowsAndRegions :
    (mayWrite t0 0 blkDOM (0x118 + 0x40 * (3 : Dom).toNat) = true ∧ windowReason t0 3 0 0 = 0 ∧
      windowReason t0 3 1 2048 = 1 ∧ windowReason t0 3 0 1 = 2 ∧ windowReason tReg 0 0x20 1 = 3) ∧
    mayWrite t0 3 blkDOM (0x130 + 0x40 * (3 : Dom).toNat) = true ∧
    (mayWrite tReg 0 blkRGN 0x80 = true ∧ bit 0x1000006 0 = false ∧ registerRefusal tReg 0 false 0x20000 768 = 0 ∧
      tlowestFree tReg.regions 256 = some 1 ∧ registerRefusal tReg 0 true 0x20000 768 = 5 ∧ registerRefusal { tReg with conns := [(0, { conn0 with base := 0x20000 })] } 0 false 0x20000 256 = 4 ∧
      registerRefusal { tReg with regs := [(regAddr blkDOM 0x118, 0x00100000)] } 0 false 0x100000 256 = 3 ∧
      registerRefusal (regSet tReg blkDOM 0x1C0 0) 3 false 0x20000 768 = 2) ∧
    (bit 0x1 0 = true ∧ (tget tReg.regions (fld 0x1 55 48)).any (fun r => decide (r.d = 0) && !r.dying &&
      !(regionPinned (dropPosted tReg 0 r) 0 r)) = true) ∧
    (let s := { tReg with entries := [{ ref := ⟨0, 0⟩, d := 0, cls := 0, words := [1 + 0x100, 0, 5, 0, 0, 0, 0, 0], receipt := 0, fetchedAt := 0
                                        cid := 0, batch := 0 }]
                          sqs := [(0, { owner := 0 })], regs := [(regAddr blkWQS 0x400, 1), (regAddr blkWQS 0x200, 5)] }
     (tget s.regions (fld 0x1 55 48)).any (fun r => decide (r.d = 0) && !r.dying && regionPinned (dropPosted s 0 r) 0 r) = true) ∧
    (mayWrite tReg 3 blkRGN 0x98 = true ∧ (tget tReg.regions (fld 0x1 55 48)).any (fun r => decide (r.d ≠ 3)) = true) ∧
    (let s := { tReg with regions := tmod tReg.regions 0 fun r => { r with dying := true } }
     (tget s.regions (0 : Byte).toNat).any (fun r => r.dying && !(regionPinned s 0 r)) = true) := by decide +kernel

/-- Extent 0 is domain 0's blocks 0-99 of target 0, LUN 0, plane 0 of channel 0; the staged one is domain 3's blocks 100-199. -/
def tExt : State :=
  { t0 with
    extents := [(0, { d := 0, rd := true, pg := true, er := true, ad := false, ch := 0, tgts := 1, luns := 1, plns := 1, first := 0, last := 99 })]
    regs := [(regAddr blkEXT 0x80, 0x11010E6), (regAddr blkEXT 0x88, 0x00C70064)] }

theorem witness_ExtentCommands :
    mayWrite tExt 0 blkEXT 0x90 = true ∧ (bit 0x801 11 = true ∧ fld 0x801 10 9 = 0 ∧ installResult tExt (stagedExtent tExt) = (0, 0)) ∧
    (stagedExtent tExt).d = 3 ∧
    (let s := regSet tExt blkEXT 0x88 0x00C70063
     installResult s (stagedExtent s) = (1, 0)) ∧
    (let s := regSet tExt blkEXT 0x80 0x11011E6
     installResult s (stagedExtent s) = (2, 0)) ∧
    (let s := regSet tExt blkEXT 0x80 0x01010E6
     installResult s (stagedExtent s) = (3, 0)) ∧
    (bit 0xA00 11 = true ∧ fld 0xA00 10 9 = 1) ∧ (bit 0xC00 11 = true ∧ fld 0xC00 10 9 = 2) ∧
    (bit 0xE00 11 = true ∧ fld 0xE00 10 9 = 3) := by decide +kernel

/-! ### Witnesses: chapter 06 -/

/-- The first sixteen rings of both kinds belong to domain 0. -/
def tSixteen : State :=
  { t0 with
    sqs := (List.range 16).map fun i => (i, { owner := 0 })
    cqs := (List.range 16).map fun i => (i, { owner := 0 }) }

def tAll : State :=
  { t0 with
    sqs := (List.range 64).map fun i => (i, { owner := 3 })
    cqs := (List.range 64).map fun i => (i, { owner := 3 }) }

theorem witness_RingsAreClaimedAndReleased :
    (mayWrite t0 0 blkWQS 0x80 = true ∧ mayWrite t0 0 blkWQC 0x80 = true ∧ bit 0 0 = false ∧ tlowestFree t0.sqs 64 = some 0 ∧
      tlowestFree t0.cqs 64 = some 0 ∧ (t0.sqs.filter fun e => decide (e.2.owner = 0)).length < 16 ∧
      (t0.cqs.filter fun e => decide (e.2.owner = 0)).length < 16) ∧
    (tlowestFree tAll.sqs 64 = none ∧ tlowestFree tAll.cqs 64 = none) ∧
    (tlowestFree tSixteen.sqs 64 = some 16 ∧ 16 ≤ (tSixteen.sqs.filter fun e => decide (e.2.owner = 0)).length ∧
      tlowestFree tSixteen.cqs 64 = some 16 ∧ 16 ≤ (tSixteen.cqs.filter fun e => decide (e.2.owner = 0)).length) ∧
    (bit 0x301 0 = true ∧ fld 0x301 13 8 = 3 ∧ tget tSixteen.sqs 3 = some { owner := 0 } ∧ cfgEnable (sqCfg tSixteen 3) = false ∧
      sqIdle tSixteen 3 = true ∧ tget tSixteen.cqs 3 = some { owner := 0 } ∧ cfgEnable (cqCfg tSixteen 3) = false ∧
      cqIdle tSixteen 3 = true ∧ namedByEnabled tSixteen 3 = false) ∧
    (tget tRing.sqs 0 = some { owner := 0, head := 0, tail := 14 } ∧ cfgEnable (sqCfg tRing 0) = true ∧
      tget tRing.cqs 0 = some { owner := 0 } ∧ namedByEnabled tRing 0 = true) ∧
    (tget tAll.sqs 3 = some { owner := 3 } ∧ tget tAll.cqs 3 = some { owner := 3 }) := by decide +kernel

/-- Ring 0 of both kinds is the domain's, disabled, placed in region 0; completion ring 0 is enabled. -/
def tDis : State :=
  { tReg with
    sqs := [(0, { owner := 0 }), (1, { owner := 0 })], cqs := [(0, { owner := 0 })]
    regs := [(regAddr blkWQS 0x200, 5), (regAddr blkWQC 0x200, 5), (regAddr blkWQC 0x400, 1)] }

/-- The same with completion ring 0 disabled. -/
def tDisC : State := { tDis with regs := [(regAddr blkWQS 0x200, 5), (regAddr blkWQC 0x200, 5)] }

theorem witness_RingsAreEnabledAndDisabled :
    (mayWrite tDis 0 blkWQS 0x400 = true ∧ tget tDis.sqs 0 = some { owner := 0 } ∧ cfgEnable (sqCfg tDis 0) = false ∧ sqIdle tDis 0 = true ∧
      sqEnableError tDis 0 (sqBase tDis 0) 1 = 0 ∧ sqEnableError tDis 0 (sqBase tDis 0) 0x13 = 2 ∧
      sqEnableError tDis 0 (sqBase tDis 0) 0x3 = 1 ∧ sqEnableError tDisC 0 (sqBase tDisC 0) 1 = 3 ∧ cfgEnable 1 = true) ∧
    (mayWrite tRing 0 blkWQS 0x400 = true ∧ cfgEnable (sqCfg tRing 0) = true ∧ bit 0 0 = false ∧ waitPending tRing 0 = false ∧
      sqIdle tRing 0 = true) ∧
    (let e : Entry := { ref := ⟨0, 0⟩, d := 0, cls := 0, words := [1], receipt := 0, fetchedAt := 0, cid := 0, batch := 0 }
     waitPending { tRing with entries := [e] } 0 = false ∧ sqIdle { tRing with entries := [e] } 0 = false) ∧
    (mayWrite tDisC 0 blkWQC 0x400 = true ∧ tget tDisC.cqs 0 = some { owner := 0 } ∧ cfgEnable (cqCfg tDisC 0) = false ∧ cqIdle tDisC 0 = true ∧
      cqEnableError tDisC 0 (cqBase tDisC 0) 1 = 0 ∧ cqEnableError tDisC 0 (cqBase tDisC 0) 0x13 = 2) ∧
    (cfgEnable (cqCfg tDis 0) = true ∧ namedByBusy tDis 0 = false ∧
      namedByBusy { tDis with regs := tset tDis.regs (regAddr blkWQS 0x400) 1 } 0 = true) ∧
    (mayWrite tDis 0 blkWQS 0x600 = true ∧ mayWrite tRing 0 blkWQS 0x600 = true) := by decide +kernel

/-- A 64-byte work entry with its first byte, its other bytes zero, at 0x10000; ring 0 is enabled with one entry committed. -/
def tEnt (b0 b1 : Byte) : State :=
  { tDis with
    sqs := [(0, { owner := 0, tail := 1 })]
    regs := (regAddr blkWQS 0x400, 1) :: tDis.regs
    mem := (0x10000, b0) :: (0x10001, b1) :: (List.range 62).map fun i => (0x10002 + i, 0) }

def tFetch (b0 b1 : Byte) : State :=
  { tEnt b0 b1 with regs := [(regAddr blkWQS 0x200, 5), (regAddr blkWQC 0x200, 5), (regAddr blkWQS 0x400, 1), (regAddr blkWQC 0x400, 1)] }

theorem witness_EntriesAreFetchedInTurn :
    tget (tFetch 1 1).sqs 0 = some { owner := 0, tail := 1 } ∧ fetchHeld (tFetch 1 1) = false ∧ nextRing (tFetch 1 1) = some 0 ∧
    slotAddr (tFetch 1 1) (sqBase (tFetch 1 1) 0) (64 * (0 % ringSize (sqCfg (tFetch 1 1) 0))) = some 0x10000 ∧
    retiredIn (tFetch 1 1) 0x10000 64 = none ∧ failing (tFetch 1 1) 0x10000 64 = [] ∧ entryOf? (tFetch 1 1) ⟨0, 0⟩ = none ∧
    (let ws := wordsOf 8 (memRead (tFetch 1 1) 0x10000 64)
     weOwn ws = true ∧ formatOk (tFetch 1 1) 0 ws = true ∧ weOpcode ws ≠ opMIRROR ∧ areaViolation (tFetch 1 1) 0 (areasOf ws) = none ∧
       flashViolation (tFetch 1 1) 0 ws = none ∧ baselineLimited (tFetch 1 1) ws = false) ∧
    (failing (tFetch 0 0) 0x10000 64 = [] ∧ nextRing (tFetch 0 0) = some 0 ∧ weOwn (wordsOf 8 (memRead (tFetch 0 0) 0x10000 64)) = false) ∧
    (failing (tFetch 1 7) 0x10000 64 = [] ∧ nextRing (tFetch 1 7) = some 0 ∧
      (let ws := wordsOf 8 (memRead (tFetch 1 7) 0x10000 64)
       weOwn ws = true ∧ formatOk (tFetch 1 7) 0 ws = false)) ∧
    nextRing tDis = none ∧ fetchHeld State.reset = true := by decide +kernel

/-- An entry of ring 0 in flight with the given words. -/
def ent (ws : List W64) : Entry := { ref := ⟨0, 0⟩, d := 0, cls := 0, words := ws, receipt := 0, fetchedAt := 90, cid := 0, batch := 0 }

/-- Ring 0 of domain 0 has completed one entry and holds that one; ring 1 is domain 3's. -/
def withEnt (e : Entry) : State :=
  { tRing with sqs := [(0, { owner := 0, head := 1, tail := 1, done := 1 }), (1, { owner := 3 })], entries := [e] }

/-- WAIT_COUNT on a ring for a count, with a timeout of ten frames. -/
def waitWords (ring value : W64) : List W64 := [0x201, (value <<< 32) ||| ring, 10, 0, 0, 0, 0, 0]

theorem witness_EntriesOfTheQueuesEnd :
    (entryOf? (withEnt (ent [0x101])) ⟨0, 0⟩ = some (ent [0x101]) ∧ (ent [0x101]).phase = .fetched) ∧
    slotBad (ent [0x101]) = false ∧ slotBad { ent [0x101] with storeBad := true } = true ∧
    freshEntry (withEnt (ent [0x101])) ⟨0, 0⟩ opNOP = some (ent [0x101]) ∧
    (freshEntry (withEnt (ent (waitWords 0 1))) ⟨0, 0⟩ opWAIT = some (ent (waitWords 0 1)) ∧
      (tget (withEnt (ent (waitWords 0 1))).sqs (fld (ew (waitWords 0 1) 1) 5 0)).any (fun q => decide (q.owner = 0) &&
        waitMet q.done (BitVec.ofNat 32 (fld (ew (waitWords 0 1) 1) 63 32)) &&
        !(waitMet q.done (BitVec.ofNat 32 (fld (ew (waitWords 0 2) 1) 63 32)))) = true) ∧
    (tget (withEnt (ent (waitWords 1 0))).sqs (fld (ew (waitWords 1 0) 1) 5 0)).any (fun q => decide (q.owner = 3)) = true ∧
    (let e := { ent (waitWords 0 2) with phase := .running }
     let s := { withEnt e with sqs := [(0, { owner := 0, head := 1, tail := 1, done := 1, wait := some ⟨0, 0, 2⟩ })] }
     entryOf? s ⟨0, 0⟩ = some e ∧ (tget s.sqs 0).map (·.wait) = some (some ⟨0, 0, 2⟩) ∧ e.phase = .running ∧ fld (ew e.words 2) 15 0 ≠ 0 ∧ e.fetchedAt + fld (ew e.words 2) 15 0 ≤ s.frames) ∧
    (let e := { ent [0x1001] with expiresAt := some 100 }
     entryOf? (withEnt e) ⟨0, 0⟩ = some e ∧ e.expiresAt = some 100 ∧ 100 ≤ (withEnt e).frames ∧ e.begun = false ∧ e.phase = .fetched) := by
  decide +kernel

/-- A ring-0 completion slot at 0x10000 whose first byte is given. -/
def tCompl (b : Byte) (c : Cq) (e : Entry) : State :=
  { tFetch b 0 with cqs := [(0, c)], entries := [e], sqs := [(0, { owner := 0, head := 1, tail := 1 })] }

theorem witness_CompletionsAreWritten :
    (let e := { ent [0x101] with phase := .ended }
     let s := tCompl 0 { owner := 0 } e
     tget s.cqs 0 = some { owner := 0 } ∧ complBlocked s = false ∧
       slotAddr s (cqBase s 0) (32 * (0 % ringSize (cqCfg s 0))) = some 0x10000 ∧ retiredIn s 0x10000 32 = none ∧ parityBad s 0x10000 = false ∧
       entryOf? s ⟨0, 0⟩ = some e ∧ e.phase = .ended ∧ e.storeBad = false ∧ e.batch = 0 ∧ cfgCq (sqCfg s 0) = 0 ∧ (memGet s 0x10000).getLsbD 0 = false) ∧
    (let s := tCompl 1 { owner := 0 } (ent [0x101])
     slotAddr s (cqBase s 0) 0 = some 0x10000 ∧ parityBad s 0x10000 = false ∧ (memGet s 0x10000).getLsbD 0 = true ∧ complBlocked s = false) ∧
    (let s := tCompl 0 { owner := 0, full := true, held := [complOf (ent [0x101])] } (ent [0x101])
     mayWrite s 0 blkWQC 0x800 = true ∧ complBlocked s = false ∧ parityBad s 0x10000 = false) := by decide +kernel

/-! ### Witnesses: chapters 07 and 08 -/

/-- Channel 0 is up under the baseline with LUNs 0 and 1 of target 0, 4 planes, 1024 blocks, 512 pages, 16 sectors; region 0
of domain 0 is 0x10000 and 8192 bytes long. -/
def tFl (es : List Entry) (luns : Tbl LunSt) : State :=
  { tRing with
    entries := es, regions := [(0, { d := 0, tag := 5, rd := true, wr := true, wide := false, base := 0x10000, len := 8192 })]
    fchs := [(0, { up := true, harmless := false, ended := true, found := 1, lunm1 := 1, geo := ⟨4, 1024, 512, 16⟩, luns := luns })] }

def idleLuns : Tbl LunSt := [(0, { state := .idle }), (1, { state := .idle })]

/-- One sector of block 0, page 0 of LUN 0 in clear, its data area at the start of region 0. -/
def flWords (op : W64) : List W64 := [(op <<< 8) ||| 1, 0, 5, 0x200001, 0, 0, 0, 0]

/-- A READ whose sector 0 of plane 0 awaits its first sense. -/
def eRead (op : W64) : Entry := { ent (flWords op) with cls := 1, planes := [{ plane := 0, todo := [0], sectors := [{ sector := 0 }] }] }

/-- A PROGRAM or ERASE with its one leg unstarted. -/
def eLeg (op : W64) : Entry := { ent (flWords op) with cls := 1, legs := [{ lun := 0 }] }

theorem failing_nil (s : State) : ∀ n a, (∀ x, a ≤ x → x < a + n → parityBad s x = false) → failing s a n = []
  | 0, _, _ => rfl
  | n + 1, a, h => by
    rw [failing, h a (by omega) (by omega)]
    exact failing_nil s n (a + 1) fun x hx hy => h x (by omega) (by omega)

/-- The first page of region 0 is written. -/
def tProg : State := { tFl [eLeg 0x20] idleLuns with mem := (List.range' 0x10000 4096).map fun i => (i, (0 : Byte)) }

theorem areaFailing_one {s : State} {e : Entry} {a : Nat} (hs : areaSectors e.words = 1) (hd : dataAt s e 0 = some a)
    (hm : metaAt s e 0 = none) : areaFailing s e = failing s a 4096 := by
  unfold areaFailing; rw [hs]; simp [hd, hm]

theorem witness_area_good : areaFailing tProg (eLeg 0x20) = [] := by
  rw [areaFailing_one (a := 0x10000) (by decide +kernel) (by decide +kernel) (by decide +kernel)]
  refine failing_nil _ _ _ fun x hx hy => ?_
  unfold parityBad
  have h : tget tProg.mem x = some 0 := tget_filled (0 : Byte) 4096 0x10000 x hx hy
  rw [h]; rfl

/-- Only the first byte of region 0 is written, and it fails. -/
def tBad : State := { tProg with mem := [(0x10000, 0)], badMem := [0x10000] }

theorem witness_area_bad : areaFailing tBad (eLeg 0x20) ≠ [] := by
  rw [areaFailing_one (a := 0x10000) (by decide +kernel) (by decide +kernel) (by decide +kernel)]
  have e : parityBad tBad 0x10000 = true := by decide +kernel
  have h : ∀ n, failing tBad 0x10000 (n + 1) ≠ [] := fun n => by rw [failing, e]; simp
  exact h 4095

/-- An URGENT read whose sector is due on channel 0's bus. -/
def eFirst : Entry :=
  { ent (flWords 0x10) with
    ref := ⟨0, 1⟩, phase := .running, begun := true
    planes := [{ plane := 0, todo := [], ready := true, tried := [0], sectors := [{ sector := 0 }] }] }

theorem witness_FlashOperationsStart :
    (slotBad (eLeg 0x20) = false ∧ busAllows tProg (eLeg 0x20) 0 = true ∧
      (let s := tFl [eLeg 0x20, eFirst] idleLuns
       mayStart s (eLeg 0x20) 0 = true ∧ busAllows s (eLeg 0x20) 0 = false)) ∧
    (activeEntry (tFl [eRead 0x10] idleLuns) ⟨0, 0⟩ opREAD = some (eRead 0x10) ∧ mayStart (tFl [eRead 0x10] idleLuns) (eRead 0x10) 0 = true ∧
      activeEntry (tFl [eRead 0x11] idleLuns) ⟨0, 0⟩ opCHECK = some (eRead 0x11) ∧ mayStart (tFl [eRead 0x11] idleLuns) (eRead 0x11) 0 = true ∧
      (let e : Entry := { eRead 0x22 with legs := [{ lun := 0 }] }
       activeEntry (tFl [e] idleLuns) ⟨0, 0⟩ opCOPY = some e ∧ readDecided e = false ∧ mayStart (tFl [e] idleLuns) e 0 = true)) ∧
    (let luns : Tbl LunSt := [(0, { state := .busy, cur := some { kind := .erase, owner := none } })]
     mayStart (tFl [eRead 0x10] luns) (eRead 0x10) 0 = false ∧ (eRead 0x10).cls ≠ 0) ∧
    (activeEntry tProg ⟨0, 0⟩ opPROGRAM = some (eLeg 0x20) ∧ (eLeg 0x20).legs[0]? = some { lun := 0 } ∧
      mayStart tProg (eLeg 0x20) (pfaLun (legPfa (eLeg 0x20) 0)) = true) ∧
    (activeEntry tBad ⟨0, 0⟩ opPROGRAM = some (eLeg 0x20) ∧ mayStart tBad (eLeg 0x20) 0 = true) ∧
    (let e : Entry := { eLeg 0x21 with words := [0x2101, 0, 5, 0x200001, 0, 0x8000000, 0, 0], legs := [{ lun := 0 }, { lun := 1 }] }
     activeEntry (tFl [e] idleLuns) ⟨0, 0⟩ opMIRROR = some e ∧ e.legs[1]? = some { lun := 1 } ∧ mayStart (tFl [e] idleLuns) e (pfaLun (legPfa e 0)) = true) ∧
    (let e : Entry := { eLeg 0x22 with planes := [{ plane := 0, todo := [], sectors := [{ sector := 0, state := .good }], decided := true }] }
     activeEntry (tFl [e] idleLuns) ⟨0, 0⟩ opCOPY = some e ∧ readDecided e = true ∧ mayStart (tFl [e] idleLuns) e (pfaLun (legPfa e 0)) = true) ∧
    (activeEntry (tFl [eLeg 0x30] idleLuns) ⟨0, 0⟩ opERASE = some (eLeg 0x30) ∧ mayStart (tFl [eLeg 0x30] idleLuns) (eLeg 0x30) 0 = true) := by
  decide +kernel

/-- The read of eRead has been sensed once and its sector awaits its decode. -/
def pReady : PlaneRd := { plane := 0, todo := [], ready := true, tried := [0], sectors := [{ sector := 0 }] }
def eReady (op : W64) : Entry := { eRead op with phase := .running, begun := true, senses := 1, planes := [pReady] }
def decoded (ok : Bool) (zeros : Nat) (data : List Byte) : DecodeResult := ⟨ok, data, [], 3, 0, zeros⟩

theorem randomise_twice : ∀ (l : List Byte) (s : BitVec 31), randomise s (randomise s l) = l
  | [], _ => rfl
  | b :: t, s => by
    simp only [randomise, randomise_twice t]
    rw [BitVec.xor_assoc, BitVec.xor_self, BitVec.xor_zero]

theorem randomise_length : ∀ (l : List Byte) (s : BitVec 31), (randomise s l).length = l.length
  | [], _ => rfl
  | b :: t, s => by simp [randomise, randomise_length t]

theorem leNat_leBytes4 (c : W32) : leNat (leBytes 4 c.toNat) = c.toNat := by
  simp only [leBytes, leNat, BitVec.toNat_ofNat]
  omega

/-- Metadata of a sector of domain 0 at PFA 0 stored in clear, without its CRC. -/
def md60 : List Byte := List.replicate 32 0 ++ deviceMeta 0 (flWords 0x10) 0 0 5

theorem md_checks (ws : List W64) (h : keyInfo ws = 0x20) (data : List Byte) :
    sectorCheck 0 ws data (md60 ++ leBytes 4 (crc32c (data ++ md60)).toNat) = 0 := by
  have h0 : ∀ l, (md60 ++ l).take 60 = md60 := fun l => List.take_left' (by decide)
  have h1 : ∀ c : W32, fieldLE (md60 ++ leBytes 4 c.toNat) 60 4 = c.toNat := fun c => by
    have : (md60 ++ leBytes 4 c.toNat).drop 60 = leBytes 4 c.toNat := List.drop_left' (by decide)
    unfold fieldLE slice
    rw [this, show (leBytes 4 c.toNat).take 4 = leBytes 4 c.toNat from rfl, leNat_leBytes4]
  have h2 : ∀ l, fieldLE (md60 ++ l) 32 6 % 2 ^ 42 = fld 0 41 0 := fun l => rfl
  have h3 : ∀ l, byteAt (md60 ++ l) 38 &&& 0x3F = 0x20 := fun l => by
    rw [show byteAt (md60 ++ l) 38 = keyInfo (flWords 0x10) from rfl]; decide +kernel
  unfold sectorCheck
  rw [h0, h1, h2, h3, h]
  simp

theorem md60_length : md60.length = 60 := by decide +kernel
theorem leBytes4_length (n : Nat) : (leBytes 4 n).length = 4 := rfl

/-- What a decoder gives for a sector of the given data: data and metadata still randomised. -/
def stored (data : List Byte) : List Byte := data ++ (md60 ++ leBytes 4 (crc32c (data ++ md60)).toNat)
def dOf (data : List Byte) : DecodeResult :=
  { decoded true 70 ((randomise (rndSeed 0) (stored data)).take 4096) with md := (randomise (rndSeed 0) (stored data)).drop 4096 }

theorem good_sector (data : List Byte) (h : data.length = 4096) :
    sectorCheck 0 (flWords 0x10) (derandomise 0 (dOf data)).1 (derandomise 0 (dOf data)).2 = 0 ∧ (dOf data).wf = true := by
  have e : derandomise 0 (dOf data) = (data, md60 ++ leBytes 4 (crc32c (data ++ md60)).toNat) := by
    unfold derandomise dOf
    simp only [decoded, List.take_append_drop, randomise_twice, stored]
    rw [List.take_left' h, List.drop_left' h, List.take_of_length_le]
    exact Nat.le_of_eq (by rw [List.length_append, md60_length, leBytes4_length])
  have hl : (stored data).length = 4160 := by
    rw [stored, List.length_append, List.length_append, md60_length, leBytes4_length, h]
  refine ⟨by rw [e]; exact md_checks _ (by decide +kernel) _, ?_⟩
  simp only [DecodeResult.wf, dOf, decoded, List.length_take, List.length_drop, randomise_length, hl]
  decide

/-- A sector of zero bytes. -/
def dGood : DecodeResult := dOf (List.replicate 4096 0)

theorem witness_good_sector : sectorCheck 0 (flWords 0x10) (derandomise 0 dGood).1 (derandomise 0 dGood).2 = 0 ∧ dGood.wf = true :=
  good_sector _ List.length_replicate

theorem witness_DecodesEndSectors :
    (let s := tFl [eReady 0x10] idleLuns
     entryOf? s ⟨0, 0⟩ = some (eReady 0x10) ∧ weOpcode (eReady 0x10).words = opREAD ∧
       (eReady 0x10).planes.find? (fun p => decide (p.plane = (0 : BitVec 2).toNat)) = some pReady ∧
       pReady.sectors.find? (fun x => decide (x.sector = (0 : BitVec 4).toNat)) = some { sector := 0 } ∧ pReady.ready = true ∧
       roundDone pReady { sector := 0 } = false ∧ pReady.soft = false ∧ pfaAt (ew (eReady 0x10).words 1) 0 0 = 0 ∧
       erasedLimit s 0 = 64 ∧ nextHard s 0 (weType (eReady 0x10).words) pReady = none ∧ (eReady 0x10).storeBad = false ∧
       sectorTurn s (eReady 0x10) false 0 0 = true ∧ decoderServes s (eReady 0x10) 0 false = true ∧
       sectorTurn (tFl [eReady 0x10, eFirst] idleLuns) (eReady 0x10) false 0 0 = false ∧
       softAllowed s 0 (weType (eReady 0x10).words) = false ∧ areaIndex (eReady 0x10) 0 0 < 16 ∧ (eReady 0x10).planes = [pReady]) ∧
    weOpcode (eReady 0x11).words = opCHECK ∧ roundDone { pReady with soft := true } { sector := 0 } = false ∧
    (weOpcode (eReady 0x22).words = opCOPY ∧ readDecided (eReady 0x22) = false) ∧ dGood.ok = true ∧ dGood.zeros = 70 := by
  refine ⟨by decide +kernel, by decide +kernel, by decide +kernel, by decide +kernel, rfl, rfl⟩

/-- An admin entry on LUN 0 with the given word 3. -/
def eAdmin (op w3 : W64) : Entry := { ent [(op <<< 8) ||| 1, 0, 5, w3, 0, 0, 0, 0] with cls := 1, legs := [{ lun := 0 }] }

theorem witness_AdminEntriesAct :
    ([(0x40, opPARAM, 256), (0x41, opGETF, 0x10), (0x42, opSETF, 0x500000010), (0x44, opSUSPOL, 0x7)].all fun x =>
      decide (activeEntry (tFl [eAdmin x.1 x.2.2] idleLuns) ⟨0, 0⟩ x.2.1 = some (eAdmin x.1 x.2.2)) &&
      mayAdmin (tFl [eAdmin x.1 x.2.2] idleLuns) (eAdmin x.1 x.2.2) 0) = true ∧
    ([0, 1].all fun w => let e := eAdmin 0x43 w
      let s := tFl [e] idleLuns
      decide (activeEntry s ⟨0, 0⟩ opTRESET = some e) && serving s && (fchOf s 0).up && eligible s e 0 && firstInLine s e 0 && !(targetClaimed s e 0) &&
      decide (resetLuns s e = if w = 0 then [0, 1] else [0])) = true ∧
    (let e : Entry := ent [0x5001, 0xFF00, 5, 0, 0, 0, 0, 0]
     freshEntry (tFl [e] idleLuns) ⟨0, 0⟩ opEXPORT = some e ∧ serving (tFl [e] idleLuns) = true) ∧
    (let e : Entry := ent [0x5101, 0x0001, 5, 0, 0, 0, 0, 0]
     freshEntry (tFl [e] idleLuns) ⟨0, 0⟩ opIMPORT = some e) := by decide +kernel

/-- LUN 1 of channel 0 is erasing; its R/B_N rises for the group of LUNs 0 to 15. -/
def tBusy (v : LunSt) : State := regSet (tFl [] [(0, { state := .idle }), (1, v)]) (blkFCH + 0) 0x80 0x1
def erasing : LunSt := { state := .busy, cur := some { kind := .erase, owner := none } }

theorem witness_FlashEventsAct :
    (let s := tFl [eFirst] [(0, { state := .idle }), (1, erasing)]
     (xferOn { s with fchs := tmod s.fchs 0 fun f => { f with xfer := some { ref := ⟨0, 1⟩, plane := 0, sector := 0 } } } 0).isSome = true) ∧
    (let s := { tBusy erasing with regs := [(regAddr (blkFCH + 0) 0x80, 0)] }
     (fchOf s 0).up = true ∧ (lunOf s (32 * 0 + 1)).cur.isSome = true ∧ (lunOf s 1).pollNow = false ∧ (lunOf s 1).pollAt ≤ latest s ∧
       xferOn s 0 = none ∧ rbCase s 0 (decide (16 ≤ (1 : BitVec 5).toNat)) = false) ∧
    (rbCase (tBusy erasing) 0 false = true ∧ groupBusy (tBusy erasing) 0 false = [1] ∧ (0x60 : Byte) &&& neverMask (tBusy erasing) 0 = 0 ∧
      srReady 0x60 = true ∧ srArray 0x60 = true ∧ (lunOf (tBusy erasing) 1).state = .busy ∧ (lunOf (tBusy erasing) 1).under = none) ∧
    ((fchOf (tBusy erasing) 0).rbFallback = false ∧ groupBusy (tBusy erasing) 0 true = []) ∧
    (let v := { erasing with state := .suspending }
     (lunOf (tBusy v) 1).cur = some { kind := .erase, owner := none } ∧ (lunOf (tBusy v) 1).state = .suspending ∧
       2 * suspendUs (tBusy v) 0 .erase 0 ≤ (latest (tBusy v) - (lunOf (tBusy v) 1).susAt) / 400) ∧
    overLimit (tBusy erasing) 1 = true ∧
    (let e : Entry := { eLeg 0x30 with phase := .running, legs := [{ lun := 0, started := true }] }
     let s := tFl [e] [(0, { state := .busy, cur := some { kind := .erase, owner := some { ref := ⟨0, 0⟩ } } })]
     overLimit s 0 = true ∧ entryOf? s ⟨0, 0⟩ = some e ∧ weOpcode e.words ≠ opMIRROR) ∧
    (let s := { t0 with fchs := [(0, { up := true, nextRate := some 50 })] }
     (fchOf s 0).nextRate = some 50) ∧
    (let s := { t0 with now := ⟨8, 0, 0⟩ }
     atBoundary s = true ∧ s.now.frame.toNat % 4 = 0) ∧
    (mayWrite t0 3 blkSCH (0x100 + 8 * (3 : Dom).toNat) = true ∧ overChannel t0 3 0x30 = none ∧ overChannel t0 3 0x3130 = some 1) := by
  decide +kernel

/-- A vertical image whose word 0 is the given one, for every sequencer. -/
def tSeq (w : W64) (bad : List Nat) : State :=
  { t0 with
    fchs := [(2, { up := true, harmless := false, ended := true })]
    seqs := [(2, { state := 1, microBad := bad })]
    boot := { t0.boot with pair := some {
        image := { vertical := true, micro := [w], nano := [], cyc := [1, 1, 1, 1], entries := [0] }
        profiles := []
        chanprof := List.replicate 8 0xFF
        simg := ⟨1, 0, 0, 0, [], []⟩
        pers := ⟨1, 0, 0, 0, [], []⟩ } } }

/-- How job 0 ends after one sample. -/
def jobEnds (s : State) (p : JobRun → Bool) : Bool :=
  let q := { seqOf s 2 with state := 2, job := 0, jobLun := 0, pc := BitVec.ofNat 14 (entryPoint s 0), stack := [], k0 := 0, k1 := 0
                            jobs := (seqOf s 2).jobs + 1, since := cycles s }
  p (runJob (setSeq s 2 q) { n := 2, lun := 0, latch := [] } { q := q } [⟨0, true, true⟩]).2

theorem witness_SequencerRunsJobs :
    (live (tSeq 0x8000 []) = true ∧ (seqOf (tSeq 0x8000 []) 2).state = 1 ∧
      ((fchOf (tSeq 0x8000 []) 2).harmless && (fchOf (tSeq 0x8000 []) 2).ended) = false ∧
      jobAllowed { tSeq 0x8000 [] with fchs := [] } 2 0 0 = true) ∧
    jobEnds (tSeq 0x8000 []) (fun r => decide (r.check = none) && r.done) = true ∧
    jobEnds (tSeq 0 []) (fun r => decide (r.check = none) && !r.done) = true ∧
    jobEnds (tSeq 0xF000 []) (fun r => r.check.isSome) = true ∧ jobEnds (tSeq 0x8000 [0]) (fun r => r.check.isSome) = true ∧
    (let s := { t0 with seqs := [(2, { state := 2, since := cycles t0 - 80000 })] }
     (seqOf s 2).state = 2 ∧ (seqOf s 2).since + 80000 ≤ latest s ∧ 80000 ≤ cycles s) := by decide +kernel

/-- One target that passes the baseline's checks. -/
def rep1 : TargetReport :=
  { present := true, jesd := false, ids := 0x2C, luns := 2, planes := 4, blocks := 1024, pages := 512, sectors := 16, modes := 0xFF, maxRate := 100
    diff := true, zq := true, indep := true, timing := [100, 100, 100, 100], capture := 0x0FF0 }

theorem witness_ChannelsAreDiscovered :
    mayDiscover { t0 with glb := { t0.glb with phase := 5 } } (1 : BitVec 3).toNat = true ∧ channelUnused t0 1 = false ∧
    channelUnused { tSeq 0 [] with seqs := [] } 1 = true ∧ pairReading t0 1 1800 = 1800 ∧
    pairReading { t0 with fchs := [(0, { ended := true, vccqMv := 1500 })] } 1 1800 = 1500 ∧ vccqClass 1500 = none ∧ vccqClass 1079 = none ∧
    vccqClass 1080 = some false ∧ vccqClass 1320 = some false ∧ vccqClass 1321 = none ∧ vccqClass 1800 = some true ∧ presentTargets [] = [] ∧
    presentTargets [{ rep1 with present := false }] = [] ∧ rep1.present = true ∧ ({ t0 with glb := { t0.glb with phase := 5 } }).boot.pair = none ∧
    rep1.maxRate.toNat ≥ 50 ∧ rep1.modes.getLsbD (if rep1.jesd then 3 else 1) = true ∧ (captureCentre rep1.capture).isSome = true := by
  decide +kernel

/-! ### Witnesses: chapters 09 and 10 -/

/-- Key slot 4 is domain 3's; its staged halves differ in the first word. -/
def tKey : State := { t0 with keys := [(4, { d := 3, assigned := true })], regs := [(regAddr blkXTS (0x400 + 0x40 * 3), 7)] }

theorem witness_KeysFollowTheirSlots :
    (mayWrite tKey 3 blkXTS (0x200 + 8 * (3 : Dom).toNat) = true ∧ bit 0x85 7 = true ∧
      ((keySlot tKey (fld 0x85 4 0)).assigned && decide ((keySlot tKey (fld 0x85 4 0)).d = 3)) = false) ∧
    (bit 0x84 7 = true ∧ (keySlot tKey (fld 0x84 4 0)).assigned = true ∧ (keySlot tKey (fld 0x84 4 0)).d = 3 ∧ bit 0x84 5 = false ∧
      slotRetiring tKey (fld 0x84 4 0) = false ∧ (stagedKey tKey 3).take 32 ≠ (stagedKey tKey 3).drop 32) ∧
    (bit 0xA4 7 = true ∧ fld 0xA4 4 0 = 4 ∧ bit 0xA4 5 = true) ∧ mayWrite tKey 0 blkXTS (0x100 + 8 * (4 : BitVec 5).toNat) = true ∧
    (BitVec.ofNat 4 (fld 0x13 3 0) = (keySlot tKey (4 : BitVec 5).toNat).d ∧ bit 0x13 4 = (keySlot tKey (4 : BitVec 5).toNat).assigned) ∧
    BitVec.ofNat 4 (fld 0x15 3 0) ≠ (keySlot tKey (4 : BitVec 5).toNat).d ∧ bit 0x03 4 ≠ (keySlot tKey (4 : BitVec 5).toNat).assigned := by
  decide +kernel

theorem witness_FuseCommandsAreJudged :
    (let s := { t0 with regs := [(regAddr blkFUS 0x100, 1)] }
     mayWrite s 0 blkFUS 0x120 = true ∧ s.fus.busy = none ∧ bit 0x8000 15 = true ∧
       fuseCondition s (fld 0x8000 3 0) (fld 0x8000 14 8) (fuseStage s) = 0 ∧
       ((fuseStage s).all fun b => decide (b = 0)) = false ∧ tgetD s.fus.hash 3 .blank = .blank) ∧
    fuseCondition t0 (fld 0x8000 3 0) (fld 0x8000 14 8) (fuseStage t0) = 2 ∧ fuseCondition t0 (fld 0x8006 3 0) 0 (fuseStage t0) = 3 ∧
    tgetD ({ t0 with fus := { hash := [(0, .partly), (3, .programmed [1])] } }).fus.hash 0 .blank = .partly ∧
    tgetD ({ t0 with fus := { hash := [(0, .partly), (3, .programmed [1])] } }).fus.hash 3 .blank = .programmed [1] ∧
    ({ t0 with fus := { busy := some (12, 5, []) } }).fus.busy = some (12, 5, []) := by decide +kernel

/-- The boot looks for its containers on channel 0. -/
def tLoad : State := { t0 with glb := { t0.glb with phase := 2, bootsel := 2 }, boot := { t0.boot with from_ := 0 } }

def cont (maj min : Byte) : Container := ⟨maj, min, 3, 1, [1, 2], []⟩
def verdictOf (maj min : Byte) : Verdict := { code := 1, sec := false, taken := some (cont maj min) }

theorem witness_ContainersAndPairs :
    (loading tLoad = true ∧ tLoad.boot.from_ = 0 ∧ copyTurn tLoad.boot.sv 0 false = true ∧ copyTurn tLoad.boot.sv 0 true = false ∧
      copyTurn { tLoad.boot.sv with tried := 1 } 0 true = true ∧ copyTurn tLoad.boot.sv 2 false = true ∧ (0 : BitVec 2).toNat < 2) ∧
    (storesFree tLoad = true ∧ settled tLoad { tLoad.boot.sv with tried := 2 } = true ∧ settled tLoad tLoad.boot.sv = false) ∧
    (verdictOf 1 1).code = 1 ∧
    (let s := { tLoad with boot := { tLoad.boot with from_ := 2 } }
     loading s = true ∧ s.boot.from_ = 2 ∧ baseKey (regGet s blkBOOT 0x90) = 0 ∧ baseKey (regGet s blkBOOT 0x88) = 0) ∧
    headerOk false [] = false ∧ headerOk true (List.replicate 256 0) = false ∧
    (pairCode tLoad.boot.sv tLoad.boot.pv ≠ 0 ∧ tLoad.glb.bootsel = 2) ∧
    pairCode (verdictOf 1 2) (verdictOf 1 2) = 0 ∧ pairCode (verdictOf 1 1) (verdictOf 1 2) = 4 ∧ pairCode (verdictOf 1 2) (verdictOf 2 2) = 3 ∧
    (let s := { tLoad with boot := { tLoad.boot with sv := verdictOf 1 2, pv := verdictOf 1 2 } }
     loading s = true ∧ s.boot.sv.taken = some (cont 1 2) ∧ s.boot.pv.taken = some (cont 1 2)) ∧
    (let s := { tLoad with boot := { tLoad.boot with from_ := 1 } }
     loading s = true ∧ ¬ (s.boot.from_ = 0 ∧ s.glb.bootsel = 2)) := by decide +kernel

/-! ### Witnesses: chapters 11 and 12 -/

/-- Mover 2 of domain 0 runs its program at the start of region 0. -/
def mRun : Mover := { d := 0, state := .run, prog := true, key := 5 }

/-- The program's first instruction and the bytes at 0x10100 to 0x10107, one of which can fail. -/
def tMov (m : Mover) (ws : List W64) : State :=
  { tReg with
    movers := [(2, m)], mem := ((bytesOf ws).mapIdx fun i b => (0x10000 + i, b)) ++ (List.range 8).map fun i => (0x10100 + i, BitVec.ofNat 8 i)
    sqs := [(0, { owner := 0, done := 3 }), (1, { owner := 3 })], badMem := [0x10107] }

def fetched (m : Mover) (ws : List W64) : Bool :=
  match fetchInstr (tMov m ws) 2 m with
  | .words x => decide (x = ws)
  | _ => false

def fetchedOne (m : Mover) (w : W64) : Bool :=
  match fetchInstr (tMov m [w]) 2 m, fetchWords (tMov m [w]) 2 m 1 with
  | .words x, .words y => decide (x = [w]) && decide (y = [w])
  | _, _ => false

/-- Whether the start runs (0), is denied (1) or faults (2). -/
def startOf (d : Done) : Nat :=
  match d with
  | .started _ _ _ => 0
  | .denied _ _ => 1
  | .faulted _ _ _ _ => 2

def okV (x : Except Viol Nat) (p : Nat → Bool) : Bool :=
  match x with
  | .ok a => p a
  | .error _ => false

def counted (s : State) (m : Mover) (p : W32 → Bool) : Bool :=
  match readProd s m with
  | .count c => p c
  | _ => false

theorem witness_MoverCommands :
    (mayWrite t0 0 blkCWY 0x80 = true ∧ bit 0x8032 15 = true ∧ BitVec.ofNat 4 (fld 0x8032 3 0) = (2 : BitVec 4) ∧ bit 0x8032 8 = false ∧
      bit 0x8102 15 = true ∧ bit 0x8102 8 = true ∧ tget t0.movers 2 = none ∧ tget (tMov mRun []).movers 2 = some mRun) ∧
    (mayWrite (tMov mRun []) 0 (blkMOV + 2) 0x88 = true ∧ mayWrite (tMov mRun []) 0 (blkMOV + 2) 0x90 = true) ∧
    (let m := { mRun with state := .idle }
     mayWrite (tMov m []) 0 (blkMOV + 2) 0x88 = true ∧ tget (tMov m []).movers 2 = some m) ∧
    (mRun.armed = false ∧ (mRun.job.map (·.stopping)).getD false = false ∧
      (let j : BurstJob := { kind := .move, src := [(0x10100, 7)], dst := 0x10200, start := 0, len := 7, read := 1 }
       j.kind = .move ∧ j.written < j.read)) ∧
    (let m := { mRun with state := .error }
     mayWrite (tMov m []) 0 (blkMOV + 2) 0x88 = true) ∧
    (let m := { mRun with state := .waitLink }
     mayWrite (tMov m [0x8]) 0 (blkMOV + 2) 0x90 = true ∧ fetchedOne m 0x8 = true ∧ opOf [0x8] ≠ 7 ∧
     (let w : W64 := 0x0000004000000007
      fetchedOne m w = true ∧ opOf [w] = 7 ∧ w &&& ~~~ 0x007FFFFF000003FF = 0 ∧ fld w 54 32 % 32 = 0 ∧ bit w 9 = false)) ∧
    (let m := { mRun with state := .wait, waitKind := 2, framesLeft := 0 }
     tget (tMov m []).movers 2 = some m) ∧
    (let m := { mRun with prog := false, setDone := true }
     tget (tMov m []).movers 2 = some m ∧ bit m.active.ops 7 = false) ∧
    (let m := { mRun with job := some { kind := .fill, dst := 0x10100, start := 0, len := 8 } }
     live (tMov m []) = true ∧ grantee (tMov m []) (tMov m []).writePort (candidates (tMov m []) true 0) = some 2 ∧
       grantee (tMov m []) (tMov m []).readPort (candidates (tMov m []) false 0x10000) = some 16) ∧ live State.reset = false := by
  decide +kernel

/-- Words that a program can hold: MOVE and FILL to the region's second 256 bytes, and outside its length. -/
def wMove : List W64 := [0x0000000700000001, 0x0000010000000005, 0x0000020000000005, 0]
def wFill (dst : W64) : List W64 := [0x0000000800000002, dst, 0x1122334455667788, 0]

theorem witness_MoverInstructions :
    tget (tMov mRun wMove).movers 2 = some mRun ∧ mRun.state = .run ∧ mRun.job = none ∧ mRun.prog = true ∧
    (fetched mRun wMove = true ∧ opOf wMove = 1 ∧ reservedSet wMove 0x00FFFFFF00001E00 3 = false ∧
      startOf (doMove (tMov mRun wMove) 2 mRun ⟨0x0000010000000005, 0x0000020000000005, 7, 0, false, false⟩) = 0 ∧
      startOf (doMove (tMov mRun wMove) 2 mRun ⟨0x0000010000000005, 0x000003FF00000005, 7, 0, false, false⟩) = 1 ∧
      startOf (doMove (tMov mRun wMove) 2 mRun ⟨0x0000010000000005, 0x0000020000000005, 0, 0, false, false⟩) = 2) ∧
    (let ws := wFill 0x000003F800000005
     fetched mRun ws = true ∧ opOf ws = 2 ∧ reservedSet ws 0x00FFFFFF00000000 3 = false ∧ fld (ew ws 0) 55 32 = 8 ∧ xbitsOk (ew ws 1) = true ∧
       isRing (ew ws 1) = false ∧ okV (checkOperand (tMov mRun ws) mRun (ew ws 1) 8 true) (fun a => decide (a + 8 ≤ 2 ^ 23)) = true) ∧
    (let ws := wFill 0x000003F900000005
     fetched mRun ws = true ∧ xbitsOk (ew ws 1) = true ∧ isRing (ew ws 1) = false ∧
       okV (checkOperand (tMov mRun ws) mRun (ew ws 1) 8 true) (fun _ => true) = false) ∧
    (let ws : List W64 := [0x603, 0x0000020000000005, 0, 0]
     fetched mRun ws = true ∧ opOf ws = 3 ∧ reservedSet ws 0x600 (if bit (ew ws 0) 10 then 2 else 1) = false ∧ bit (ew ws 0) 10 = true ∧
       xbitsOk (ew ws 1) = true ∧ isRing (ew ws 1) = false ∧ okV (checkOperand (tMov mRun ws) mRun (ew ws 1) 4 true) (fun _ => true) = true) ∧
    (let ws : List W64 := [0x203, 0, 0, 0]
     fetched mRun ws = true ∧ opOf ws = 3 ∧ reservedSet ws 0x600 (if bit (ew ws 0) 10 then 2 else 1) = false ∧ bit (ew ws 0) 10 = false) ∧
    (let ws : List W64 := [0x404, 1, 0, 0]
     fetched mRun ws = true ∧ opOf ws = 4 ∧ waitBad mRun ws = false ∧ fld (ew ws 0) 10 9 = 2) ∧
    (let ws : List W64 := [0x204, 0, 0, 0]
     let m := { mRun with sigcnt := 3 }
     fetched mRun ws = true ∧ waitBad mRun ws = false ∧ fld (ew ws 0) 10 9 = 1 ∧ (tget (tMov mRun ws).sqs 0).any (fun q => decide (q.owner = 0) &&
       decide ((q.done + BitVec.ofNat 32 (fld (ew ws 1) 47 32) - m.sigcnt).toNat < 2 ^ 31) &&
       decide (2 ^ 31 ≤ (q.done + BitVec.ofNat 32 (fld (ew ws 1) 47 32) - (4 : W32)).toNat)) = true) := by
  decide +kernel

/-- The mover's ring A has 256 bytes; its producer word at 0x10100 counts what its first four bytes spell. -/
def mRing : Mover := { mRun with ringa := 0x0400000000000005, proda := 0x0000010000000005, cons := 0x030200F0 }

theorem witness_MoverInstructions_more :
    (let ws : List W64 := [0x004, 0x10, 0, 0]
     fetched mRing ws = true ∧ opOf ws = 4 ∧ waitBad mRing ws = false ∧ fld (ew ws 0) 10 9 = 0 ∧ mRing.draining = false ∧
       counted (tMov mRing ws) mRing (fun p => decide ((p - mRing.cons).toNat ≤ ringLen mRing) && decide (0x10 ≤ (p - mRing.cons).toNat) &&
         decide ((p - mRing.cons).toNat < 0x11)) = true) ∧
    (let ws : List W64 := [0x0000000000020005, 0, 0, 0]
     fetched mRun ws = true ∧ opOf ws = 5 ∧ reservedSet ws 0x007FFFFFFFFF0000 1 = false ∧ fld (ew ws 0) 31 16 ≠ 0 ∧ fld (ew ws 0) 54 32 % 32 = 0) ∧
    (let ws : List W64 := [0x0000000000000006, 0, 0, 0]
     fetched mRun ws = true ∧ opOf ws = 6 ∧ reservedSet ws 0x0000003F00000200 1 = false ∧ bit (ew ws 0) 9 = false ∧
       ringOwner (tMov mRun ws) blkWQS (fld (ew ws 0) 37 32) = some mRun.d) ∧
    (let ws : List W64 := [0x0000000100000006, 0, 0, 0]
     fetched mRun ws = true ∧ ringOwner (tMov mRun ws) blkWQS (fld (ew ws 0) 37 32) ≠ some mRun.d) ∧
    (fetchedOne mRun 0x0000002000000007 = true ∧ opOf [0x0000002000000007] = 7 ∧ bit (ew [0x0000002000000007] 0) 9 = false ∧
      fetchedOne mRun 0x0000002000000207 = true ∧ bit (ew [0x0000002000000207] 0) 9 = true) ∧
    (fetchedOne mRun 0x8 = true ∧ opOf [0x8] = 8 ∧ eocOf [0x8] = false) ∧
    (fetched mRun [0x9, 0, 0, 0] = true ∧ 8 < opOf [0x9, 0, 0, 0] ∧ fetched mRun [0, 0, 0, 0] = true ∧ opOf [0, 0, 0, 0] = 0) ∧
    (let m : Mover := { mRun with prog := false, active := { src := 0x0000010000000005, dst := 0x0000020000000005, len := 7 } }
     m.active.ops &&& 0xE1 = 0 ∧ startOf (doMove (tMov m []) 2 m (setJob m)) = 0 ∧
     (let m := { m with active := { m.active with dst := 0x000003FF00000005 } }
      startOf (doMove (tMov m []) 2 m (setJob m)) = 1) ∧
     (let m := { m with active := { m.active with len := 0 } }
      startOf (doMove (tMov m []) 2 m (setJob m)) = 2)) ∧
    (let m : Mover := { mRun with prog := false, active := { dst := 0x0000020000000005, len := 7, ops := 1 } }
     startOf (doFill (tMov m []) 2 m m.active.dst (fld m.active.len 23 0) m.active.pat) = 0) := by decide +kernel

theorem witness_MoveCopiesItsBytes :
    (let j : BurstJob := { kind := .fill, dst := 0x10100, start := 0, len := 8 }
     let s := tMov { mRun with job := some j } []
     (tget s.movers 2).map (·.job) = some (some j) ∧ j.written = 0 ∧ j.stopping = false ∧ j.cons = none ∧ j.store = none ∧
       j.dst + j.len ≤ 2 ^ 23 ∧ 0 < j.len ∧ (List.range 8).all (fun x => !(isGone s (j.dst + x))) = true) ∧
    (let s := tMov mRun []
     xbitsOk 0x0000010000000005 = true ∧ isRing 0x0000010000000005 = false ∧
       okV (checkOperand s mRun 0x0000010000000005 7 false) (fun a => okV (checkOperand s mRun 0x0000010700000005 7 true) fun b =>
         decide (b + 7 ≤ 2 ^ 23) && decide (a + 7 ≤ b) && decide (failing s a 7 = [])) = true) := by decide +kernel

theorem witness_PagesRetireAndSummariesClear :
    (mayWrite tReg 0 blkBUF 0x80 = true ∧ bit 0x8010 15 = true ∧ fld 0x8010 10 0 = 0x10 ∧ (0x10 : Nat) ∉ tReg.retired ∧
      chargedIn tReg (0x10 * 4096) 4096 = none ∧ (∀ e ∈ tReg.entries, namesPage tReg 0x10 e = false)) ∧
    (0x10 ∈ ({ tReg with retired := [0x10] }).retired ∧ (chargedIn tReg (0x700 * 4096) 4096).isSome = true ∧
      namesPage (tFl [eRead 0x10] []) 0x10 (eRead 0x10) = true ∧ namesPage (tFl [eRead 0x10] []) 0x11 (eRead 0x10) = false) ∧
    mayWrite tReg 3 blkBUF (0x300 + 0x10 * (3 : Dom).toNat) = true := by decide +kernel

/-! ### Witnesses: chapter 13 -/

/-- Three records; the second can be raised. -/
def recs3 : Recorder :=
  { seq := 3, frozen := some ⟨1, some 1⟩
    recs := [(1, ⟨1, 0x001, 0, false, 1, 0, 0, 0, 0⟩), (2, ⟨2, 0x801, 0, false, 1, 0, 0, 7, 7⟩), (3, ⟨3, 0x001, 0, false, 1, 0, 0, 0, 0⟩)] }

theorem witness_TheRecorderIsFrozenAndExported :
    (mayWrite t0 0 blkREC 0x88 = true ∧ bit 1 1 = false ∧ bit 1 0 = true ∧ bit 3 1 = true) ∧
    (raisable recs3 0x801 7 7).isSome = true ∧ raisable { recs3 with frozen := some ⟨2, none⟩ } 0x801 7 7 = none ∧
    (let s := { t0 with recorder := recs3 }
     s.recorder.frozen = some ⟨1, some 1⟩ ∧ running s = true ∧ (⟨1, some 1⟩ : Freeze).left = some (0 + 1)) ∧
    ({ t0 with recorder := { recs3 with frozen := some ⟨1, some 0⟩ } }).recorder.frozen = some ⟨1, some 0⟩ ∧
    (let s := regSet tReg blkREC 0xB0 5
     mayWrite s 0 blkREC 0xB8 = true ∧ bit 0x8000003F00000001 63 = true ∧ s.recorder.xjob = none ∧
       okV (checkRegion s 0 (baseKey (regGet s blkREC 0xB0)) (baseOffset (regGet s blkREC 0xB0)) (16 * (fld 0x8000003F00000001 39 32 + 1)) true)
         (fun _ => true) = true ∧
       okV (checkRegion s 0 (baseKey (regGet s blkREC 0xB0)) (baseOffset (regGet s blkREC 0xB0)) (16 * (fld 0x8000004000000001 39 32 + 1)) true)
         (fun _ => true) = false) ∧
    (let s := { tReg with recorder := { recs3 with xjob := some { next := 1, left := 17, addr := 0x10000 } } }
     s.recorder.xjob.isSome = true ∧ 16 < (17 : Nat)) ∧
    recordOf { t0 with recorder := recs3 } 0 = none := by decide +kernel

theorem witness_FlushesAreRecorded :
    (let s := { t0 with recorder := { recs3 with flushSeq := 2 } }
     mayWrite s 0 blkREC 0x98 = true ∧ (2 : W32).toNat ≤ ((2 : W64).setWidth 32 : W32).toNat ∧ ((3 : W64).setWidth 32 : W32).toNat ≤ s.recorder.seq.toNat ∧
       ¬ (((4 : W64).setWidth 32 : W32).toNat ≤ s.recorder.seq.toNat)) ∧ State.reset.phase = .porHeld ∧
    vddioClass 3300 ≠ none := by decide +kernel

/-- A field is present; tile 60 is open to a session. -/
def tTag : State := { t0 with tag := { field := true, pwd := 0x1234, tiles := [(60, { comm := List.replicate 64 1, shadow := List.replicate 64 2, fieldread := false })] } }
def tTagOpen : State := { tTag with tag := { tTag.tag with unlocked := true } }

theorem witness_TheTagAnswersTheField :
    (tTag.tag.field = true ∧ named tTag .all = true ∧ named { tTag with tag := { tTag.tag with selected := true } } .selected = true) ∧
    (1023 < blockNo true 1024 ∧ blockNo true 1023 ≤ 1023 ∧ (tileOf (flipAll tTag) (blockNo true 959 / 16)).fieldread = false ∧
      (tileOf (flipAll tTag) (blockNo false 0 / 16)).fieldread = true ∧ (flipAll tTagOpen).tag.unlocked = true ∧ (flipAll tTag).tag.unlocked = false) ∧
    (blockNo true 1023 + (0 : Byte).toNat + 1 ≤ 1024 ∧ blockNo false 255 + (0 : Byte).toNat + 1 ≤ 256 ∧
      (∀ i, blockNo false 0 ≤ i → i ≤ blockNo false 0 + (3 : Byte).toNat → (tileOf (flipAll tTag) (i / 16)).fieldread = true)) ∧
    (60 : Byte).toNat + (3 : Byte).toNat < 64 ∧ tTag.tag.quiet = false ∧
    t0.tag.field = false ∧ t0.phase ≠ .deepHold ∧ blockNo true 959 < 960 ∧ 960 ≤ blockNo true 960 ∧
    ((flipAll tTag).tag.pwd ≠ 0 ∧ (flipAll tTag).tag.session.toNat < 3 ∧ (flipAll tTag).tag.total.toNat < 16 ∧ (flipAll tTag).tag.pwd = 0x1234) ∧
    (flipAll { tTag with tag := { tTag.tag with session := 3 } }).tag.session.toNat = 3 ∧
    (flipAll { tTag with tag := { tTag.tag with total := 16 } }).tag.total.toNat = 16 := by
  refine ⟨by decide +kernel, by decide +kernel, ?_, by decide +kernel⟩
  refine ⟨by decide +kernel, by decide +kernel, fun i _ h => ?_⟩
  have : i / 16 = 0 := by
    have : blockNo false 0 + (3 : Byte).toNat = 3 := by decide +kernel
    omega
  rw [this]; decide +kernel

/-- The tag's own UID is what `stayQuiet`, `select` and `inventory` name; another UID is another tag. -/
theorem witness_uids : (∃ u, u ≠ Config.uid) ∧ named tTag (.addressed Config.uid) = true ∧
    ∀ i, i < ((List.range 64).map fun i => Config.uid.getLsbD i).length →
      ((List.range 64).map fun i => Config.uid.getLsbD i)[i]? = some (Config.uid.getLsbD i) := by
  refine ⟨⟨Config.uid + 1, fun h => ?_⟩, decide_eq_true rfl, fun i h => ?_⟩
  · generalize Config.uid = u at h
    bv_omega
  · have h2 : i < 64 := by simpa using h
    rw [List.getElem?_map, List.getElem?_range h2]; rfl

theorem witness_TilesAreCommittedAndFlipped :
    (tileOf { t0 with tag := { tiles := [(60, { comm := [], shadow := [1], fieldread := false, pending := true })] } } (60 : BitVec 6).toNat).pending = true ∧
    (mayWrite t0 0 blkTAG 0xE0 = true ∧ bit 0x801C 15 = true ∧ fld 0x801C 5 0 = 28 ∧ isWired 28 = true ∧ isWired 59 = true ∧ isWired 60 = false ∧
      isWired 27 = false ∧ (tileOf t0 28).pending = false ∧ fld 0x801C 9 8 = 0 ∧ fld 0x811C 9 8 = 1 ∧ fld 0x823C 9 8 = 2) ∧
    t0.recorder.bad = [] ∧ (mayWrite t0 0 blkTAG 0xE8 = true ∧ (∀ e ∈ t0.tag.inSlots, e.1 < 96)) ∧ mayWrite t0 0 blkTAG 0xF0 = true ∧ coreOn State.reset = false := by
  decide +kernel

/-! ### Witnesses: chapters 14 to 16 -/

/-- Armed for Deep Hold with nothing to do. -/
def tArmed : State := { t0 with pmu := { armed := true, rest := 2 } }

theorem witness_RestAndDeepHold :
    (live t0 = true ∧ busyNow t0 = false ∧ t0.pmu.state ≠ t0.pmu.rest ∧ busyNow { t0 with pmu := { finish := true } } = true ∧
      ({ t0 with pmu := { state := 3 } }).pmu.state = ({ t0 with pmu := { state := 3 } }).pmu.rest) ∧
    (mayWrite t0 0 blkPMU 0x88 = true ∧ bit 1 1 = false ∧ bit 2 1 = true) ∧
    (atBoundary { tArmed with now := ⟨5, 0, 0⟩ } = true ∧ atBoundary tArmed = false ∧ tArmed.pmu.armed = true ∧ tArmed.conns = [] ∧ busyNow tArmed = false ∧ tArmed.pmu.packetPrev = false ∧ vbatLow tArmed = false ∧
      noCommit tArmed = true ∧ bit (regGet { tArmed with regs := [(regAddr blkTAG 0x80, 0)] } blkTAG 0x80) 0 = false) ∧
    (t0.pmu.armed = false ∧ t2.conns ≠ [] ∧
      vbatLow { tArmed with mon := { supwarn := true, volts := [(8, { mv := 1999 })] } } = true ∧
      vbatLow { tArmed with mon := { supwarn := true, volts := [(8, { mv := 2000 })] } } = false) ∧
    (let s := { State.reset with phase := .deepHold, pmu := { seglatch := 2 } }
     s.phase = .deepHold ∧ (3 : BitVec 4) &&& BitVec.ofNat 4 (s.pmu.seglatch.toNat + 8 * b2n s.pmu.tagwake) ≠ 0 ∧
       (9 : BitVec 4) &&& BitVec.ofNat 4 (s.pmu.seglatch.toNat + 8 * b2n s.pmu.tagwake) = 0) := by decide +kernel

/-- Nine readings at 140 °C in quarter degrees, just below it, and at -40 °C. -/
theorem witness_TemperatureIsActedOnTwice :
    (coreOn t0 = true ∧ (List.replicate 9 (560 : W16)).length = 9 ∧ (560 : W16).toInt = 560 ∧ (559 : W16).toInt = 559) ∧
    (warnAt t0 = 460 ∧ throttleAt t0 = 500) ∧
    (let s := { t0 with mon := { warn := true, throttle := true, prevWarn := true, prevThr := true, prevFail := true } }
     coreOn s = true ∧ s.mon.hot = false ∧ s.mon.prevFail = true ∧ s.mon.prevWarn = true) := by
  refine ⟨⟨rfl, rfl, by decide, by decide⟩, ⟨?_, ?_⟩, ⟨rfl, rfl, rfl, rfl⟩⟩ <;> decide +kernel

theorem witness_SupplyDipsAreCounted :
    elapsed t0 0 400000 = true ∧ elapsed t0 (t0.frames * 400000) 400000 = false ∧
    (coreOn t0 = true ∧ (8 : BitVec 4).toNat ≤ 8 ∧ (1999 : W16).toNat < (railLimits t0 8).1) ∧
    ((759 : W16).toNat < (railLimits t0 0).1 ∧ (740 : W16).toNat < (railLimits t0 0).1 ∧ (railLimits t0 0).2 ≤ (740 : W16).toNat ∧
      (739 : W16).toNat < (railLimits t0 0).2) := by decide +kernel

/-- Channel 0 has found its targets and is harmless. -/
def tHarm : State :=
  { t0 with
    pmu := { harmless := true }
    fchs := [(0, { ended := true, found := 1, geo := ⟨4, 1024, 512, 16⟩, luns := [(0, { state := .idle })] })] }

theorem witness_TheHarmlessStateEnds :
    (let s := { tHarm with pmu := { harmless := true, finish := true } }
     live s = true ∧ elapsed s s.pmu.finishAt 800000 = true ∧ (List.range 8).all (fun c => decide (busyLuns s c = 0)) = true) ∧
    (coreOn { tHarm with pmu := { harmless := true, brownWait := true } } = true) ∧
    (atBoundary { tHarm with now := ⟨5, 0, 0⟩ } = true ∧ tHarm.pmu.harmless = true ∧ tHarm.pmu.causes = 0 ∧ tHarm.pmu.finish = false ∧ tHarm.mon.throttle = false ∧
      (fchOf tHarm 0).ended = true ∧ (fchOf tHarm 0).found ≠ 0 ∧ (fchOf tHarm 0).vccqBad = false ∧ (fchOf tHarm 1).found = 0) ∧
    ({ tHarm with pmu := { causes := 4 } }).pmu.causes ≠ 0 := by decide +kernel

theorem witness_PowerOnResetAndItsRelease :
    (t0.phase ≠ .porHeld ∧ t0.phase ≠ .deepHold ∧ t0.fus.busy = none) ∧
    (vddioClass 2000 = none ∧ vddioClass 3300 ≠ none ∧ vddioClass 1800 ≠ none) ∧
    (State.reset.phase = .porHeld ∧ State.reset.clk.noTime = true ∧ State.reset.conns = []) := by decide +kernel

theorem witness_SystemResetsKeepWhatLasts :
    (t0.phase = .running ∧ t0.fus.busy = none) ∧ (mayWrite t0 0 blkGLB 0x88 = true ∧ fld 0x5A01 1 0 = 1 ∧ fld 0x5A01 15 8 = 0x5A ∧
      t0.glb.sysReq = none ∧ fld 0x5B01 1 0 = 1 ∧ fld 0x5B01 15 8 ≠ 0x5A) ∧
    (atBoundary { t0 with now := ⟨5, 0, 0⟩ } = true ∧ atBoundary t0 = false ∧
      ({ t0 with glb := { t0.glb with sysReq := some 0 } }).glb.sysReq = some 0) ∧
    ({ t0 with phase := .resetHeld }).phase = .resetHeld := by decide +kernel

theorem witness_FlashResetsAndReady :
    (mayWrite t0 0 blkGLB 0x88 = true ∧ fld 0x5A02 15 8 = 0x5A ∧ fld 0x5A02 1 0 = 2 ∧ mayWrite t0 0 blkBOOT 0x98 = true ∧ bit 1 0 = true ∧
      t0.glb.ready = true ∧ t0.glb.flashrst = false ∧ inFlightOnChannels t0 = 0) ∧
    (inFlightOnChannels (tFl [eRead 0x10] []) ≠ 0 ∧ ({ t0 with glb := {} }).glb.ready = false) ∧
    (let s := { t0 with glb := { t0.glb with phase := 5 }, boot := { t0.boot with busy := true, loaded := true }
                        fchs := (List.range 8).map fun c => (c, { ended := true }) }
     s.boot.busy = true ∧ s.boot.loaded = true ∧ allEnded s = true ∧ live s = true ∧ s.glb.phase = 5) ∧
    allEnded t0 = false := by decide +kernel

theorem witness_RegistersAreReadAndWritten :
    (mayWrite t0 0 0x01 oLCK = true ∧ mayWrite t0 0 0x01 oERR = true ∧ bit 0x1000 12 = true ∧ mayWrite t0 0 0x01 oSNP = true ∧
      bit 0x100000000 32 = true ∧ mayWrite t0 0 0x01 oEVS = true) ∧
    ((0x01000 + oSCR) / 4096 = 1 ∧ mayWrite t0 0 0x01 oSCR = true ∧ mayWrite t0 0 0x01 oEVE = true ∧ isFch blkFCH = true ∧
      isHeader 0x80 = false ∧ regMask blkFCH 0x80 ≠ 0 ∧ mayWrite t0 0 blkFCH 0x80 = true) ∧
    (listed 0x01 0xD0 = true ∧ canRead t0 0 0x01 0xD0 = true ∧ groupOf 0x01 0xD0 = some (0, 0xD0, 2) ∧ groupOf 0x01 0xD8 = some (0, 0xD0, 2) ∧
      canRead t0 0 0x01 0xD8 = true ∧ findLatch { t0 with latches := [⟨1, 0, 0, [5, 6]⟩] } 0 1 0 = some ⟨1, 0, 0, [5, 6]⟩ ∧ groupOf 0x01 0x80 = none ∧
      listed 0x01 0x80 = true ∧ canRead t0 0 0x01 0x80 = true) ∧
    listed 0x01 0x078 = false ∧ ((List.range 256).any fun k => listed k 0x80 && !(canRead t0 3 k 0x80)) = true := by decide +kernel

/-! ### Tests of single commands; each comment names the source of the expected value -/

/-- R548: every block reads MAJOR 1, MINOR 0. -/
theorem test_version_register : (readReg t0 0 0x01 0x008).2 = 0x100 := by decide +kernel

/-- R544, R545: block index 0x20 upwards is in bits [19:12] of an address. -/
theorem test_address_split : (addrBlk 0x20080, addrOff 0x20080) = (0x20, 0x080) := by decide +kernel

/-- R110: CRC-32C of the nine ASCII digits is the published check value. -/
theorem test_crc32c_check : crc32c [0x31, 0x32, 0x33, 0x34, 0x35, 0x36, 0x37, 0x38, 0x39] = 0xE3069283 := by decide +kernel

/-- R109: a CLOSE with ACKV, NODE 1, LSEQ 0xA5, LACK 0x3C, CONN 0x155 and RSEQ 0xBEEF, its bits placed by hand from the table. -/
theorem test_header_bytes :
    headerBytes { type := tyCLOSE, ackv := true, node := 1, lseq := 0xA5, lack := 0x3C, conn := 0x155, rseq := 0xBEEF, len := 0 } =
      [tyCLOSE, 0x11, 0x50, 0xCA, 0x53, 0xD5, 0xBB, 0x2F, 0, 0, 0, 0, 0, 0, 0, 0] ∧ tyCLOSE = 0x12 := by decide +kernel

/-- R141: RSEQ, TYPE, RST, PARAM and epoch in their places. -/
theorem test_response_record : respWord ⟨0x1234, 0x20, 5, 0xABCD, 0x5678⟩ = 0x5678ABCD05201234 := by decide +kernel

/-- R69: an ACK, 20 bytes with its CRC, has 31 characters and 1.24 µs of air time. -/
theorem test_ack_air : (charsOn .a (txAckPacket 1 0 true)).length = 31 ∧ airOf (charsOn .a (txAckPacket 1 0 true)) = 496 := by
  decide +kernel

/-- R316: a seed of zero is replaced by all ones. -/
theorem test_randomiser_seed : rndSeed 0 = 0x7FFFFFFF := by decide +kernel

/-- R311: the S-box values of FIPS 197. -/
theorem test_sbox : (sboxOf 0x53, invSboxOf 0xED) = (0xED, 0x53) := by decide +kernel

/-- R371: the digest of "abc" in FIPS 180-4, first and last word. -/
theorem test_sha256 : (slice (sha256 [0x61, 0x62, 0x63]) 0 4, slice (sha256 [0x61, 0x62, 0x63]) 28 4) =
    ([0xBA, 0x78, 0x16, 0xBF], [0xF2, 0x00, 0x15, 0xAD]) := by decide +kernel

/-- R13, R61: the count goes on at the boundary and the slot begins anew. -/
theorem test_frame_boundary : leaves (.frameBoundary none) t0 (fun t => decide (t.now = ⟨6, 0, 0⟩)) = true := by decide +kernel

/-- R27, R546: a write of a reserved address is a silent violation of the writer's epoch alone. -/
theorem test_silent_violation : leaves (.registerWrite 3 0x00078 1) t0 (fun t => decide (tgetD t.epochs 3 0 = 1 ∧ tgetD t.epochs 0 0 = 0 ∧ t.regs = t0.regs)) =
    true := by decide +kernel

/-- R94: a JOIN of a free number is joined with its nonce. -/
theorem test_join : leaves (.join rxJ 1 9) t0 (fun t => decide ((nodeSt t.segA 1).state = .joined ∧ (nodeSt t.segA 1).nonce = 9)) = true := by decide +kernel

/-- R115: a packet with an LSEQ already taken is a duplicate, and its request is not executed. -/
theorem test_duplicate : leaves (.close { rq0 with rx := { rxA with lseq := 255 } }) t2 (fun t => decide (t.linkDup = 1 ∧ (tget t.conns 0).isSome = true)) =
    true := by decide +kernel

/-- R137: a REGION_WRITE stores its bytes from its offset on. -/
theorem test_region_write : leaves (.regionWrite rq0 0x5 8 [0xAA, 0xBB]) tReg (fun t => decide (memGet t 0x10008 = 0xAA ∧ memGet t 0x10009 = 0xBB)) = true := by
  decide +kernel

/-- R182: a claim gives the lowest-numbered free ring, and the outcome the next SEQ. -/
theorem test_claim : leaves (.sqClaim 0 0) t0 (fun t => decide (tget t.sqs 0 = some { owner := 0 } ∧ fld (regGet t blkWQS 0x100) 63 48 = 1)) = true := by
  decide +kernel

/-- R205: an entry that ends OK has status 0x00. -/
theorem test_nop : leaves (.nop ⟨0, 0⟩) (withEnt (ent [0x101])) (fun t => decide ((entryOf? t ⟨0, 0⟩).map (·.status) = some 0x00)) = true := by decide +kernel

/-- R405: FILL writes the pattern by address, least significant byte at an address divisible by eight. -/
theorem test_fill : leaves (.burstGrant true 0)
    (tMov { mRun with job := some { kind := .fill, dst := 0x10100, start := 0, len := 8, pat := 0x1122334455667788 } } [])
    (fun t => decide (memGet t 0x10100 = 0x88 ∧ memGet t 0x10107 = 0x11)) = true := by decide +kernel

/-- R392: a MOVE copies bytes from its source to its destination. -/
theorem test_move :
    (let s := tMov { mRun with job := some { kind := .move, src := [(0x10100, 7)], dst := 0x10200, start := 0, len := 7 } } []
     let t := grantedBurst (grantedBurst s false 2) true 2
     memGet t 0x10203 = 3 ∧ memGet t 0x10206 = 6 ∧ (tget t.movers 2).map (·.job) = some none) := by decide +kernel

/-- R462: a block past the last answers error 0x10. -/
theorem test_tag_last_block : leaves (.readSingleBlock .all true false 1024) tTag (fun t => decide (t.out.getLast? = some (.tagAnswer [1, 0x10]))) = true := by
  decide +kernel

/-- R501: a dip of less than 2 µs counts as a glitch and warns nobody. -/
theorem test_glitch : leaves (.supplyDip 8 1999 1) t0 (fun t => decide (t.mon.supwarn = false ∧ (tgetD t.mon.volts 8 {}).glitch = 1)) = true := by decide +kernel

/-- R535: without 0x5A a reset command does nothing. -/
theorem test_unconfirmed_reset : leaves (.systemResetRequest 0 0x0001) t0 (fun t => decide (t = t0)) = true := by decide +kernel

/-- R456: FREEZE latches SEQ and records RECORDER_FROZEN. -/
theorem test_freeze : leaves (.freeze 0 1) t0 (fun t => decide (t.recorder.fseq = 0 ∧ t.recorder.seq = 1 ∧ t.recorder.frozen.isSome = true)) = true := by
  decide +kernel

end Sys2Proof.Tests
end

section
/-! What a silent violation leaves behind (R27): VIOLATION has no EVS bit and is never captured in ERR (R549), so its occurrence
is the one record or tally raise, and nothing else of the state moves but the domain's epoch. -/

namespace Sys2Proof.Machine

/-! ### Occurrences of a code without an EVS bit -/

theorem setEvs_of_noEvsBit (s : State) {b : Nat} {c : BitVec 12} (h : evsBitOf b c = none) : setEvs s b c = s := by
  simp only [setEvs, h]

/-- No EVS bit, no EVE bit to enable: nobody receives a copy (R151). -/
theorem routeOf_of_noEvsBit (s : State) {b : Nat} {c : BitVec 12} (h : evsBitOf b c = none) : routeOf s b c = [] := by
  simp only [routeOf, h]

/-- An occurrence that is recorded and has no EVS bit is its record alone (R451, R559). -/
theorem occur_of_noEvsBit (s : State) {b : Nat} {c : BitVec 12} (p0 p1 : W32) (hrec : isEventOnly c = false)
    (hbit : evsBitOf b c = none) : occur s b c p0 p1 = recordAt s s.now.frame s.now.slot b c p0 p1 := by
  simp only [occur, occurAt, hrec, Bool.false_eq_true, if_false, setEvs_of_noEvsBit _ hbit, routeOf_of_noEvsBit _ hbit, copyTo]

/-! ### The code VIOLATION -/

theorem isEventOnly_violation : isEventOnly 0x206 = false := by decide

theorem evsBitOf_violation : evsBitOf blkDOM 0x206 = none := by decide

/-- ERR never captures VIOLATION (R549). -/
theorem captureErr_violation (s : State) (b : Nat) : captureErr s b 0x206 = s :=
  if_pos (by simp)

/-- Recording VIOLATION changes the recorder alone: a raised tally is in it, and a new record is not captured in ERR. -/
theorem recordAt_violation_frame (s : State) (fr : W32) (sl : BitVec 6) (b : Nat) (p0 p1 : W32) :
    recordAt s fr sl b 0x206 p0 p1 = { s with recorder := (recordAt s fr sl b 0x206 p0 p1).recorder } := by
  unfold recordAt
  cases raisable s.recorder 0x206 p0 p1 with
  | some x => rfl
  | none => simp only [captureErr_violation]

/-! ### The violation -/

/-- A state in which a domain's epoch has advanced by one, modulo 65,536 (R27). -/
def advanceEpoch (s : State) (d : Dom) : State := { s with epochs := tset s.epochs d.toNat (epochOf s d + 1) }

/-- A silent violation advances the epoch, then records VIOLATION: no EVS bit, no copy. -/
theorem violate_eq_recordAt (s : State) (d : Dom) (v : Viol) (o : Origin) :
    violate s d v o = recordAt (advanceEpoch s d) s.now.frame s.now.slot blkDOM 0x206 (violP0 d v o) v.p1 :=
  occur_of_noEvsBit (advanceEpoch s d) _ _ isEventOnly_violation evsBitOf_violation

/-- The recorder does not see the epoch: what it raises or adds is what it would have before the advance. -/
theorem violate_recorded (s : State) (d : Dom) (v : Viol) (o : Origin) :
    Recorded s (violate s d v o) blkDOM 0x206 (violP0 d v o) v.p1 := by
  rw [violate_eq_recordAt]
  exact recordAt_recorded (advanceEpoch s d) _ _ _ _ _ _

/-- Every part of the state but the recorder is as the epoch's advance leaves it. -/
theorem violate_frame (s : State) (d : Dom) (v : Viol) (o : Origin) :
    violate s d v o = { advanceEpoch s d with recorder := (violate s d v o).recorder } := by
  rw [violate_eq_recordAt]
  exact recordAt_violation_frame _ _ _ _ _ _

@[simp] theorem violate_epochs (s : State) (d : Dom) (v : Viol) (o : Origin) :
    (violate s d v o).epochs = tset s.epochs d.toNat (epochOf s d + 1) :=
  congrArg State.epochs (violate_frame s d v o)

theorem epochOf_violate_self (s : State) (d : Dom) (v : Viol) (o : Origin) :
    epochOf (violate s d v o) d = epochOf s d + 1 := by
  rw [epochOf, violate_epochs, tgetD_tset_self]

theorem epochOf_violate_ne (s : State) {d e : Dom} (v : Viol) (o : Origin) (h : e ≠ d) :
    epochOf (violate s d v o) e = epochOf s e := by
  have hNat : e.toNat ≠ d.toNat := fun k => h (BitVec.eq_of_toNat_eq k)
  rw [epochOf, violate_epochs, tgetD_tset_ne _ _ _ hNat, epochOf]

/-- Settles O8: VIOLATION is recorded without EVS bit, copy or ERR, so the epoch and the recorder are all that moves. -/
theorem violationLeavesNoOtherTrace : Obligations.ViolationLeavesNoOtherTrace := by
  intro s d v o
  refine ⟨violate_recorded s d v o, ?_, epochOf_violate_self s d v o, fun e => epochOf_violate_ne s v o⟩
  rw [violate_epochs]
  exact violate_frame s d v o

end Sys2Proof.Machine
end

section
/-! The commit of the wall pair (R63): CLK.WALLT's write commits, whatever CLK.WALLF holds by then, and CLK.WALLF's own write is a
plain register write, which touches the registers alone. -/

namespace Sys2Proof.Machine

/-! ### Registers that keep what is written -/

theorem regsBut_regStore (s : State) (b o : Nat) (v : W64) : regsBut s (regStore s b o v) [regAddr b o] :=
  regsBut_regSet _ _ _ _

/-- Where the writable fields fill the low `n` bits, those bits read back as written (R9, R555). -/
theorem setWidth_regGet_regStore (s : State) {b o n : Nat} (v : W64) (hn : n ≤ 64)
    (hmask : (regMask b o).setWidth n = BitVec.allOnes n) :
    (regGet (regStore s b o v) b o).setWidth n = v.setWidth n := by
  have hold : (regGet s b o &&& ~~~ regMask b o).setWidth n = 0 := by
    rw [BitVec.setWidth_and, BitVec.setWidth_not hn, hmask]; simp
  rw [regStore, regGet_regSet_self, BitVec.setWidth_or, hold, BitVec.setWidth_and, hmask]
  simp

/-- WALLF's field is its low 32 bits. -/
theorem regMask_wallF : (regMask blkCLK 0xD0).setWidth 32 = BitVec.allOnes 32 := by decide

/-! ### The two writes -/

theorem exec_wallSet (s : State) (w : Dom) (v : W64) :
    exec (.wallSet w v) s = .next (guardedWrite s w blkCLK 0xD8 {} fun s => writeWallT s v) := rfl

theorem exec_registerWrite (s : State) (w : Dom) (a : BitVec 20) (v : W64) :
    exec (.registerWrite w a v) s = .next (writeReg s w {} a.toNat v) := rfl

/-- The committed frame count is the one that stood in WALLF before the write of WALLT. -/
theorem writeWallT_eq (s : State) (v : W64) :
    writeWallT s v = occur
      { regSet s blkCLK 0xD8 v with clk := { s.clk with wall := some ((regGet s blkCLK 0xD0).setWidth 32, v) } }
      blkCLK 0x009 ((regGet s blkCLK 0xD0).setWidth 32) (BitVec.ofNat 32 (v.toNat / 1000000)) := by
  have hWallF : regGet (regSet s blkCLK 0xD8 v) blkCLK 0xD0 = regGet s blkCLK 0xD0 :=
    regGet_regSet_ne s v (by decide)
  simp only [writeWallT, hWallF, regSet_clk]

/-- A register write of WALLF takes the guard of WALLF's address, and its effect is to store the register. -/
theorem writeReg_wallF (s : State) (w : Dom) (og : Origin) (v : W64) :
    writeReg s w og (regAddr blkCLK 0xD0) v = guardedWrite s w blkCLK 0xD0 og fun s => regStore s blkCLK 0xD0 v := rfl

/-- Settles O11: WALLT's write leaves WALLF as it was read, and WALLF's write has no effect but its register's value. -/
theorem wallPairIsCommitted : Obligations.WallPairIsCommitted := by
  intro s w v
  constructor
  · intro hWallT
    rw [exec_wallSet, guardedWrite_of_mayWrite _ _ hWallT, writeWallT_eq]
    rfl
  · intro hWallF
    have haddr : (BitVec.ofNat 20 (regAddr blkCLK 0xD0)).toNat = regAddr blkCLK 0xD0 := by decide
    refine ⟨regStore s blkCLK 0xD0 v, ?_, setWidth_regGet_regStore s v (by decide) regMask_wallF, rfl, regsBut_regStore _ _ _ _⟩
    rw [exec_registerWrite, haddr, writeReg_wallF, guardedWrite_of_mayWrite _ _ hWallF]

end Sys2Proof.Machine
end

section
/-! What each command keeps. Every command answers a next state; outside the five that can end the programming of a fuse, that
state has the queue of the state before, its memory in canonical form where it was, and the fuses as they were but for a command
in progress (`Keeps`). -/

namespace Sys2Proof.Machine

/-- The outcome is a next state that keeps what `s` holds. -/
def KeepsNext (s : State) (o : Host.Outcome State Fault Refusal) : Prop := ∃ t, o = .next t ∧ Keeps s t

theorem KeepsNext.next {s t : State} (h : Keeps s t) : KeepsNext s (.next t) := ⟨t, rfl, h⟩

/-! ### What `Keeps` asks of an update and a choice, and of the shapes many commands share -/

/-- `Keeps` looks at the queue, the memory and the fuses alone. -/
theorem Keeps.of_eq {s0 s t : State} (h : Keeps s0 s) (hq : t.pending = s.pending) (hm : t.mem = s.mem) (hf : t.fus = s.fus) :
    Keeps s0 t := by
  obtain ⟨kq, km, kf⟩ := h
  exact ⟨hq.trans kq, fun w => hm ▸ km w, hf ▸ kf⟩

theorem keeps_ite {s0 s t : State} {c : Prop} [Decidable c] (hs : Keeps s0 s) (ht : Keeps s0 t) :
    Keeps s0 (if c then s else t) := by
  split
  · exact hs
  · exact ht

/-- A register's write by a domain keeps what its effect keeps, denied or not (R25, R546). -/
theorem keepsNext_guardedWrite {s : State} {w : Dom} {b o : Nat} {og : Origin} {eff : State → State}
    (h : ∀ u, Keeps s u → Keeps s (eff u)) : KeepsNext s (.next (guardedWrite s w b o og eff)) :=
  .next (guardedWrite_keeps _ _ _ _ _ _ h (.refl s))

/-- A request of a connection keeps what its run keeps. -/
theorem keepsNext_request {s : State} {rq : Req} {p : Packet} {run : State → Conn → State × Answered}
    (h : ∀ u c, Keeps s u → Keeps s (run u c).1) : KeepsNext s (.next (request rq p run s)) :=
  .next (request_keeps _ _ _ _ h (.refl s))

/-- A tag command keeps what its effect keeps. -/
theorem keepsNext_fieldCommand {s : State} {a : TagAddr} {go : State → State}
    (h : ∀ u, Keeps s u → Keeps s (go u)) : KeepsNext s (.next (fieldCommand s a go)) :=
  .next (fieldCommand_keeps _ _ _ h (.refl s))

/-- A flash row keeps what its start keeps. -/
theorem keepsNext_flashRow {s : State} {r : EntryRef} {op l : Nat} {go : State → Entry → State}
    (h : ∀ u e, Keeps s u → Keeps s (go u e)) : KeepsNext s (.next (flashRow s r op l go)) :=
  .next (flashRow_keeps _ _ _ _ _ h (.refl s))

/-- An admin row keeps what its effect keeps. -/
theorem keepsNext_adminRow {s : State} {r : EntryRef} {op : Nat} {go : State → Entry → State}
    (h : ∀ u e, Keeps s u → Keeps s (go u e)) : KeepsNext s (.next (adminRow s r op go)) :=
  .next (adminRow_keeps _ _ _ _ h (.refl s))

/-- A mover's instruction row keeps what the instruction keeps. -/
theorem keepsNext_instrRow {s : State} {n : BitVec 4} {op : Nat} {go : State → Nat → Mover → List W64 → State}
    (h : ∀ k m ws, Keeps s (go s k m ws)) :
    KeepsNext s (.next (movRow s n fun k m => instrRow s k op m fun s m ws => go s k m ws)) :=
  .next (movRow_keeps _ _ _ (fun k _ => instrRow_keeps _ _ _ _ _ (fun m ws => h k m ws) (.refl s)) (.refl s))

/-- A mover runs an instruction of its program, or its active set (R402). -/
theorem keepsNext_instrOrSet {s : State} {n : BitVec 4} {op : Nat} {fill : Bool}
    {go : State → Nat → Mover → List W64 → State} (h : ∀ k m ws, Keeps s (go s k m ws)) :
    KeepsNext s (.next (movRow s n fun k m =>
      if m.prog then instrRow s k op m fun s m ws => go s k m ws else setRow s k m fill)) := by
  refine .next (movRow_keeps _ _ _ (fun k m => keeps_ite ?_ ?_) (.refl s))
  · exact instrRow_keeps _ _ _ _ _ (fun m ws => h k m ws) (.refl s)
  · exact setRow_keeps _ _ _ _ (.refl s)

/-! ### Timekeeping (chapter 2) -/

theorem execTick_keepsNext (rx : Rx) (q : Byte) (i n : W32) (s : State) : KeepsNext s (execTick rx q i n s) := by
  refine .next (keeps_ite (keeps_ite ?_ (.refl s)) (keeps_ite ?_ ?_))
  · exact heardInAcquisition_keeps _ _ (measureInAcquisition_keeps _ _ _ _ _ (.refl s))
  · exact ignoreTick_keeps _ _ (.refl s)
  · have hr : Keeps s (receiveAB s rx true).1 := receiveAB_keeps _ _ _ (.refl s)
    have ht := tickRunning_keeps _ rx q i.toNat n.toNat hr
    exact keeps_ite (keeps_ite (takeUnsequenced_keeps _ _ ht) ht) hr

theorem execForwardedClockLost_keepsNext (s : State) : KeepsNext s (execForwardedClockLost s) := by
  refine .next (keeps_ite ?_ (.refl s))
  extract_lets v clk u
  have hu : Keeps s u := setSrc_keeps _ _ _ ((Keeps.refl s).of_eq rfl rfl rfl)
  refine keeps_ite ?_ (keeps_ite (enterHoldover_keeps _ hu) hu)
  split
  · exact keeps_ite (hu.of_eq rfl rfl rfl) hu
  · exact hu

theorem execForwardedClockLock_keepsNext (s : State) : KeepsNext s (execForwardedClockLock s) := by
  have hClk : Keeps s { s with clk := { s.clk with cki := true, ckiLocked := true } } := (Keeps.refl s).of_eq rfl rfl rfl
  exact .next (keeps_ite (keeps_ite (heardInAcquisition_keeps _ _ (setSrc_keeps _ _ _ hClk)) hClk) (.refl s))

theorem execAcquisitionWindowEnd_keepsNext (s : State) : KeepsNext s (execAcquisitionWindowEnd s) := by
  refine .next (keeps_ite ?_ (.refl s))
  split
  · split
    · exact tryLock_keeps _ ((Keeps.refl s).of_eq rfl rfl rfl)
    · exact .refl s
  · exact (Keeps.refl s).of_eq rfl rfl rfl

theorem execFaultyExpiry_keepsNext (n : BitVec 6) (s : State) : KeepsNext s (execFaultyExpiry n s) :=
  .next (keeps_ite (setSrc_keeps _ _ _ (.refl s)) (.refl s))

theorem execTimekeeperSwitch_keepsNext (s : State) : KeepsNext s (execTimekeeperSwitch s) := by
  refine .next (keeps_ite ?_ (.refl s))
  split
  · exact switchTo_keeps _ _ _ (.refl s)
  · exact .refl s

theorem execTimekeeperRevert_keepsNext (s : State) : KeepsNext s (execTimekeeperRevert s) := by
  refine .next (keeps_ite ?_ (.refl s))
  split
  · exact switchTo_keeps _ _ _ (.refl s)
  · exact .refl s

theorem execForceSwitch_keepsNext (s : State) : KeepsNext s (execForceSwitch s) := by
  have hClk : Keeps s { s with clk := { s.clk with forceReq := none } } := (Keeps.refl s).of_eq rfl rfl rfl
  refine .next (keeps_ite (.refl s) ?_)
  dsimp only
  split
  · exact keeps_ite (switchTo_keeps _ _ _ hClk) hClk
  · exact hClk

theorem execSourceDemotion_keepsNext (s : State) : KeepsNext s (execSourceDemotion s) :=
  .next (keeps_ite (.refl s) ((Keeps.refl s).of_eq rfl rfl rfl))

theorem execHoldoverExpired_keepsNext (s : State) : KeepsNext s (execHoldoverExpired s) := by
  refine .next (keeps_ite ?_ (.refl s))
  exact resumeAll_keeps _ (dropGuarantees_keeps _ (stopMovers_keeps _ ((occur_keeps _ _ _ _ _ (.refl s)).of_eq rfl rfl rfl)))

theorem execDrainTimeout_keepsNext (s : State) : KeepsNext s (execDrainTimeout s) := by
  refine .next (keeps_ite ?_ (.refl s))
  extract_lets s1 s2 s3
  have h1 : Keeps s s1 := endFrameAB_keeps _ _ (endFrameAB_keeps _ _ (.refl s))
  have hStop (u : State) (c : Nat) (h : Keeps s u) : Keeps s (stopChannel (abortChannel u c stABORTED) c) :=
    stopChannel_keeps _ _ (abortChannel_keeps _ _ _ h)
  have h2 : Keeps s s2 := completeAll_keeps _ (foldl_keeps _ _ _ hStop (abortAll_keeps _ h1))
  have h3 : Keeps s s3 := harmlessEnter_keeps _ _ _ _ h2
  exact h3.of_eq rfl rfl rfl

/-! ### Segments (chapter 3) -/

theorem execJoin_keepsNext (rx : Rx) (i : BitVec 4) (n : W32) (s : State) : KeepsNext s (execJoin rx i n s) := by
  refine .next ?_
  split
  · exact joinC_keeps _ _ _ _ (.refl s)
  · exact receiveJoin_keeps _ _ _ _ _ (fun _ h => judgeJoin_keeps _ _ _ _ h) (.refl s)

theorem execRange_keepsNext (rx : Rx) (i : BitVec 4) (n : W32) (s : State) : KeepsNext s (execRange rx i n s) := by
  refine .next ?_
  split
  · exact receiveC_keeps _ _ (.refl s)
  · exact receiveJoin_keeps _ _ _ _ _ (fun _ h => judgeRange_keeps _ _ _ _ h) (.refl s)

theorem execAck_keepsNext (rx : Rx) (s : State) : KeepsNext s (execAck rx s) := by
  have hr : Keeps s (receive s rx).1 := receive_keeps _ _ (.refl s)
  exact .next (keeps_ite (takeUnsequenced_keeps _ _ hr) hr)

theorem execErroredReception_keepsNext (rx : Rx) (e : RxErrors) (bad : Bool) (s : State) :
    KeepsNext s (execErroredReception rx e bad s) := by
  refine .next (keeps_ite (.refl s) ?_)
  split
  · exact (Keeps.refl s).of_eq rfl rfl rfl
  · exact keeps_ite (.refl s) (damagedAB_keeps _ _ _ _ (.refl s))

theorem execPacketRejected_keepsNext (rx : Rx) (bytes : List Byte) (s : State) :
    KeepsNext s (execPacketRejected rx bytes s) := by
  refine .next ?_
  split
  · exact wellFormedOnly_keeps _ _ _ _ (fun _ h => h) (.refl s)
  · exact .refl s

theorem execUpSlotEnd_keepsNext (g : Seg) (k : BitVec 6) (s : State) : KeepsNext s (execUpSlotEnd g k s) := by
  refine .next ?_
  split
  · exact .refl s
  · exact keeps_ite (endUpSlot_keeps _ _ _ (settleHit_keeps _ _ _ (enterSlot_keeps _ _ _ (.refl s)))) (.refl s)

theorem execDownSlot_keepsNext (g : Seg) (k : BitVec 6) (s : State) : KeepsNext s (execDownSlot g k s) := by
  have hSlot (g : Seg) : Keeps s (enterSlot s g k) := enterSlot_keeps _ _ _ (.refl s)
  refine .next ?_
  split
  · exact keeps_ite (sendOne_keeps _ _ _ (.refl s)) (.refl s)
  · refine keeps_ite ?_ (.refl s)
    dsimp only
    split
    · exact keeps_ite (sendDown_keeps _ _ _ _ (hSlot _)) (hSlot _)
    · exact hSlot _

theorem execRetransmitTimerC_keepsNext (s : State) : KeepsNext s (execRetransmitTimerC s) :=
  .next (keeps_ite (setLink_keeps _ _ _ (.refl s)) (.refl s))

theorem execMuteEnd_keepsNext (g : Seg) (i : BitVec 4) (s : State) : KeepsNext s (execMuteEnd g i s) := by
  refine .next ?_
  split
  · exact .refl s
  · exact keeps_ite (setSegAB_keeps _ _ _ (.refl s)) (.refl s)

theorem execLinkLost_keepsNext (n : BitVec 6) (s : State) : KeepsNext s (execLinkLost n s) :=
  .next (keeps_ite (requireRange_keeps _ _ (linkLose_keeps _ _ (occur_keeps _ _ _ _ _ (.refl s)))) (.refl s))

theorem execMapAnnounce_keepsNext (w : Dom) (g : Seg) (v : W64) (s : State) : KeepsNext s (execMapAnnounce w g v s) := by
  refine keepsNext_guardedWrite fun u h => ?_
  split
  · exact h
  · exact writeMapCtl_keeps _ _ _ h

theorem execMapActive_keepsNext (g : Seg) (s : State) : KeepsNext s (execMapActive g s) := by
  refine .next ?_
  split
  · exact .refl s
  · dsimp only
    split
    · exact .refl s
    · exact keeps_ite (occurAt_keeps _ _ _ _ _ _ _ (setSegAB_keeps _ _ _ (.refl s))) (.refl s)

theorem execNodeRemoved_keepsNext (g : Seg) (s : State) : KeepsNext s (execNodeRemoved g s) := by
  refine .next ?_
  split
  · exact .refl s
  · exact foldl_keeps _ _ _ (fun _ _ h => removeNode_keeps _ _ _ h) (setSegAB_keeps _ _ _ (.refl s))

theorem execLaneAlignLost_keepsNext (lanes : BitVec 4) (s : State) : KeepsNext s (execLaneAlignLost lanes s) :=
  .next (keeps_ite (occur_keeps _ _ _ _ _ ((Keeps.refl s).of_eq rfl rfl rfl)) (.refl s))

theorem execLaneAlign_keepsNext (skew : W16) (s : State) : KeepsNext s (execLaneAlign skew s) :=
  .next (keeps_ite ((Keeps.refl s).of_eq rfl rfl rfl) (.refl s))

theorem execSegWake_keepsNext (x : SegSignal) (s : State) : KeepsNext s (execSegWake x s) :=
  .next (keeps_ite (keeps_ite (wakeFrom_keeps _ _ (.refl s)) (.refl s))
    (keeps_ite (seeCarrier_keeps _ _ _ _ (.refl s)) (.refl s)))

/-! ### Connections and regions (chapters 4 and 5) -/

theorem execOpenConn_keepsNext (rx : Rx) (nonce key : W32) (d : Dom) (events pin : Bool) (credits : Byte) (rseq0 : W16)
    (s : State) : KeepsNext s (execOpenConn rx nonce key d events pin credits rseq0 s) :=
  .next (wellFormedOnly_keeps _ _ _ _ (fun _ h =>
    linkLevel_keeps _ _ _ _ (fun _ h => admitAll_keeps _ h) (fun _ h => judgeOpen_keeps _ _ _ _ _ _ _ _ _ h) h) (.refl s))

theorem execEventDropped_keepsNext (c : BitVec 10) (s : State) : KeepsNext s (execEventDropped c s) := by
  refine .next ?_
  dsimp only
  split
  · exact .refl s
  · split
    · exact .refl s
    · refine keeps_ite (noteDrop_keeps _ _ _ (Keeps.of_eq (keeps_ite ?_ (.refl s)) rfl rfl rfl)) (.refl s)
      exact setLink_keeps _ _ _ (.refl s)

theorem execRegionFreed_keepsNext (i : Byte) (s : State) : KeepsNext s (execRegionFreed i s) := by
  refine .next ?_
  split
  · exact .refl s
  · exact keeps_ite ((Keeps.refl s).of_eq rfl rfl rfl) (.refl s)

/-! ### Work entries (chapters 6 and 7) -/

theorem execEntryFetch_keepsNext (n : BitVec 6) (s : State) : KeepsNext s (execEntryFetch n s) := by
  refine .next ?_
  split
  · exact .refl s
  · exact keeps_ite (fetchEntry_keeps _ _ _ (.refl s)) (.refl s)

theorem execNop_keepsNext (r : EntryRef) (s : State) : KeepsNext s (execNop r s) := by
  refine .next (withSlot_keeps _ _ _ (.refl s) ?_)
  split
  · exact .refl s
  · exact endEntry_keeps _ _ _ _ (.refl s)

theorem execWaitCount_keepsNext (r : EntryRef) (s : State) : KeepsNext s (execWaitCount r s) := by
  refine .next (withSlot_keeps _ _ _ (.refl s) ?_)
  split
  · exact .refl s
  next e he =>
    have hRun : Keeps s (setEntry s { e with phase := .running }) := setEntry_keeps _ _ (.refl s)
    dsimp only
    split
    · exact endEntry_keeps _ _ _ _ (violate_keeps _ _ _ _ (.refl s))
    · refine keeps_ite (endEntry_keeps _ _ _ _ (violate_keeps _ _ _ _ (.refl s))) (keeps_ite ?_ (hRun.of_eq rfl rfl rfl))
      exact endEntry_keeps _ _ _ _ (.refl s)

theorem execWaitTimeout_keepsNext (r : EntryRef) (s : State) : KeepsNext s (execWaitTimeout r s) := by
  refine .next (withSlot_keeps _ _ _ (.refl s) ?_)
  split
  · dsimp only
    split
    · exact keeps_ite (endWait_keeps _ _ _ _ _ (occurRing_keeps _ _ _ _ _ _ (.refl s))) (.refl s)
    · exact .refl s
  · exact .refl s

theorem execEntryExpiry_keepsNext (r : EntryRef) (s : State) : KeepsNext s (execEntryExpiry r s) := by
  refine .next (withSlot_keeps _ _ _ (.refl s) ?_)
  split
  · exact .refl s
  · split
    · exact .refl s
    · exact keeps_ite (endEntry_keeps _ _ _ _ (.refl s)) (.refl s)

theorem execCompletion_keepsNext (r : EntryRef) (s : State) : KeepsNext s (execCompletion r s) := by
  refine .next (withSlot_keeps _ _ _ (.refl s) ?_)
  split
  · exact .refl s
  · exact keeps_ite (completeEntry_keeps _ _ (.refl s)) (.refl s)

theorem execCopy_keepsNext (r : EntryRef) (s : State) : KeepsNext s (execCopy r s) := by
  refine .next (withSlot_keeps _ _ _ (.refl s) ?_)
  split
  · exact .refl s
  · refine keeps_ite ?_ ?_
    · exact tryStart_keeps _ _ _ _ (fun _ h => startLeg_keeps _ _ _ h) (.refl s)
    · exact tryStart_keeps _ _ _ _ (fun _ h => startRead_keeps _ _ h) (.refl s)

theorem execSectorDecoded_keepsNext (r : EntryRef) (leg : Bool) (p : BitVec 2) (n : BitVec 4) (soft : Bool) (d : DecodeResult)
    (s : State) : KeepsNext s (execSectorDecoded r leg p n soft d s) := by
  refine .next (withSlot_keeps _ _ _ (.refl s) ?_)
  split
  · exact .refl s
  · refine keeps_ite (.refl s) (sectorBoundary_keeps _ _ (keeps_ite ?_ ?_))
    · exact readDecoded_keeps _ _ _ _ _ _ (bringSector_keeps _ _ _ _ _ (.refl s))
    · exact verifyDecoded_keeps _ _ _ _ _ _ (bringSector_keeps _ _ _ _ _ (.refl s))

theorem execParamRead_keepsNext (r : EntryRef) (page : List Byte) (ok : Bool) (s : State) :
    KeepsNext s (execParamRead r page ok s) :=
  keepsNext_adminRow fun _ _ h => endEntry_keeps _ _ _ _ (setEntry_keeps _ _ (writeArea_keeps _ _ _ (emit_keeps _ _ h)))

theorem execGetFeatures_keepsNext (r : EntryRef) (p : W32) (s : State) : KeepsNext s (execGetFeatures r p s) :=
  keepsNext_adminRow fun _ _ h => endEntry_keeps _ _ _ _ (setEntry_keeps _ _ (emit_keeps _ _ h))

theorem execSetFeatures_keepsNext (r : EntryRef) (s : State) : KeepsNext s (execSetFeatures r s) :=
  keepsNext_adminRow fun _ _ h => endEntry_keeps _ _ _ _ (setEntry_keeps _ _ (emit_keeps _ _ h))

theorem execSuspendPolicy_keepsNext (r : EntryRef) (s : State) : KeepsNext s (execSuspendPolicy r s) :=
  keepsNext_adminRow fun _ _ h => endEntry_keeps _ _ _ _ (setEntry_keeps _ _ (h.of_eq rfl rfl rfl))

theorem execTargetReset_keepsNext (r : EntryRef) (s : State) : KeepsNext s (execTargetReset r s) := by
  refine .next (withSlot_keeps _ _ _ (.refl s) ?_)
  split
  · exact .refl s
  · exact keeps_ite (startReset_keeps _ _ (.refl s)) (.refl s)

theorem execAbacusExport_keepsNext (r : EntryRef) (s : State) : KeepsNext s (execAbacusExport r s) :=
  .next (transfer_keeps _ _ _ _ (fun _ _ _ h => exportGroup_keeps _ _ _ h) (.refl s))

theorem execAbacusImport_keepsNext (r : EntryRef) (s : State) : KeepsNext s (execAbacusImport r s) :=
  .next (transfer_keeps _ _ _ _ (fun _ _ _ h => importGroup_keeps _ _ _ h) (.refl s))

/-! ### Channels and sequencers (chapters 7, 8 and 10) -/

theorem execJobDispatch_keepsNext (n : BitVec 3) (job : BitVec 4) (lun : BitVec 5) (latch : List Byte) (bus : List BusSample)
    (ok : Bool) (s : State) : KeepsNext s (execJobDispatch n job lun latch bus ok s) := by
  have hRun : Keeps s (dispatchJob s n.toNat job lun latch bus) := dispatchJob_keeps _ _ _ _ _ _ (.refl s)
  exact .next (keeps_ite (.refl s) (keeps_ite hRun (lockstepCheck_keeps _ _ hRun)))

theorem execWatchdog_keepsNext (n : BitVec 3) (s : State) : KeepsNext s (execWatchdog n s) :=
  .next (keeps_ite (seqCheck_keeps _ _ _ _ (.refl s)) (.refl s))

theorem execPollDue_keepsNext (c : BitVec 3) (n : BitVec 5) (s : State) : KeepsNext s (execPollDue c n s) :=
  .next (keeps_ite (keeps_ite (setLun_keeps _ _ _ (.refl s)) (sendPoll_keeps _ _ (.refl s))) (.refl s))

theorem execRbRise_keepsNext (c : BitVec 3) (group : Bool) (status : Byte) (s : State) :
    KeepsNext s (execRbRise c group status s) := by
  refine .next (keeps_ite ?_ (.refl s))
  split
  · exact statusArrives_keeps _ _ _ (setFch_keeps _ _ _ (.refl s))
  · exact .refl s

theorem execRbStuck_keepsNext (c : BitVec 3) (group : Bool) (s : State) : KeepsNext s (execRbStuck c group s) :=
  .next (keeps_ite (occur_keeps _ _ _ _ _ (setFch_keeps _ _ _ (.refl s))) (.refl s))

theorem execSuspendFailed_keepsNext (c : BitVec 3) (n : BitVec 5) (s : State) : KeepsNext s (execSuspendFailed c n s) := by
  refine .next ?_
  split
  · exact .refl s
  · exact keeps_ite (occur_keeps _ _ _ _ _ (setLun_keeps _ _ _ (.refl s))) (.refl s)

theorem execLunTimeout_keepsNext (c : BitVec 3) (n : BitVec 5) (s : State) : KeepsNext s (execLunTimeout c n s) :=
  .next (keeps_ite (lunTimeout_keeps _ _ (.refl s)) (.refl s))

theorem execSchedulingWindow_keepsNext (s : State) : KeepsNext s (execSchedulingWindow s) :=
  .next (keeps_ite (beginWindow_keeps _ (.refl s)) (.refl s))

theorem execChannelDiscovery_keepsNext (c : BitVec 3) (mv : Nat) (targets : List TargetReport) (s : State) :
    KeepsNext s (execChannelDiscovery c mv targets s) :=
  .next (keeps_ite (discover_keeps _ _ _ _ _ (.refl s)) (.refl s))

theorem execDiscoveryRbTimeout_keepsNext (c : BitVec 3) (mv : Nat) (targets : List TargetReport) (ready : Byte) (s : State) :
    KeepsNext s (execDiscoveryRbTimeout c mv targets ready s) :=
  .next (keeps_ite (discover_keeps _ _ _ _ _ (.refl s)) (.refl s))

theorem execRateChange_keepsNext (c : BitVec 3) (s : State) : KeepsNext s (execRateChange c s) := by
  refine .next ?_
  split
  · exact .refl s
  · exact dropSlowChannel_keeps _ _ (setFch_keeps _ _ _ (.refl s))

theorem execContainerCheck_keepsNext (personality : Bool) (src : BitVec 2) (secondary : Bool) (bytes : Option (List Byte))
    (faults : List CopyFault) (s : State) : KeepsNext s (execContainerCheck personality src secondary bytes faults s) := by
  refine .next (keeps_ite (.refl s) ?_)
  extract_lets s1
  have hProbe : Keeps s s1 := keeps_ite (bootProbe_keeps _ _ (.refl s)) (.refl s)
  split
  next u code taken b hRead =>
    have hu : Keeps s u := by
      split at hRead
      · exact readPush_keeps_of _ _ hRead hProbe
      · exact readCopy_keeps_of _ _ _ _ _ _ hRead hProbe
    extract_lets s2 v glb s3
    have hRec : Keeps s s2 := recordRejected_keeps _ _ _ _ _ hu
    have hPhase : Keeps s s3 := keeps_ite hRec (hRec.of_eq rfl rfl rfl)
    exact keeps_ite (hPhase.of_eq rfl rfl rfl) (hPhase.of_eq rfl rfl rfl)

theorem execPairOutcome_keepsNext (s : State) : KeepsNext s (execPairOutcome s) := by
  refine .next (keeps_ite (.refl s) (keeps_ite ((Keeps.refl s).of_eq rfl rfl rfl) ?_))
  split
  · exact afterOutcome_keeps _ (loadPair_keeps _ _ _ (.refl s))
  · exact afterOutcome_keeps _ (runBaseline_keeps _ _ (.refl s))

/-! ### Movers (chapter 11) -/

theorem execMove_keepsNext (n : BitVec 4) (s : State) : KeepsNext s (execMove n s) :=
  keepsNext_instrOrSet fun _ _ _ => instrMove_keeps _ _ _ _ (.refl s)

theorem execFill_keepsNext (n : BitVec 4) (s : State) : KeepsNext s (execFill n s) :=
  keepsNext_instrOrSet fun _ _ _ => instrFill_keeps _ _ _ _ (.refl s)

theorem execMoverWake_keepsNext (n : BitVec 4) (s : State) : KeepsNext s (execMoverWake n s) := by
  refine .next ?_
  split
  · exact .refl s
  · exact keeps_ite (retestWait_keeps _ _ _ (.refl s)) (.refl s)

theorem execRegisterSetEnd_keepsNext (n : BitVec 4) (s : State) : KeepsNext s (execRegisterSetEnd n s) := by
  refine .next ?_
  split
  · exact .refl s
  · exact keeps_ite (endSet_keeps _ _ _ (.refl s)) (.refl s)

theorem execBurstGrant_keepsNext (writePort : Bool) (ready : BitVec 17) (s : State) :
    KeepsNext s (execBurstGrant writePort ready s) := by
  refine .next ?_
  dsimp only
  split
  · exact .refl s
  · refine grantedBurst_keeps _ _ _ (keeps_ite ?_ ?_)
    · exact (Keeps.refl s).of_eq rfl rfl rfl
    · exact (Keeps.refl s).of_eq rfl rfl rfl

/-! ### The recorder and the tag (chapter 13) -/

theorem execFreezeExpiry_keepsNext (s : State) : KeepsNext s (execFreezeExpiry s) := by
  refine .next ?_
  split
  · exact keeps_ite ((Keeps.refl s).of_eq rfl rfl rfl) (.refl s)
  · exact .refl s

theorem execInventory_keepsNext (slots16 : Bool) (afi : Option Byte) (mask : List Bool) (s : State) :
    KeepsNext s (execInventory slots16 afi mask s) :=
  .next (keeps_ite (emit_keeps _ _ (flipAll_keeps _ (.refl s))) (.refl s))

theorem execStayQuiet_keepsNext (uid : W64) (s : State) : KeepsNext s (execStayQuiet uid s) :=
  .next (keeps_ite (Keeps.of_eq (flipAll_keeps _ (.refl s)) rfl rfl rfl) (.refl s))

theorem execSelect_keepsNext (uid : W64) (s : State) : KeepsNext s (execSelect uid s) := by
  have hFlip : Keeps s (flipAll s) := flipAll_keeps _ (.refl s)
  exact .next (keeps_ite (.refl s) (keeps_ite (tagOk_keeps _ _ (hFlip.of_eq rfl rfl rfl)) ((Keeps.refl s).of_eq rfl rfl rfl)))

theorem execTileVersion_keepsNext (a : TagAddr) (first n : Byte) (s : State) : KeepsNext s (execTileVersion a first n s) :=
  keepsNext_fieldCommand fun _ h => keeps_ite (tagError_keeps _ _ h) (tagOk_keeps _ _ h)

theorem execTagFieldOn_keepsNext (s : State) : KeepsNext s (execTagFieldOn s) :=
  .next (keeps_ite (.refl s) (wakeFrom_keeps _ _ (tagOccur_keeps _ _ _ _ (openField_keeps _ (.refl s)))))

theorem execTagFieldLost_keepsNext (s : State) : KeepsNext s (execTagFieldLost s) :=
  .next (Keeps.of_eq (flipAll_keeps _ (.refl s)) rfl rfl rfl)

/-! ### Power and monitors (chapter 14) -/

theorem execPowerState_keepsNext (s : State) : KeepsNext s (execPowerState s) :=
  .next (keeps_ite (.refl s) (keeps_ite (wakeRun_keeps _ (.refl s)) ((Keeps.refl s).of_eq rfl rfl rfl)))

theorem execDeepHoldEnter_keepsNext (s : State) : KeepsNext s (execDeepHoldEnter s) :=
  .next (keeps_ite (deepEnter_keeps _ (.refl s)) (.refl s))

theorem execTemperatureConversion_keepsNext (readings : List W16) (s : State) :
    KeepsNext s (execTemperatureConversion readings s) :=
  .next (keeps_ite (judgeTemps_keeps _ (takeReadings_keeps _ _ (.refl s))) (.refl s))

theorem execSupplyDip_keepsNext (rail : BitVec 4) (mv : W16) (us : Nat) (s : State) :
    KeepsNext s (execSupplyDip rail mv us s) :=
  .next (keeps_ite (.refl s) (keeps_ite ((Keeps.refl s).of_eq rfl rfl rfl) (countDip_keeps _ _ _ _ (.refl s))))

theorem execSupplyWarnEnd_keepsNext (s : State) : KeepsNext s (execSupplyWarnEnd s) :=
  .next (keeps_ite (refreshAlerts_keeps _ ((Keeps.refl s).of_eq rfl rfl rfl)) (.refl s))

theorem execBrownoutRecovery_keepsNext (s : State) : KeepsNext s (execBrownoutRecovery s) := by
  have hWait : Keeps s { s with pmu := { s.pmu with brownWait := false } } := (Keeps.refl s).of_eq rfl rfl rfl
  exact .next (keeps_ite (keeps_ite hWait (completeAll_keeps _ hWait)) (.refl s))

theorem execFinishWindowEnd_keepsNext (s : State) : KeepsNext s (execFinishWindowEnd s) :=
  .next (keeps_ite (closeFinish_keeps _ (.refl s)) (.refl s))

theorem execHarmlessExit_keepsNext (s : State) : KeepsNext s (execHarmlessExit s) := by
  refine .next (keeps_ite ?_ (.refl s))
  extract_lets s1 pmu s2 s3 pins s4 s5
  have h1 : Keeps s s1 := keeps_ite (closeFinish_keeps _ (.refl s)) (.refl s)
  have h2 : Keeps s s2 := refreshAlerts_keeps _ (h1.of_eq rfl rfl rfl)
  have h3 : Keeps s s3 := occur_keeps _ _ _ _ _ h2
  have h4 : Keeps s s4 := h3.of_eq rfl rfl rfl
  have h5 : Keeps s s5 := sendBeacon_keeps _ _ (sendBeacon_keeps _ _ (sendBeacon_keeps _ _ h4))
  exact foldl_keeps _ _ _ (fun _ _ h => restartChannel_keeps _ _ h) h5

/-! ### Start-up (chapter 15) and registers (chapter 16) -/

theorem execPowerUp_keepsNext (bootsel : BitVec 2) (process : Byte) (mv : Nat) (s : State) :
    KeepsNext s (execPowerUp bootsel process mv s) := by
  refine .next (keeps_ite (.refl s) ?_)
  extract_lets kind glb mon cleared up
  have hCleared : Keeps s cleared := ⟨rfl, fun _ => ⟨rfl, rfl⟩, .refl _⟩
  have hUp : Keeps s up := occur_keeps _ _ _ _ _ (releaseCore_keeps _ _ _ hCleared)
  exact keeps_ite (tagOccur_keeps _ _ _ _ hUp) hUp

theorem execSystemResetRelease_keepsNext (bootsel : BitVec 2) (process : Byte) (s : State) :
    KeepsNext s (execSystemResetRelease bootsel process s) :=
  .next (keeps_ite (releaseCore_keeps _ _ _ (.refl s)) (.refl s))

theorem execFlashResetDone_keepsNext (s : State) : KeepsNext s (execFlashResetDone s) :=
  .next (keeps_ite ((Keeps.refl s).of_eq rfl rfl rfl) (.refl s))

theorem execBootReady_keepsNext (s : State) : KeepsNext s (execBootReady s) :=
  .next (keeps_ite (occur_keeps _ _ _ _ _ ((Keeps.refl s).of_eq rfl rfl rfl)) (.refl s))

theorem execSnapshotLatch_keepsNext (w : Dom) (a : BitVec 20) (s : State) : KeepsNext s (execSnapshotLatch w a s) :=
  .next (keeps_ite (readRegs_keeps _ _ _ _ _ (.refl s)) (.refl s))

theorem execFrameBoundary_keepsNext (cki : Option Int) (s : State) : KeepsNext s (execFrameBoundary cki s) :=
  .next (keeps_ite (frameBoundary_keeps _ _ (.refl s)) (.refl s))

/-! ### All commands -/

/-- The commands that can end the programming of a fuse: its own end (R375), and the resets of the whole part (R376). -/
def endsProgramming : Instr → Bool
  | .fuseProgrammed _ | .powerOnReset | .resetNLow _ | .pgoodLow _ | .systemReset _ _ => true
  | _ => false

/-- A command that does not end the programming of a fuse keeps the queue, the memory's form and the fuses. -/
theorem exec_keepsNext (i : Instr) (s : State) (hi : endsProgramming i = false) : KeepsNext s (exec i s) := by
  cases i with
  -- chapter 2
  | tick rx q i n => exact execTick_keepsNext rx q i n s
  | forwardedClockLost => exact execForwardedClockLost_keepsNext s
  | forwardedClockLock => exact execForwardedClockLock_keepsNext s
  | acquisitionWindowEnd => exact execAcquisitionWindowEnd_keepsNext s
  | faultyExpiry n => exact execFaultyExpiry_keepsNext n s
  | sourceQualified n => exact .next (noteQualified_keeps _ _ (.refl s))
  | frameBoundary cki => exact execFrameBoundary_keepsNext cki s
  | timekeeperSwitch => exact execTimekeeperSwitch_keepsNext s
  | timekeeperRevert => exact execTimekeeperRevert_keepsNext s
  | force w v => exact keepsNext_guardedWrite fun _ h => writeForce_keeps _ _ h
  | forceSwitch => exact execForceSwitch_keepsNext s
  | sourceListWrite w n v => exact keepsNext_guardedWrite fun _ h => writeSource_keeps _ _ _ h
  | sourceDemotion => exact execSourceDemotion_keepsNext s
  | holdoverExpired => exact execHoldoverExpired_keepsNext s
  | drainTimeout => exact execDrainTimeout_keepsNext s
  | wallSet w v => exact keepsNext_guardedWrite fun _ h => writeWallT_keeps _ _ h
  -- chapter 3
  | join rx i n => exact execJoin_keepsNext rx i n s
  | range rx i n => exact execRange_keepsNext rx i n s
  | ack rx => exact execAck_keepsNext rx s
  | erroredReception rx e bad => exact execErroredReception_keepsNext rx e bad s
  | packetRejected rx bytes => exact execPacketRejected_keepsNext rx bytes s
  | upSlotEnd g k => exact execUpSlotEnd_keepsNext g k s
  | downSlot g k => exact execDownSlot_keepsNext g k s
  | retransmitTimerC => exact execRetransmitTimerC_keepsNext s
  | muteEnd g i => exact execMuteEnd_keepsNext g i s
  | linkLost n => exact execLinkLost_keepsNext n s
  | mapAnnounce w g v => exact execMapAnnounce_keepsNext w g v s
  | mapActive g => exact execMapActive_keepsNext g s
  | evict w g v => exact keepsNext_guardedWrite fun _ h => writeEvict_keeps _ _ _ h
  | nodeRemoved g => exact execNodeRemoved_keepsNext g s
  | laneAlignLost lanes => exact execLaneAlignLost_keepsNext lanes s
  | laneAlign skew => exact execLaneAlign_keepsNext skew s
  | segWake x => exact execSegWake_keepsNext x s
  -- chapter 4
  | openConn rx nonce key d events pin credits rseq0 => exact execOpenConn_keepsNext rx nonce key d events pin credits rseq0 s
  | close rq => exact keepsNext_request fun _ _ h => runClose_keeps _ _ _ h
  | conKill w v => exact keepsNext_guardedWrite fun _ h => writeKill_keeps _ _ h
  | regionWrite rq key offset data => exact keepsNext_request fun _ _ h => runRegionWrite_keeps _ _ _ _ _ _ h
  | regionRead rq key offset len => exact keepsNext_request fun _ _ h => runRegionRead_keeps _ _ _ _ _ _ h
  | regWrite rq a v => exact keepsNext_request fun _ _ h => runRegWrite_keeps _ _ _ _ _ h
  | regRead rq a n => exact keepsNext_request fun _ _ h => runRegRead_keeps _ _ _ _ _ h
  | doorbell rq ring tail => exact keepsNext_request fun _ _ h => runDoorbell_keeps _ _ _ _ _ h
  | doorbellRegister w ring v => exact .next (checkedDoorbell_keeps _ _ _ _ _ (.refl s))
  | send rq target data => exact keepsNext_request fun _ _ h => runSend_keeps _ _ _ _ _ h
  | post rq entries => exact keepsNext_request fun _ _ h => runPost_keeps _ _ _ _ h
  | eventDropped c => exact execEventDropped_keepsNext c s
  -- chapter 5
  | windowWrite w d v => exact keepsNext_guardedWrite fun _ h => writeWindow_keeps _ _ _ h
  | latencyBudget w d v => exact keepsNext_guardedWrite fun _ h => refreshRest_keeps _ (regStore_keeps _ _ _ _ h)
  | regionRegister w d v => exact keepsNext_guardedWrite fun _ h => writeRegion_keeps _ _ _ _ h
  | regionDeregister w d v => exact keepsNext_guardedWrite fun _ h => writeRegion_keeps _ _ _ _ h
  | regionFreed i => exact execRegionFreed_keepsNext i s
  | extentInstall w v => exact keepsNext_guardedWrite fun _ h => writeExtCmd_keeps _ _ h
  | extentRemove w v => exact keepsNext_guardedWrite fun _ h => writeExtCmd_keeps _ _ h
  | extentReadBack w v => exact keepsNext_guardedWrite fun _ h => writeExtCmd_keeps _ _ h
  | extentOpInvalid w v => exact keepsNext_guardedWrite fun _ h => writeExtCmd_keeps _ _ h
  -- chapter 6
  | sqClaim w v => exact keepsNext_guardedWrite fun _ h => writeSqClaim_keeps _ _ _ _ h
  | sqRelease w v => exact keepsNext_guardedWrite fun _ h => writeSqClaim_keeps _ _ _ _ h
  | cqClaim w v => exact keepsNext_guardedWrite fun _ h => writeCqClaim_keeps _ _ _ _ h
  | cqRelease w v => exact keepsNext_guardedWrite fun _ h => writeCqClaim_keeps _ _ _ _ h
  | sqEnable w n v => exact keepsNext_guardedWrite fun _ h => writeSqCfg_keeps _ _ _ h
  | sqDisable w n v => exact keepsNext_guardedWrite fun _ h => writeSqCfg_keeps _ _ _ h
  | cqEnable w n v => exact keepsNext_guardedWrite fun _ h => writeCqCfg_keeps _ _ _ h
  | cqDisable w n v => exact keepsNext_guardedWrite fun _ h => writeCqCfg_keeps _ _ _ h
  | sqPointerWrite w n v => exact keepsNext_guardedWrite fun _ h => writeSqPtr_keeps _ _ _ h
  | cqPoke w n v => exact keepsNext_guardedWrite fun _ h => writePoke_keeps _ _ h
  | entryFetch n => exact execEntryFetch_keepsNext n s
  | nop r => exact execNop_keepsNext r s
  | waitCount r => exact execWaitCount_keepsNext r s
  | waitTimeout r => exact execWaitTimeout_keepsNext r s
  | entryExpiry r => exact execEntryExpiry_keepsNext r s
  | completion r => exact execCompletion_keepsNext r s
  -- chapter 7
  | read r => exact keepsNext_flashRow fun _ _ h => startRead_keeps _ _ h
  | checkRead r => exact keepsNext_flashRow fun _ _ h => startRead_keeps _ _ h
  | program r => exact keepsNext_flashRow fun _ _ h => startLeg_keeps _ _ _ h
  | mirrorProgram r leg => exact keepsNext_flashRow fun _ _ h => startLeg_keeps _ _ _ h
  | copy r => exact execCopy_keepsNext r s
  | erase r => exact keepsNext_flashRow fun _ _ h => startErase_keeps _ _ h
  | paramRead r page ok => exact execParamRead_keepsNext r page ok s
  | getFeatures r p => exact execGetFeatures_keepsNext r p s
  | setFeatures r => exact execSetFeatures_keepsNext r s
  | targetReset r => exact execTargetReset_keepsNext r s
  | suspendPolicy r => exact execSuspendPolicy_keepsNext r s
  | abacusExport r => exact execAbacusExport_keepsNext r s
  | abacusImport r => exact execAbacusImport_keepsNext r s
  | jobDispatch n job lun latch bus ok => exact execJobDispatch_keepsNext n job lun latch bus ok s
  | watchdog n => exact execWatchdog_keepsNext n s
  | pollDue c n => exact execPollDue_keepsNext c n s
  | rbRise c group status => exact execRbRise_keepsNext c group status s
  | rbStuck c group => exact execRbStuck_keepsNext c group s
  | suspendFailed c n => exact execSuspendFailed_keepsNext c n s
  | lunTimeout c n => exact execLunTimeout_keepsNext c n s
  | schedulingWindow => exact execSchedulingWindow_keepsNext s
  | reservationWrite w d v => exact keepsNext_guardedWrite fun _ h => writeReservation_keeps _ _ _ h
  | sectorDecoded r leg p n soft d => exact execSectorDecoded_keepsNext r leg p n soft d s
  -- chapters 8 and 9
  | channelDiscovery c mv targets => exact execChannelDiscovery_keepsNext c mv targets s
  | discoveryRbTimeout c mv targets ready => exact execDiscoveryRbTimeout_keepsNext c mv targets ready s
  | rateChange c => exact execRateChange_keepsNext c s
  | keyLoad w d v => exact keepsNext_guardedWrite fun _ h => writeKeyCmd_keeps _ _ _ _ h
  | keyZero w d v => exact keepsNext_guardedWrite fun _ h => writeKeyCmd_keeps _ _ _ _ h
  | slotAssign w k v => exact keepsNext_guardedWrite fun _ h => writeSlot_keeps _ _ _ h
  -- chapter 10
  | containerCheck p src sec bytes faults => exact execContainerCheck_keepsNext p src sec bytes faults s
  | pairOutcome => exact execPairOutcome_keepsNext s
  | fuseKeyHash w v => exact keepsNext_guardedWrite fun _ h => writeFuseCmd_keeps _ _ h
  | fuseImageKey w v => exact keepsNext_guardedWrite fun _ h => writeFuseCmd_keeps _ _ h
  | fuseFleetKey w v => exact keepsNext_guardedWrite fun _ h => writeFuseCmd_keeps _ _ h
  | fuseRevoke w v => exact keepsNext_guardedWrite fun _ h => writeFuseCmd_keeps _ _ h
  | fuseCounterAdvance w v => exact keepsNext_guardedWrite fun _ h => writeFuseCmd_keeps _ _ h
  | fuseEncreq w v => exact keepsNext_guardedWrite fun _ h => writeFuseCmd_keeps _ _ h
  | fuseInvalid w v => exact keepsNext_guardedWrite fun _ h => writeFuseCmd_keeps _ _ h
  | fuseProgrammed ok => cases hi
  -- chapter 11
  | moverAssign w v => exact keepsNext_guardedWrite fun _ h => writeAssign_keeps _ _ h
  | moverFree w v => exact keepsNext_guardedWrite fun _ h => writeAssign_keeps _ _ h
  | moverGo w n v => exact keepsNext_guardedWrite fun _ h => writeMovCmd_keeps _ _ _ h
  | moverStop w n v => exact keepsNext_guardedWrite fun _ h => writeMovCmd_keeps _ _ _ h
  | moverClear w n v => exact keepsNext_guardedWrite fun _ h => writeMovCmd_keeps _ _ _ h
  | moverPoke w n v => exact keepsNext_guardedWrite fun _ h => writeMovPoke_keeps _ _ h
  | move n => exact execMove_keepsNext n s
  | fill n => exact execFill_keepsNext n s
  | crc n => exact keepsNext_instrRow fun _ _ _ => instrCrc_keeps _ _ _ _ (.refl s)
  | wait n => exact keepsNext_instrRow fun _ _ _ => instrWait_keeps _ _ _ _ (.refl s)
  | moverWake n => exact execMoverWake_keepsNext n s
  | loop n => exact keepsNext_instrRow fun _ _ _ => instrLoop_keeps _ _ _ _ (.refl s)
  | signal n => exact keepsNext_instrRow fun _ _ _ => instrSignal_keeps _ _ _ _ (.refl s)
  | link n => exact keepsNext_instrRow fun _ _ _ => instrLink_keeps _ _ _ _ (.refl s)
  | endProgram n => exact keepsNext_instrRow fun _ _ _ => instrEnd_keeps _ _ _ _ (.refl s)
  | registerSetEnd n => exact execRegisterSetEnd_keepsNext n s
  | burstGrant writePort ready => exact execBurstGrant_keepsNext writePort ready s
  -- chapter 12
  | pageRetire w v => exact keepsNext_guardedWrite fun _ h => writeRetire_keeps _ _ h
  | scrubClear w d v => exact keepsNext_guardedWrite fun _ h => clearScrub_keeps _ _ h
  -- chapter 13
  | freeze w v => exact keepsNext_guardedWrite fun _ h => writeFreeze_keeps _ _ h
  | thaw w v => exact keepsNext_guardedWrite fun _ h => writeFreeze_keeps _ _ h
  | freezeExpiry => exact execFreezeExpiry_keepsNext s
  | recorderExport w v => exact keepsNext_guardedWrite fun _ h => writeXcmd_keeps _ _ h
  | recFlush w v => exact keepsNext_guardedWrite fun _ h => writeFlush_keeps _ _ h
  | inventory slots16 afi mask => exact execInventory_keepsNext slots16 afi mask s
  | stayQuiet uid => exact execStayQuiet_keepsNext uid s
  | readSingleBlock a ext opt block => exact keepsNext_fieldCommand fun _ h => readBlock_keeps _ _ _ _ h
  | readMultipleBlocks a ext opt first n => exact keepsNext_fieldCommand fun _ h => readBlocks_keeps _ _ _ _ _ h
  | writeSingleBlock a ext block data => exact keepsNext_fieldCommand fun _ h => writeBlock_keeps _ _ _ _ h
  | select uid => exact execSelect_keepsNext uid s
  | resetToReady a => exact keepsNext_fieldCommand fun _ h => tagOk_keeps _ _ (h.of_eq rfl rfl rfl)
  | getSystemInformation a ext => exact keepsNext_fieldCommand fun _ h => tagOk_keeps _ _ h
  | unlock a password => exact keepsNext_fieldCommand fun _ h => tryUnlock_keeps _ _ h
  | tileVersion a first n => exact execTileVersion_keepsNext a first n s
  | tagUnsupportedCommand a malformed => exact keepsNext_fieldCommand fun _ h => tagError_keeps _ _ h
  | tagFieldOn => exact execTagFieldOn_keepsNext s
  | tagFieldLost => exact execTagFieldLost_keepsNext s
  | commit w v => exact keepsNext_guardedWrite fun _ h => writeTcmd_keeps _ _ h
  | load w v => exact keepsNext_guardedWrite fun _ h => writeTcmd_keeps _ _ h
  | setFieldread w v => exact keepsNext_guardedWrite fun _ h => writeTcmd_keeps _ _ h
  | tileFlip t => exact .next (flipTile_keeps _ _ (.refl s))
  | mirror w v => exact keepsNext_guardedWrite fun _ h => writeGen_keeps _ _ h
  | health w v => exact keepsNext_guardedWrite fun _ h => writeGen_keeps _ _ h
  | ident w v => exact keepsNext_guardedWrite fun _ h => writeGen_keeps _ _ h
  | pwreset w v => exact keepsNext_guardedWrite fun _ h => writeGen_keeps _ _ h
  | passwordWrite w v => exact keepsNext_guardedWrite fun _ h => h.of_eq rfl rfl rfl
  -- chapter 14
  | powerState => exact execPowerState_keepsNext s
  | deepHoldArm w v => exact keepsNext_guardedWrite fun _ h => writeDeep_keeps _ _ h
  | deepHoldDisarm w v => exact keepsNext_guardedWrite fun _ h => writeDeep_keeps _ _ h
  | deepHoldEnter => exact execDeepHoldEnter_keepsNext s
  | deepHoldWake src => exact .next (wakeFrom_keeps _ _ (.refl s))
  | temperatureConversion readings => exact execTemperatureConversion_keepsNext readings s
  | supplyDip rail mv us => exact execSupplyDip_keepsNext rail mv us s
  | supplyWarnEnd => exact execSupplyWarnEnd_keepsNext s
  | brownoutRecovery => exact execBrownoutRecovery_keepsNext s
  | finishWindowEnd => exact execFinishWindowEnd_keepsNext s
  | harmlessExit => exact execHarmlessExit_keepsNext s
  -- chapter 15
  | powerOnReset => cases hi
  | powerUp bootsel process mv => exact execPowerUp_keepsNext bootsel process mv s
  | resetNLow ns => cases hi
  | pgoodLow ns => cases hi
  | systemResetRequest w v => exact keepsNext_guardedWrite fun _ h => writeRst_keeps _ _ _ h
  | systemReset bootsel process => cases hi
  | systemResetRelease bootsel process => exact execSystemResetRelease_keepsNext bootsel process s
  | flashReset w v => exact keepsNext_guardedWrite fun _ h => writeRst_keeps _ _ _ h
  | reload w v => exact keepsNext_guardedWrite fun _ h => writeBootCmd_keeps _ _ h
  | flashResetDone => exact execFlashResetDone_keepsNext s
  | bootReady => exact execBootReady_keepsNext s
  -- chapter 16
  | lock w b v => exact .next (writeReg_keeps _ _ _ _ _ (.refl s))
  | snapshotLatch w a => exact execSnapshotLatch_keepsNext w a s
  | snapshotRelease w b v => exact .next (writeReg_keeps _ _ _ _ _ (.refl s))
  | errClear w b v => exact .next (writeReg_keeps _ _ _ _ _ (.refl s))
  | eventStatusClear w b v recurring => exact keepsNext_guardedWrite fun _ h => clearEvs_keeps _ _ _ _ h
  | registerWrite w a v => exact .next (writeReg_keeps _ _ _ _ _ (.refl s))

end Sys2Proof.Machine
end

section
/-! When the fuses change (R377): only when the programming of an accepted FUS.PCMD ends, by its own end (R375) or by a reset
that disturbs it (R376), and then in the field that command names. -/

namespace Sys2Proof.Machine

/-- What R377 lets a step do to the fuses: leave what they hold, or end the command in progress with its field programmed,
whole or partial. -/
def FusesAsNamed (a b : Fus) : Prop :=
  { b with busy := none } = { a with busy := none } ∨
    ∃ f v d ok, a.busy = some (f, v, d) ∧ b = { burn a f.toNat v.toNat d ok with busy := none }

theorem FusesAsNamed.refl (a : Fus) : FusesAsNamed a a := .inl rfl

theorem Keeps.fusesAsNamed {s t : State} (h : Keeps s t) : FusesAsNamed s.fus t.fus := .inl h.fus.1

/-- A reset that disturbs a command programs its field in part or not at all (R376). -/
theorem disturbFuse_fusesAsNamed (s : State) : FusesAsNamed s.fus (disturbFuse s).fus := by
  rcases disturbFuse_fus s with ⟨hSame, -⟩ | ⟨f, v, d, hBusy, hNone | hPart⟩
  · exact .inl (by rw [hSame])
  · exact .inl (by rw [hNone])
  · exact .inr ⟨f, v, d, false, hBusy, hPart⟩

/-- A system reset touches the fuses by the disturbance alone; the rest of it keeps them (R537). -/
theorem systemResetCore_fusesAsNamed (s : State) (kind dom : Nat) : FusesAsNamed s.fus (systemResetCore s kind dom).fus := by
  obtain ⟨u, -, hu, hReset⟩ := systemResetCore_spec s kind dom
  rw [hReset, ← hu]
  exact disturbFuse_fusesAsNamed u

/-- A release does not touch the fuses. -/
theorem releaseCore_fus (s : State) (bootsel : BitVec 2) (process : Byte) : (releaseCore s bootsel process).fus = s.fus := by
  unfold releaseCore
  dsimp only
  rw [regSet_fus, foldl_fus _ (fun _ _ => regSet_fus _ _ _ _)]

theorem pinReset_fusesAsNamed (s : State) (kind ns : Nat) (low : Pins → Pins) :
    FusesAsNamed s.fus (pinReset s kind ns low).fus := by
  have hCore := systemResetCore_fusesAsNamed s kind 15
  unfold pinReset
  generalize systemResetCore s kind 15 = u at hCore ⊢
  split
  · exact .refl _
  · split
    · exact hCore
    · exact .refl _

/-! ### The commands that end the programming -/

theorem execFuseProgrammed_fusesAsNamed (ok : Bool) (s t : State) (h : execFuseProgrammed ok s = .next t) :
    FusesAsNamed s.fus t.fus := by
  injection h with h
  subst h
  split
  · exact .refl _
  next f v d hBusy => exact .inr ⟨f, v, d, ok, hBusy, congrArg State.fus (occurAt_onlyNoted _ _ _ _ _ _ _).1⟩

theorem execPowerOnReset_fusesAsNamed (s t : State) (h : execPowerOnReset s = .next t) : FusesAsNamed s.fus t.fus := by
  injection h with h
  subst h
  split
  · exact .refl _
  · exact disturbFuse_fusesAsNamed s

theorem execSystemReset_fusesAsNamed (bootsel : BitVec 2) (process : Byte) (s t : State)
    (h : execSystemReset bootsel process s = .next t) : FusesAsNamed s.fus t.fus := by
  injection h with h
  subst h
  split
  next d _ =>
    split
    · rw [releaseCore_fus]
      exact systemResetCore_fusesAsNamed s 4 d.toNat
    · exact .refl _
  · exact .refl _

/-! ### Every command, every step -/

theorem exec_fusesAsNamed (i : Instr) (s t : State) (h : exec i s = .next t) : FusesAsNamed s.fus t.fus := by
  cases hi : endsProgramming i with
  | false =>
    obtain ⟨u, hu, hKeeps⟩ := exec_keepsNext i s hi
    cases hu.symm.trans h
    exact hKeeps.fusesAsNamed
  | true =>
    cases i with
    | fuseProgrammed ok => exact execFuseProgrammed_fusesAsNamed ok s t h
    | powerOnReset => exact execPowerOnReset_fusesAsNamed s t h
    | resetNLow ns => cases h; exact pinReset_fusesAsNamed s 2 ns _
    | pgoodLow ns => cases h; exact pinReset_fusesAsNamed s 3 ns _
    | systemReset bootsel process => exact execSystemReset_fusesAsNamed bootsel process s t h
    | _ => cases hi

/-- Settles O4: the five commands that can end the programming of a fuse end it as R375 and R376 say, and every other command,
as the idle cycle, leaves what the fuses hold. -/
theorem fusesChangeOnlyOnAnAcceptedCommand : Obligations.FusesChangeOnlyOnAnAcceptedCommand := by
  intro s t h
  unfold step at h
  split at h
  next c q _ => exact exec_fusesAsNamed c { s with pending := q } t h
  · cases h
    exact (idle_keeps s (.refl s)).fusesAsNamed

end Sys2Proof.Machine
end

section
/-! Flushing the recorder. REC.FLUSHSEQ has one writer that may move it, the write of the register (R458): recording an
occurrence, its event copies and the records of the dropped ones keep it. So after power-up it is as the fresh recorder has
it, whatever power-up itself records. -/

namespace Sys2Proof.Machine

/-! ### Recording keeps FLUSHSEQ -/

@[simp] theorem newRecord_flushSeq (r : Recorder) (e : Rec) : (newRecord r e).flushSeq = r.flushSeq := rfl

@[simp] theorem recordAt_flushSeq (s : State) (fr : W32) (sl : BitVec 6) (b : Nat) (c : BitVec 12) (p0 p1 : W32) :
    (recordAt s fr sl b c p0 p1).recorder.flushSeq = s.recorder.flushSeq := by
  unfold recordAt
  split
  · rfl
  · dsimp only
    rw [captureErr_recorder, newRecord_flushSeq]

/-- A copy lies in a connection's queue, not in the recorder. -/
theorem pushEvent_recorder (s : State) (k : Nat) (kind : Byte) (b : Nat) (code : BitVec 12) (p0 p1 : W32) :
    (pushEvent s k kind b code p0 p1).1.recorder = s.recorder := by
  unfold pushEvent
  split
  · rfl
  · dsimp only
    split <;> rfl

@[simp] theorem recordDrop_flushSeq (s : State) (k : Nat) (q : W16) :
    (recordDrop s k q).recorder.flushSeq = s.recorder.flushSeq := by
  unfold recordDrop
  rw [setEvs_recorder, recordAt_flushSeq]

@[simp] theorem copyDrops_flushSeq (s : State) (p0 : W32) (l : List Nat) :
    (copyDrops s p0 l).recorder.flushSeq = s.recorder.flushSeq := by
  induction l generalizing s with
  | nil => rfl
  | cons k t ih =>
    have hPush := pushEvent_recorder s k 2 blkLNK 0x113 p0 0
    unfold copyDrops
    split
    next u hMade =>
      rw [hMade] at hPush
      rw [ih, hPush]
    next u q hDropped =>
      rw [hDropped] at hPush
      rw [ih, recordDrop_flushSeq, hPush]

@[simp] theorem noteDrop_flushSeq (s : State) (k : Nat) (q : W16) :
    (noteDrop s k q).recorder.flushSeq = s.recorder.flushSeq :=
  (copyDrops_flushSeq _ _ _).trans (recordDrop_flushSeq s k q)

@[simp] theorem copyTo_flushSeq (s : State) (kind : Byte) (b : Nat) (code : BitVec 12) (p0 p1 : W32) (l : List Nat) :
    (copyTo s kind b code p0 p1 l).recorder.flushSeq = s.recorder.flushSeq := by
  induction l generalizing s with
  | nil => rfl
  | cons k t ih =>
    have hPush := pushEvent_recorder s k kind b code p0 p1
    unfold copyTo
    split
    next u hMade =>
      rw [hMade] at hPush
      rw [ih, hPush]
    next u q hDropped =>
      rw [hDropped] at hPush
      rw [ih, noteDrop_flushSeq, hPush]

@[simp] theorem occur_flushSeq (s : State) (b : Nat) (c : BitVec 12) (p0 p1 : W32) :
    (occur s b c p0 p1).recorder.flushSeq = s.recorder.flushSeq := by
  unfold occur occurAt
  dsimp only
  rw [copyTo_flushSeq, setEvs_recorder]
  split
  · rfl
  · exact recordAt_flushSeq _ _ _ _ _ _ _

@[simp] theorem tagOccur_flushSeq (s : State) (c : BitVec 12) (p0 p1 : W32) :
    (tagOccur s c p0 p1).recorder.flushSeq = s.recorder.flushSeq := by
  unfold tagOccur
  split
  · exact occur_flushSeq _ _ _ _ _
  · rfl

/-! ### Power-up -/

/-- A release does not touch the recorder. -/
@[simp] theorem releaseCore_recorder (s : State) (bootsel : BitVec 2) (process : Byte) :
    (releaseCore s bootsel process).recorder = s.recorder := by
  unfold releaseCore
  dsimp only
  rw [regSet_recorder]
  exact List.foldlRecOn (motive := fun u : State => u.recorder = s.recorder) _ _ rfl fun _ hSame _ _ => hSame

/-- The recorder is fresh when POWER_UP, and a field already there, are recorded (R458, R478, R517). -/
theorem execPowerUp_flushSeq (s : State) (bootsel : BitVec 2) (process : Byte) (mv : Nat) (hHeld : s.phase = .porHeld)
    (hClass : vddioClass mv ≠ none) :
    ∃ t, execPowerUp bootsel process mv s = .next t ∧ t.recorder.flushSeq = 0 := by
  refine ⟨_, rfl, ?_⟩
  rw [if_neg fun hRefused => hRefused.elim (absurd hHeld) hClass]
  dsimp only
  split
  · rw [tagOccur_flushSeq, occur_flushSeq, releaseCore_recorder]
  · rw [occur_flushSeq, releaseCore_recorder]

/-! ### The write of REC.FLUSHSEQ -/

/-- A write of REC.FLUSHSEQ that domain 0 may make is `writeFlush`. -/
theorem exec_recFlush_of_mayWrite {s : State} {w : Dom} (v : W64) (hMay : mayWrite s w blkREC 0x98 = true) :
    exec (.recFlush w v) s = .next (writeFlush s v) :=
  congrArg Host.Outcome.next (guardedWrite_of_mayWrite _ _ hMay)

/-- Settles O51: a value from FLUSHSEQ to SEQ takes the first branch of `writeFlush`, any other the second; power-up starts
from a recorder whose FLUSHSEQ is 0, and what it records keeps it. -/
theorem flushesAreRecorded : Obligations.FlushesAreRecorded := by
  refine ⟨fun s w v hMay => ?_, fun s b p mv => execPowerUp_flushSeq s b p mv⟩
  rw [exec_recFlush_of_mayWrite v hMay]
  constructor
  · intro hOld hSeq
    exact congrArg Host.Outcome.next (if_pos ⟨hOld, hSeq⟩)
  · intro hOutside
    exact congrArg Host.Outcome.next (if_neg hOutside)

end Sys2Proof.Machine
end

section
/-! What every step keeps: the queue of waiting commands, the canonical form of buffer memory, and what the fuses hold. The five
commands that can end the programming of a fuse are the only ones outside `exec_keepsNext`; each is taken apart here. -/

namespace Sys2Proof.Machine

/-- Equal states are equal outcomes. -/
theorem next_congr {s t : State} (h : s = t) : (.next s : Host.Outcome State Fault Refusal) = .next t := congrArg _ h

/-! ### The commands that end the programming of a fuse -/

/-- The queue stays as it is and memory stays canonical. -/
def QueueAndMemoryKept (s t : State) : Prop := t.pending = s.pending ∧ (cellsWf s.mem → cellsWf t.mem)

theorem QueueAndMemoryKept.refl (s : State) : QueueAndMemoryKept s s := ⟨rfl, id⟩

theorem Keeps.queueAndMemoryKept {s t : State} (h : Keeps s t) : QueueAndMemoryKept s t := ⟨h.pending, h.mem⟩

/-- A system reset keeps the queue and the memory (R537). -/
theorem systemResetCore_queueAndMemoryKept (s : State) (kind dom : Nat) :
    QueueAndMemoryKept s (systemResetCore s kind dom) := by
  obtain ⟨u, hKeeps, -, hReset⟩ := systemResetCore_spec s kind dom
  rw [hReset]
  exact ⟨(disturbFuse_pending u).trans hKeeps.pending, fun hs => (disturbFuse_mem u).symm ▸ hKeeps.mem hs⟩

theorem pinReset_queueAndMemoryKept (s : State) (kind ns : Nat) (low : Pins → Pins) :
    QueueAndMemoryKept s (pinReset s kind ns low) := by
  have hCore := systemResetCore_queueAndMemoryKept s kind 15
  unfold pinReset
  generalize systemResetCore s kind 15 = u at hCore ⊢
  split
  · exact .refl _
  · split
    · exact hCore
    · exact .refl _

theorem execFuseProgrammed_queueAndMemoryKept {ok : Bool} {s t : State} (h : execFuseProgrammed ok s = .next t) :
    QueueAndMemoryKept s t := by
  injection h with h
  subst h
  split
  · exact .refl _
  next f v d _ => exact (occur_keeps { s with fus := { burn s.fus f.toNat v.toNat d ok with busy := none } } _ _ _ _
      (.refl _)).queueAndMemoryKept

/-- A power-on reset loses the memory whole, which leaves it canonical (R532). -/
theorem execPowerOnReset_queueAndMemoryKept {s t : State} (h : execPowerOnReset s = .next t) : QueueAndMemoryKept s t := by
  injection h with h
  subst h
  split
  · exact .refl _
  · exact ⟨disturbFuse_pending s, fun _ => ⟨rfl, rfl⟩⟩

theorem execSystemReset_queueAndMemoryKept {bootsel : BitVec 2} {process : Byte} {s t : State}
    (h : execSystemReset bootsel process s = .next t) : QueueAndMemoryKept s t := by
  injection h with h
  subst h
  split
  next d _ =>
    split
    · obtain ⟨hQueue, hMem⟩ := systemResetCore_queueAndMemoryKept s 4 d.toNat
      have hRelease := releaseCore_keeps _ bootsel process (.refl (systemResetCore s 4 d.toNat))
      exact ⟨hRelease.pending.trans hQueue, fun hs => hRelease.mem (hMem hs)⟩
    · exact .refl _
  · exact .refl _

/-- Every command leaves the queue behind it as it is, and canonical memory canonical. -/
theorem exec_queueAndMemoryKept {i : Instr} {s t : State} (h : exec i s = .next t) : QueueAndMemoryKept s t := by
  cases hi : endsProgramming i with
  | false =>
    obtain ⟨u, hu, hKeeps⟩ := exec_keepsNext i s hi
    cases hu.symm.trans h
    exact hKeeps.queueAndMemoryKept
  | true =>
    cases i with
    | fuseProgrammed ok => exact execFuseProgrammed_queueAndMemoryKept h
    | powerOnReset => exact execPowerOnReset_queueAndMemoryKept h
    | resetNLow ns => cases h; exact pinReset_queueAndMemoryKept s 2 ns _
    | pgoodLow ns => cases h; exact pinReset_queueAndMemoryKept s 3 ns _
    | systemReset bootsel process => exact execSystemReset_queueAndMemoryKept h
    | _ => cases hi

/-! ### The step -/

/-- Settles O1: the front command's branch of `step`. -/
theorem stepRunsTheFrontCommand : Obligations.StepRunsTheFrontCommand := by
  intro c q s hFront
  simp only [step, hFront]

theorem step_of_noCommand {s : State} (h : s.pending = []) : step s = .next (idle s) := by
  simp only [step, h]

theorem idle_of_running {s : State} (h : running s = true) : idle s = { s with now := s.now.cycle } := if_pos h

theorem idle_of_notRunning {s : State} (h : running s = false) : idle s = s := if_neg (by rw [running] at h; simp [h])

/-- Settles O2: the idle cycle by the branches of `Time.cycle`; a command's queue by `exec_queueAndMemoryKept`. -/
theorem queueIsFirstInFirstOut : Obligations.QueueIsFirstInFirstOut := by
  refine ⟨fun s hEmpty => ⟨fun hRun => ⟨fun hSub => ?_, fun hSub hSlot => ?_, fun hSub hSlot => ?_⟩, fun hStop => ?_⟩,
    fun c s t h => (exec_queueAndMemoryKept h).1⟩
  · rw [step_of_noCommand hEmpty, idle_of_running hRun, Time.cycle, if_pos hSub]
  · rw [step_of_noCommand hEmpty, idle_of_running hRun, Time.cycle, if_neg (by omega), if_pos hSlot]
  · have hLast : ¬ s.now.slot.toNat < 63 := by rw [hSlot]; decide
    rw [step_of_noCommand hEmpty, idle_of_running hRun, Time.cycle, if_neg (by omega), if_neg hLast]
  · rw [step_of_noCommand hEmpty, idle_of_notRunning hStop]

/-- Settles O3: an idle cycle leaves memory alone, and every command keeps its form. -/
theorem memoryStaysCanonical : Obligations.MemoryStaysCanonical := by
  intro s t hs h
  unfold step at h
  split at h
  next c q _ => exact (exec_queueAndMemoryKept h).2 hs
  · cases h
    exact (idle_keeps s (.refl s)).mem hs

/-! ### The fuses -/

/-- A step of the fuses that takes nothing back and still aims at a blank field, where it aimed at one (R375). -/
def FusesOneTime (a b : Fus) : Prop := fuseTargetBlank a → fusesGrow a b ∧ fuseTargetBlank b

theorem Keeps.fusesOneTime {s t : State} (h : Keeps s t) : FusesOneTime s.fus t.fus := by
  obtain ⟨hSame, -, hBlank⟩ := h.fus
  exact fun hs => ⟨fusesGrow_of_same hSame, hBlank hs⟩

theorem fuseTargetBlank_of_notBusy {f : Fus} (h : f.busy = none) : fuseTargetBlank f := by
  simp only [fuseTargetBlank, h]

/-- Ending the command in progress as R377 says programs the blank field it names, or nothing. -/
theorem FusesAsNamed.oneTime {a b : Fus} (h : FusesAsNamed a b) (hEnd : b = a ∨ b.busy = none) : FusesOneTime a b := by
  intro ha
  rcases hEnd with rfl | hEnd
  · exact ⟨fusesGrow_refl _, ha⟩
  · refine ⟨?_, fuseTargetBlank_of_notBusy hEnd⟩
    rcases h with hSame | ⟨f, v, d, ok, hBusy, rfl⟩
    · exact fusesGrow_of_same hSame
    · exact burn_grows a f v d d ok hBusy ha

/-- A reset that disturbs a command ends it (R376). -/
theorem disturbFuse_notBusy (s : State) : (disturbFuse s).fus.busy = none := by
  rcases disturbFuse_fus s with ⟨hSame, hNone⟩ | ⟨f, v, d, -, hNone | hPart⟩
  · rw [hSame, hNone]
  · rw [hNone]
  · rw [hPart]

theorem systemResetCore_notBusy (s : State) (kind dom : Nat) : (systemResetCore s kind dom).fus.busy = none := by
  obtain ⟨u, -, -, hReset⟩ := systemResetCore_spec s kind dom
  rw [hReset]
  exact disturbFuse_notBusy u

theorem pinReset_endsFuseCommand (s : State) (kind ns : Nat) (low : Pins → Pins) :
    (pinReset s kind ns low).fus = s.fus ∨ (pinReset s kind ns low).fus.busy = none := by
  have hCore := systemResetCore_notBusy s kind 15
  unfold pinReset
  generalize systemResetCore s kind 15 = u at hCore ⊢
  split
  · exact .inl rfl
  · split
    · exact .inr hCore
    · exact .inl rfl

/-- Each of the five commands leaves the fuses as they are, or no command in progress. -/
theorem exec_endsFuseCommand {i : Instr} {s t : State} (hi : endsProgramming i = true) (h : exec i s = .next t) :
    t.fus = s.fus ∨ t.fus.busy = none := by
  cases i with
  | fuseProgrammed ok =>
    injection h with h
    subst h
    split
    · exact .inl rfl
    · exact .inr (congrArg (fun u : State => u.fus.busy) (occurAt_onlyNoted _ _ _ _ _ _ _).1)
  | powerOnReset =>
    injection h with h
    subst h
    split
    · exact .inl rfl
    · exact .inr (disturbFuse_notBusy s)
  | resetNLow ns => cases h; exact pinReset_endsFuseCommand s 2 ns _
  | pgoodLow ns => cases h; exact pinReset_endsFuseCommand s 3 ns _
  | systemReset bootsel process =>
    injection h with h
    subst h
    split
    next d _ =>
      split
      · rw [releaseCore_fus]
        exact .inr (systemResetCore_notBusy s 4 d.toNat)
      · exact .inl rfl
    · exact .inl rfl
  | _ => cases hi

/-- Settles O5: outside the five commands that can end the programming, a step keeps what the fuses hold and what the command in
progress names; these five end it in the blank field it names, or leave the fuses alone. -/
theorem fusesAreOneTime : Obligations.FusesAreOneTime := by
  intro s t hs h
  unfold step at h
  split at h
  next c q _ =>
    cases hc : endsProgramming c with
    | false =>
      obtain ⟨u, hu, hKeeps⟩ := exec_keepsNext c { s with pending := q } hc
      cases hu.symm.trans h
      exact hKeeps.fusesOneTime hs
    | true => exact (exec_fusesAsNamed c _ t h).oneTime (exec_endsFuseCommand hc h) hs
  · cases h
    exact (idle_keeps s (.refl s)).fusesOneTime hs

end Sys2Proof.Machine
end

section
/-! What reset leaves, what recording an occurrence does, and how a connection's event queue takes a copy. -/

namespace Sys2Proof.Machine

/-! ### Reset -/

/-- No header has been written at reset, so each reads as the register map gives it. -/
theorem hdr_reset (b : Nat) : hdr State.reset b = hdrReset b := rfl

/-- No register has been written at reset, so each reads as the register map gives it. -/
theorem regGet_reset (b o : Nat) : regGet State.reset b o = regReset b o := rfl

/-- Settles O6: every table of the reset state is empty, so headers and registers read at their reset values. -/
theorem resetLeavesTheManualsValues : Obligations.ResetLeavesTheManualsValues := by
  have hHeaders : ∀ b, (hdr State.reset b).eve = 0 ∧ (hdr State.reset b).evs = 0 ∧ (hdr State.reset b).lock = false ∧
      (hdr State.reset b).denied = 0 ∧ (hdr State.reset b).errValid = false ∧ (hdr State.reset b).scr = 0 :=
    fun _ => ⟨rfl, rfl, rfl, rfl, rfl, rfl⟩
  refine ⟨⟨⟨rfl, rfl⟩, fuseTargetBlank_of_notBusy rfl⟩, rfl, rfl, rfl, rfl, rfl, rfl, rfl, rfl, rfl, rfl, rfl, rfl, rfl, rfl,
    hHeaders, rfl, rfl, rfl, rfl, rfl⟩

/-! ### Occurrences -/

theorem hdr_recordAt_eve (s : State) (fr : W32) (sl : BitVec 6) (b k : Nat) (c : BitVec 12) (p0 p1 : W32) :
    (hdr (recordAt s fr sl b c p0 p1) k).eve = (hdr s k).eve := by
  rw [(recordAt_onlyNoted s fr sl b c p0 p1).2.2 k]

theorem hdr_setEvs_eve (s : State) (b k : Nat) (c : BitVec 12) : (hdr (setEvs s b c) k).eve = (hdr s k).eve := by
  rw [(setEvs_onlyNoted s b c).2.2 k]

/-- With the code's EVE bit clear nobody receives a copy (R151). -/
theorem routeOf_of_disabled {s : State} {b : Nat} {c : BitVec 12}
    (h : ∀ n, evsBitOf b c = some n → (hdr s b).eve.getLsbD n = false) : routeOf s b c = [] := by
  unfold routeOf
  split
  · rfl
  next n hBit => simp [h n hBit]

/-- An occurrence whose copies are disabled is its record and its EVS bit (R451, R559). -/
theorem occur_of_disabled {s : State} {b : Nat} {c : BitVec 12} (p0 p1 : W32) (hRec : isEventOnly c = false)
    (h : ∀ n, evsBitOf b c = some n → (hdr s b).eve.getLsbD n = false) :
    occur s b c p0 p1 = setEvs (recordAt s s.now.frame s.now.slot b c p0 p1) b c := by
  have hRoute : routeOf (setEvs (recordAt s s.now.frame s.now.slot b c p0 p1) b c) b c = [] := by
    refine routeOf_of_disabled fun n hBit => ?_
    rw [hdr_setEvs_eve, hdr_recordAt_eve, h n hBit]
  simp only [occur, occurAt, hRec, Bool.false_eq_true, if_false, hRoute, copyTo]

theorem getLsbD_oneShift_self {n : Nat} (h : n < 16) : (1#16 <<< n).getLsbD n = true := by
  rw [BitVec.getLsbD_shiftLeft, Nat.sub_self, decide_eq_true h, decide_eq_false (Nat.lt_irrefl n)]
  decide

/-- The EVS bit of the code is set (R559). -/
theorem evSet_setEvs {s : State} {b n : Nat} {c : BitVec 12} (hn : n < 16) (hBit : evsBitOf b c = some n) :
    evSet (setEvs s b c) b n = true := by
  simp only [evSet, setEvs, hBit, hdr_setHdr_self, BitVec.getLsbD_or, getLsbD_oneShift_self hn, Bool.or_true]

theorem Recorded.setEvs {s t : State} {b : Nat} {c : BitVec 12} {p0 p1 : W32} (h : Recorded s t b c p0 p1) :
    Recorded s (setEvs t b c) b c p0 p1 := by
  unfold Recorded at h ⊢
  rwa [setEvs_recorder]

/-- Settles O7: with its EVE bit clear an occurrence is its record and its EVS bit; what it touches holds in every case. -/
theorem occurrenceIsRecorded : Obligations.OccurrenceIsRecorded := by
  refine ⟨fun s b c p0 p1 => occurAt_onlyNoted _ _ _ _ _ _ _, fun s b c p0 p1 hRec _ hOff => ?_⟩
  rw [occur_of_disabled p0 p1 hRec hOff]
  refine ⟨(recordAt_recorded _ _ _ _ _ _ _).setEvs, ?_, fun n => evSet_setEvs, ?_⟩
  · exact (recordAt_onlyNoted _ _ _ _ _ _ _).trans (setEvs_onlyNoted _ _ _)
  · rw [setEvs_conns, recordAt_conns]

/-! ### Copies -/

/-- A queue of fewer than 32 copies leaves one of the 32 records free: 32 positions do not fit into its positions. -/
theorem exists_freePos {q : List EventRec} (h : q.length < 32) : ∃ p < 32, ∀ e ∈ q, e.pos ≠ p := by
  refine Classical.byContradiction fun hNone => ?_
  have hTaken : ∀ p < 32, ∃ e ∈ q, e.pos = p := fun p hp =>
    Classical.byContradiction fun hFree => hNone ⟨p, hp, fun e he hPos => hFree ⟨e, he, hPos⟩⟩
  have hAll : List.range 32 ⊆ q.map (·.pos) := fun p hp => List.mem_map.mpr (hTaken p (List.mem_range.mp hp))
  have hLength := List.nodup_range.length_le_of_subset hAll
  rw [List.length_range, List.length_map] at hLength
  omega

/-- The search round the 32 records from any start meets each of them. -/
theorem mem_rounds {p : Nat} (n : Nat) (h : p < 32) : p ∈ (List.range 32).map fun i => (n + i) % 32 := by
  refine List.mem_map.mpr ⟨(p + 32 - n % 32) % 32, List.mem_range.mpr (Nat.mod_lt _ (by decide)), ?_⟩
  omega

/-- With room in the queue, the record taken is one of the 32 and no copy's (R128). -/
theorem freePos_free {q : List EventRec} (n : Nat) (h : q.length < 32) :
    freePos q n < 32 ∧ ∀ e ∈ q, e.pos ≠ freePos q n := by
  obtain ⟨p, hp, hFree⟩ := exists_freePos h
  unfold freePos
  cases hFind : ((List.range 32).map fun i => (n + i) % 32).find? fun p => q.all fun e => decide (e.pos ≠ p) with
  | none =>
    have hTaken := List.find?_eq_none.mp hFind p (mem_rounds n hp)
    exact absurd (List.all_eq_true.mpr fun e he => decide_eq_true (hFree e he)) hTaken
  | some x =>
    obtain ⟨i, -, hi⟩ := List.mem_map.mp (List.mem_of_find?_eq_some hFind)
    have hx : (q.all fun e => decide (e.pos ≠ x)) = true := List.find?_some (p := fun p => q.all fun e => decide (e.pos ≠ p)) hFind
    exact ⟨hi ▸ Nat.mod_lt _ (by decide), fun e he => of_decide_eq_true (List.all_eq_true.mp hx e he)⟩

/-- Settles O9: the two branches of `pushEvent`, and the pigeonhole of the event queue's 32 records. -/
theorem copyTakesTheNextEvseq : Obligations.CopyTakesTheNextEvseq := by
  intro s k c kind b code p0 p1 hConn
  refine ⟨fun hRoom => ⟨?_, freePos_free _ hRoom⟩, fun hFull => ?_⟩
  · simp only [pushEvent, hConn, if_pos hRoom]
  · simp only [pushEvent, hConn, if_neg (Nat.not_lt.mpr hFull)]

end Sys2Proof.Machine
end

section
/-! Register access (chapter 16): the guard of every write, the header registers, and the snapshot groups. -/

namespace Sys2Proof.Machine

/-! ### The guard -/

theorem regAddr_div (b : Nat) {o : Nat} (h : o < 4096) : regAddr b o / 4096 = b := by
  unfold regAddr; omega

theorem regAddr_mod (b : Nat) {o : Nat} (h : o < 4096) : regAddr b o % 4096 = o := by
  unfold regAddr; omega

theorem regAddr_div_mod (a : Nat) : regAddr (a / 4096) (a % 4096) = a := by
  unfold regAddr; omega

section Guard

variable {s : State} {w : Dom} {b o : Nat} (og : Origin) (f : State → State)

theorem guardedWrite_of_notAccepting (h : accepting s = false) : guardedWrite s w b o og f = s := by
  simp [guardedWrite, h]

theorem guardedWrite_of_reserved (hOn : accepting s = true) (h : listed b o = false) :
    guardedWrite s w b o og f = violate s w { kind := 6, p1 := BitVec.ofNat 32 (regAddr b o) } og := by
  simp [guardedWrite, hOn, h]

theorem guardedWrite_of_noRight (hOn : accepting s = true) (hListed : listed b o = true) (h : canWrite s w b o = false) :
    guardedWrite s w b o og f = violate s w { kind := 1, p1 := BitVec.ofNat 32 (regAddr b o) } og := by
  simp [guardedWrite, hOn, hListed, h]

theorem guardedWrite_of_locked (hOn : accepting s = true) (hListed : listed b o = true) (hRight : canWrite s w b o = true)
    (hLock : (hdr s b).lock = true) (h : lockable b o = true) : guardedWrite s w b o og f = denied s b := by
  simp [guardedWrite, hOn, hListed, hRight, hLock, h]

end Guard

/-- What a write under the lock changes: the block's count alone (R550). -/
theorem hdr_denied_self (s : State) (b : Nat) : hdr (denied s b) b = { hdr s b with denied := (hdr s b).denied + 1 } :=
  hdr_setHdr_self _ _ _

theorem hdr_denied_ne (s : State) {b j : Nat} (h : j ≠ b) : hdr (denied s b) j = hdr s j := hdr_setHdr_ne _ _ h

/-- A register write is its guard around its effect. -/
theorem writeReg_eq (s : State) (w : Dom) (og : Origin) (a : Nat) (v : W64) :
    writeReg s w og a v = guardedWrite s w (a / 4096) (a % 4096) og fun s =>
      if isHeader (a % 4096) then writeHeader s w (a / 4096) (a % 4096) v
      else writeSpecific s w og (a / 4096) (a % 4096) v := rfl

/-- Settles O10: the four refusals of the guard, in its order. -/
theorem registerWriteIsGuarded : Obligations.RegisterWriteIsGuarded := by
  intro s w addr v
  have hAddr : regAddr (addrBlk addr) (addrOff addr) = addr.toNat := regAddr_div_mod addr.toNat
  simp only [exec_registerWrite, writeReg_eq]
  refine ⟨fun hOff => ?_, fun hOn hReserved => ?_, fun hOn hListed hNo => ?_, fun hOn hListed hMay hLock hLockable => ?_⟩
  · exact next_congr (guardedWrite_of_notAccepting _ _ hOff)
  · exact next_congr ((guardedWrite_of_reserved _ _ hOn hReserved).trans (by rw [hAddr]))
  · exact next_congr ((guardedWrite_of_noRight _ _ hOn hListed hNo).trans (by rw [hAddr]))
  · refine ⟨denied s (addrBlk addr), next_congr (guardedWrite_of_locked _ _ hOn hListed hMay hLock hLockable), ?_, rfl,
      fun b hb => hdr_denied_ne s hb, ?_⟩
    · rw [hdr_denied_self]
    · rw [hdr_denied_self]

/-! ### The header registers -/

/-- A write of a header register that may take effect is `writeHeader`. -/
theorem writeReg_header {s : State} {w : Dom} {a : Nat} (og : Origin) (v : W64) (hHeader : isHeader (a % 4096) = true)
    (hMay : mayWrite s w (a / 4096) (a % 4096) = true) :
    writeReg s w og a v = writeHeader s w (a / 4096) (a % 4096) v := by
  rw [writeReg_eq, guardedWrite_of_mayWrite _ _ hMay, if_pos hHeader]

/-- A write of a block's own register that may take effect is `writeSpecific`. -/
theorem writeReg_specific {s : State} {w : Dom} {a : Nat} (og : Origin) (v : W64) (hHeader : isHeader (a % 4096) = false)
    (hMay : mayWrite s w (a / 4096) (a % 4096) = true) :
    writeReg s w og a v = writeSpecific s w og (a / 4096) (a % 4096) v := by
  rw [writeReg_eq, guardedWrite_of_mayWrite _ _ hMay, if_neg (by rw [hHeader]; decide)]

/-- The same, of a header register named by block and offset. -/
theorem writeReg_headerAt {s : State} {w : Dom} {b o : Nat} (og : Origin) (v : W64) (ho : isHeader o = true)
    (hMay : mayWrite s w b o = true) : writeReg s w og (regAddr b o) v = writeHeader s w b o v := by
  have hLow : o < 4096 := Nat.lt_trans (of_decide_eq_true ho : o < 0x70) (by decide)
  have hDiv := regAddr_div b hLow
  have hMod := regAddr_mod b hLow
  rw [writeReg_header og v (by rw [hMod]; exact ho) (by rw [hDiv, hMod]; exact hMay), hDiv, hMod]

/-- EVS keeps the bits not written 1, and those that occur again (R559). -/
theorem evSet_clearEvs (s : State) {b n : Nat} (v : W64) (again : W16) (hn : n < 16) :
    evSet (clearEvs s b v again) b n = true ↔ evSet s b n = true ∧ (v.getLsbD n = false ∨ again.getLsbD n = true) := by
  unfold evSet clearEvs
  rw [hdr_setHdr_self]
  simp only [BitVec.getLsbD_and, BitVec.getLsbD_not, BitVec.getLsbD_setWidth, hn, decide_true, Bool.true_and]
  cases (hdr s b).evs.getLsbD n <;> cases v.getLsbD n <;> cases again.getLsbD n <;> decide

/-- The writable bits read back as written (R555). -/
theorem regGet_regStore_masked (s : State) (b o : Nat) (v : W64) :
    regGet (regStore s b o v) b o &&& regMask b o = v &&& regMask b o := by
  rw [regStore, regGet_regSet_self]
  ext i
  simp only [BitVec.getElem_and, BitVec.getElem_or, BitVec.getElem_not]
  cases (regMask b o)[i] <;> simp

theorem writeSpecific_fch {s : State} {w : Dom} {og : Origin} {b o : Nat} {v : W64} (hFch : isFch b = true)
    (hMask : regMask b o ≠ 0) : writeSpecific s w og b o v = regStore s b o v := by
  unfold writeSpecific
  rw [if_pos hFch, writePlain, if_neg hMask]

/-! ### Snapshot groups -/

/-- The latch is domain d's of group g of block b. -/
def Latch.isOf (b g : Nat) (d : Dom) (l : Latch) : Bool := decide (l.block = b) && decide (l.group = g) && decide (l.dom = d)

theorem Latch.isOf_iff {b g : Nat} {d : Dom} {l : Latch} : l.isOf b g d = true ↔ l.block = b ∧ l.group = g ∧ l.dom = d := by
  simp [Latch.isOf, and_assoc]

theorem findLatch_eq (s : State) (d : Dom) (b g : Nat) : findLatch s d b g = s.latches.find? (Latch.isOf b g d) := rfl

theorem setLatch_latches (s : State) (x : Latch) :
    (setLatch s x).latches = (s.latches.filter fun l => !(l.isOf x.block x.group x.dom)) ++ [x] := rfl

/-- The latch a group takes is found again (R560). -/
theorem findLatch_setLatch_self (s : State) (x : Latch) : findLatch (setLatch s x) x.dom x.block x.group = some x := by
  have hGone : (s.latches.filter fun l => !(l.isOf x.block x.group x.dom)).find? (Latch.isOf x.block x.group x.dom) = none :=
    List.find?_eq_none.mpr fun l hl => by simpa using (List.mem_filter.mp hl).2
  have hSelf : x.isOf x.block x.group x.dom = true := Latch.isOf_iff.mpr ⟨rfl, rfl, rfl⟩
  rw [findLatch_eq, setLatch_latches, List.find?_append, hGone, Option.none_or, List.find?_cons_of_pos hSelf]

/-- Another group's latch, or another domain's, stays (R560). -/
theorem findLatch_setLatch_ne (s : State) {x : Latch} {d : Dom} {b g : Nat} (h : ¬ (x.block = b ∧ x.group = g ∧ x.dom = d)) :
    findLatch (setLatch s x) d b g = findLatch s d b g := by
  have hNew : ¬ x.isOf b g d = true := fun hx => h (Latch.isOf_iff.mp hx)
  have hKept : (fun l : Latch => decide ((!(l.isOf x.block x.group x.dom)) = true ∧ l.isOf b g d = true)) = Latch.isOf b g d := by
    funext l
    cases hl : l.isOf b g d with
    | false => simp
    | true =>
      obtain ⟨hb, hg, hd⟩ := Latch.isOf_iff.mp hl
      have hOther : ¬ l.isOf x.block x.group x.dom = true := fun hx => by
        obtain ⟨hb', hg', hd'⟩ := Latch.isOf_iff.mp hx
        exact h ⟨hb'.symm.trans hb, hg'.symm.trans hg, hd'.symm.trans hd⟩
      simp [hOther]
  rw [findLatch_eq, setLatch_latches, List.find?_append, List.find?_filter, hKept, List.find?_cons_of_neg hNew, List.find?_nil,
    Option.or_none, findLatch_eq]

section Reads

variable {s : State} {w : Dom} {b o : Nat}

/-- A read of the first register of a group latches the group, outside the recorder's window (R560). -/
theorem readReg_first {g n : Nat} (hb : b ≠ blkREC) (hGroup : groupOf b o = some (g, o, n)) :
    (readReg s w b o).1 = setLatch s ⟨b, g, w, (List.range n).map fun i => liveReg s w b (o + 8 * i)⟩ := by
  unfold readReg
  simp only [hGroup, if_true, if_neg hb]

/-- A read of another member shows the latch (R560). -/
theorem readReg_member {g first n : Nat} {x : Latch} (hGroup : groupOf b o = some (g, first, n)) (ho : o ≠ first)
    (hLatch : findLatch s w b g = some x) : readReg s w b o = (s, x.values.getD ((o - first) / 8) 0) := by
  unfold readReg
  simp only [hGroup, if_neg ho, hLatch]

/-- A register of no group shows what it holds. -/
theorem readReg_live (hGroup : groupOf b o = none) : readReg s w b o = (s, liveReg s w b o) := by
  unfold readReg
  simp only [hGroup]

end Reads

/-! One register read: denied for a reserved address or without the right, and otherwise `readReg` (R546, R551, R557). -/

section ReadOne

variable {s : State} {w : Dom} {a : Nat} (og : Origin)

theorem readRegs_one (ha : a < 2 ^ 20) (hListed : listed (a / 4096) (a % 4096) = true)
    (hMay : canRead s w (a / 4096) (a % 4096) = true) : (readRegs s w a 1 og).1 = (readReg s w (a / 4096) (a % 4096)).1 := by
  have hAllowed : readDenied s w a 1 = none := by
    simp [readDenied, show a < 1048576 from ha, hListed, hMay]
  rw [readRegs, hAllowed]
  rfl

theorem readRegs_one_noRight (ha : a < 2 ^ 20) (hListed : listed (a / 4096) (a % 4096) = true)
    (hNo : canRead s w (a / 4096) (a % 4096) = false) :
    (readRegs s w a 1 og).1 = violate s w { kind := 2, p1 := BitVec.ofNat 32 a } og := by
  have hDenied : readDenied s w a 1 = some { kind := 2, p1 := BitVec.ofNat 32 a } := by
    simp [readDenied, show a < 1048576 from ha, hListed, hNo]
  rw [readRegs, hDenied]

theorem readRegs_one_reserved (hReserved : listed (a / 4096) (a % 4096) = false) :
    (readRegs s w a 1 og).1 = violate s w { kind := 6, p1 := BitVec.ofNat 32 a } og := by
  have hDenied : readDenied s w a 1 = some { kind := 6, p1 := BitVec.ofNat 32 a } := by simp [readDenied, hReserved]
  rw [readRegs, hDenied]

end ReadOne

theorem exec_snapshotLatch {s : State} (w : Dom) (a : BitVec 20) (h : accepting s = true) :
    exec (.snapshotLatch w a) s = .next (readRegs s w a.toNat 1 {}).1 := next_congr (if_pos h)

/-! ### Header writes, plain registers and snapshots -/

theorem headerWritesTakeEffect (s : State) (w : Dom) (k : Byte) (v : W64) :
    (mayWrite s w k.toNat oLCK = true → bit v 0 = true →
      exec (.lock w k v) s = .next (setHdr s k.toNat { hdr s k.toNat with lock := true })) ∧
    (mayWrite s w k.toNat oERR = true →
      (bit v 12 = true → exec (.errClear w k v) s =
        .next (setHdr s k.toNat { hdr s k.toNat with errCode := 0, errValid := false, errSeq := 0 })) ∧
      (bit v 12 = false → exec (.errClear w k v) s = .next s)) ∧
    (mayWrite s w k.toNat oSNP = true → bit v 32 = true → ∃ t, exec (.snapshotRelease w k v) s = .next t ∧
      t = { s with latches := t.latches } ∧ ∀ l, l ∈ t.latches ↔ l ∈ s.latches ∧ ¬ (l.block = k.toNat ∧ l.dom = w)) := by
  refine ⟨fun hMay hSet => ?_, fun hMay => ⟨fun hSet => ?_, fun hClear => ?_⟩, fun hMay hSet => ?_⟩
  · exact next_congr ((writeReg_headerAt {} v rfl hMay).trans (if_pos hSet))
  · exact next_congr ((writeReg_headerAt {} v rfl hMay).trans (if_pos hSet))
  · exact next_congr ((writeReg_headerAt {} v rfl hMay).trans (if_neg (by rw [hClear]; decide)))
  · refine ⟨_, next_congr ((writeReg_headerAt {} v rfl hMay).trans (if_pos hSet)), rfl, fun l => ?_⟩
    simp only [List.mem_filter, Bool.not_eq_true', Bool.and_eq_false_iff, decide_eq_false_iff_not, Classical.not_and_iff_not_or_not]

theorem registerWriteTakesEffect (s : State) (w : Dom) (k : Byte) (v : W64) (a : BitVec 20) (hBlock : a.toNat / 4096 = k.toNat)
    (hMay : mayWrite s w k.toNat (a.toNat % 4096) = true) :
    (a.toNat % 4096 = oSCR → exec (.registerWrite w a v) s = .next (setHdr s k.toNat { hdr s k.toNat with scr := v })) ∧
    (a.toNat % 4096 = oEVE → exec (.registerWrite w a v) s =
      .next (setHdr s k.toNat { hdr s k.toNat with eve := v.setWidth 16 &&& evMask k.toNat })) ∧
    (isFch k.toNat = true → isHeader (a.toNat % 4096) = false → regMask k.toNat (a.toNat % 4096) ≠ 0 →
      ∃ t, exec (.registerWrite w a v) s = .next t ∧
        regGet t k.toNat (a.toNat % 4096) &&& regMask k.toNat (a.toNat % 4096) = v &&& regMask k.toNat (a.toNat % 4096) ∧
        regsBut s t [a.toNat] ∧ t = { s with regs := t.regs }) := by
  rw [← hBlock] at hMay ⊢
  refine ⟨fun ho => ?_, fun ho => ?_, fun hFch hSpecific hMask => ?_⟩
  · rw [exec_registerWrite, writeReg_header {} v (by rw [ho]; rfl) hMay, ho]
    rfl
  · rw [exec_registerWrite, writeReg_header {} v (by rw [ho]; rfl) hMay, ho]
    rfl
  · refine ⟨regStore s _ _ v, ?_, regGet_regStore_masked s _ _ v, ?_, rfl⟩
    · rw [exec_registerWrite, writeReg_specific {} v hSpecific hMay, writeSpecific_fch hFch hMask]
    · have hBut := regsBut_regStore s (a.toNat / 4096) (a.toNat % 4096) v
      rwa [regAddr_div_mod] at hBut

/-- Settles O60: header and plain registers by their branch of the write, the snapshot groups by `readReg`. -/
theorem registersAreReadAndWritten : Obligations.RegistersAreReadAndWritten := by
  refine ⟨fun s w k v => ?_, fun s w a hOn => ?_⟩
  · obtain ⟨hLck, hErr, hSnp⟩ := headerWritesTakeEffect s w k v
    refine ⟨hLck, hErr, hSnp, fun again hMay => ?_, fun a hBlock hMay => registerWriteTakesEffect s w k v a hBlock hMay⟩
    refine ⟨clearEvs s k.toNat v again, next_congr (guardedWrite_of_mayWrite _ _ hMay), ?_, fun n hn => evSet_clearEvs s v again hn⟩
    rw [clearEvs, hdr_setHdr_self]
  · rw [exec_snapshotLatch w a hOn]
    refine ⟨fun hListed hMay hb => ?_, fun hListed hNo => ?_, fun hReserved => ?_⟩
    · rw [readRegs_one {} a.isLt hListed hMay]
      refine ⟨fun g first n hGroup ho => ?_, fun g first n x hGroup ho hLatch => ?_, fun hGroup => ?_⟩
      · subst ho
        rw [readReg_first hb hGroup]
        refine ⟨_, rfl, findLatch_setLatch_self s _, fun d b' g' hne => findLatch_setLatch_ne s ?_, rfl⟩
        rintro ⟨rfl, rfl, rfl⟩
        exact hne rfl
      · rw [readReg_member hGroup ho hLatch]
        exact ⟨rfl, rfl⟩
      · rw [readReg_live hGroup]
        exact ⟨rfl, rfl⟩
    · rw [readRegs_one_noRight {} a.isLt hListed hNo]
    · rw [readRegs_one_reserved {} hReserved]

end Sys2Proof.Machine
end

section
/-! The shape of what recording leaves: four fields of the state, and these as a function of what recording reads. -/

namespace Sys2Proof.Machine

/-! ### What an occurrence writes -/

theorem OnlyNoted.eq_noteFields {s t : State} (h : OnlyNoted s t) : t = noteFields s t.recorder t.hdrs t.conns t.evDrop := h.1

/-- The recorder, headers, connections and dropped copies that an occurrence leaves. -/
def occurAtNotes (s : State) (fr : W32) (sl : BitVec 6) (b : Nat) (c : BitVec 12) (p0 p1 : W32) :
    Recorder × Tbl Hdr × Tbl Conn × W16 :=
  ((occurAt s fr sl b c p0 p1).recorder, (occurAt s fr sl b c p0 p1).hdrs, (occurAt s fr sl b c p0 p1).conns,
    (occurAt s fr sl b c p0 p1).evDrop)

/-- An occurrence writes these four fields and no other. -/
theorem occurAt_eq (s : State) (fr : W32) (sl : BitVec 6) (b : Nat) (c : BitVec 12) (p0 p1 : W32) :
    occurAt s fr sl b c p0 p1 = noteFields s (occurAtNotes s fr sl b c p0 p1).1 (occurAtNotes s fr sl b c p0 p1).2.1
      (occurAtNotes s fr sl b c p0 p1).2.2.1 (occurAtNotes s fr sl b c p0 p1).2.2.2 :=
  (occurAt_onlyNoted s fr sl b c p0 p1).eq_noteFields

/-- The same of an occurrence now. -/
theorem occur_eq (s : State) (b : Nat) (c : BitVec 12) (p0 p1 : W32) :
    occur s b c p0 p1 = noteFields s (occurAtNotes s s.now.frame s.now.slot b c p0 p1).1
      (occurAtNotes s s.now.frame s.now.slot b c p0 p1).2.1 (occurAtNotes s s.now.frame s.now.slot b c p0 p1).2.2.1
      (occurAtNotes s s.now.frame s.now.slot b c p0 p1).2.2.2 :=
  occurAt_eq s _ _ b c p0 p1

/-! ### What an occurrence reads -/

/-- The state `x` with all that recording reads or writes taken from `s`. -/
def withNotesOf (x s : State) : State :=
  { x with
    recorder := s.recorder, hdrs := s.hdrs, conns := s.conns, evDrop := s.evDrop, links := s.links, now := s.now
    frames := s.frames, clk := { x.clk with noTime := s.clk.noTime } }

section WithNotesOf

variable (x s : State)

theorem captureErr_withNotesOf (b : Nat) (c : BitVec 12) :
    captureErr (withNotesOf x s) b c = withNotesOf x (captureErr s b c) := by
  have hHdr : hdr (withNotesOf x s) b = hdr s b := rfl
  unfold captureErr
  rw [hHdr]
  dsimp only
  split <;> rfl

theorem recordAt_withNotesOf (fr : W32) (sl : BitVec 6) (b : Nat) (c : BitVec 12) (p0 p1 : W32) :
    recordAt (withNotesOf x s) fr sl b c p0 p1 = withNotesOf x (recordAt s fr sl b c p0 p1) := by
  have hRecorder : (withNotesOf x s).recorder = s.recorder := rfl
  unfold recordAt
  rw [hRecorder]
  cases raisable s.recorder c p0 p1 with
  | some y => rfl
  | none => exact captureErr_withNotesOf x { s with recorder := newRecord s.recorder _ } b c

theorem setEvs_withNotesOf (b : Nat) (c : BitVec 12) : setEvs (withNotesOf x s) b c = withNotesOf x (setEvs s b c) := by
  unfold setEvs
  cases evsBitOf b c <;> rfl

theorem pushEvent_withNotesOf (k : Nat) (kind : Byte) (b : Nat) (c : BitVec 12) (p0 p1 : W32) :
    pushEvent (withNotesOf x s) k kind b c p0 p1 =
      (withNotesOf x (pushEvent s k kind b c p0 p1).1, (pushEvent s k kind b c p0 p1).2) := by
  have hConns : (withNotesOf x s).conns = s.conns := rfl
  unfold pushEvent
  rw [hConns]
  cases tget s.conns k with
  | none => rfl
  | some y =>
    have hCount : queueCount (withNotesOf x s) k y = queueCount s k y := rfl
    dsimp only
    rw [hCount]
    split <;> rfl

theorem recordDrop_withNotesOf (k : Nat) (q : W16) : recordDrop (withNotesOf x s) k q = withNotesOf x (recordDrop s k q) := by
  have hRecord := recordAt_withNotesOf x { s with evDrop := s.evDrop + 1 } s.now.frame s.now.slot blkLNK 0x113
    (put32 k 10 0 ||| put32 q.toNat 16 16) 0
  exact (congrArg (setEvs · blkLNK 0x113) hRecord).trans (setEvs_withNotesOf x _ blkLNK 0x113)

theorem copyDrops_withNotesOf (p0 : W32) (l : List Nat) : copyDrops (withNotesOf x s) p0 l = withNotesOf x (copyDrops s p0 l) := by
  induction l generalizing s with
  | nil => rfl
  | cons k t ih =>
    simp only [copyDrops, pushEvent_withNotesOf]
    obtain ⟨u, q⟩ := pushEvent s k 2 blkLNK 0x113 p0 0
    cases q with
    | none => exact ih u
    | some q => simp only [recordDrop_withNotesOf, ih]

theorem noteDrop_withNotesOf (k : Nat) (q : W16) : noteDrop (withNotesOf x s) k q = withNotesOf x (noteDrop s k q) := by
  simp only [noteDrop, recordDrop_withNotesOf]
  exact copyDrops_withNotesOf x _ _ _

theorem copyTo_withNotesOf (kind : Byte) (b : Nat) (c : BitVec 12) (p0 p1 : W32) (l : List Nat) :
    copyTo (withNotesOf x s) kind b c p0 p1 l = withNotesOf x (copyTo s kind b c p0 p1 l) := by
  induction l generalizing s with
  | nil => rfl
  | cons k t ih =>
    simp only [copyTo, pushEvent_withNotesOf]
    obtain ⟨u, q⟩ := pushEvent s k kind b c p0 p1
    cases q with
    | none => exact ih u
    | some q => simp only [noteDrop_withNotesOf, ih]

/-- An occurrence reads nothing but what `withNotesOf` takes over. -/
theorem occurAt_withNotesOf (fr : W32) (sl : BitVec 6) (b : Nat) (c : BitVec 12) (p0 p1 : W32) :
    occurAt (withNotesOf x s) fr sl b c p0 p1 = withNotesOf x (occurAt s fr sl b c p0 p1) := by
  unfold occurAt
  simp only [recordAt_withNotesOf]
  rw [← apply_ite (withNotesOf x), setEvs_withNotesOf]
  exact copyTo_withNotesOf x _ _ _ _ _ _ _

theorem occur_withNotesOf (b : Nat) (c : BitVec 12) (p0 p1 : W32) :
    occur (withNotesOf x s) b c p0 p1 = withNotesOf x (occur s b c p0 p1) := occurAt_withNotesOf x s _ _ b c p0 p1

end WithNotesOf

/-! ### What recording leaves of the recorder -/

/-- The recorder without its records: freeze, flush and XCMD. -/
def standing (s : State) : Recorder := { s.recorder with recs := [], seq := 0, overwrote := false, lost := 0, bad := [] }

section Standing

variable (s : State)

theorem standing_setEvs (b : Nat) (c : BitVec 12) : standing (setEvs s b c) = standing s := by
  unfold standing
  rw [setEvs_recorder]

theorem standing_recordAt (fr : W32) (sl : BitVec 6) (b : Nat) (c : BitVec 12) (p0 p1 : W32) :
    standing (recordAt s fr sl b c p0 p1) = standing s := by
  unfold standing recordAt
  cases raisable s.recorder c p0 p1 with
  | some x => rfl
  | none =>
    dsimp only
    rw [captureErr_recorder]
    rfl

theorem standing_pushEvent (k : Nat) (kind : Byte) (b : Nat) (c : BitVec 12) (p0 p1 : W32) :
    standing (pushEvent s k kind b c p0 p1).1 = standing s := by
  unfold standing
  rw [pushEvent_recorder]

theorem standing_recordDrop (k : Nat) (q : W16) : standing (recordDrop s k q) = standing s :=
  (standing_setEvs _ blkLNK 0x113).trans (standing_recordAt { s with evDrop := s.evDrop + 1 } _ _ _ _ _ _)

theorem standing_copyDrops (p0 : W32) (l : List Nat) : standing (copyDrops s p0 l) = standing s := by
  induction l generalizing s with
  | nil => rfl
  | cons k t ih =>
    have hPush := standing_pushEvent s k 2 blkLNK 0x113 p0 0
    unfold copyDrops
    generalize pushEvent s k 2 blkLNK 0x113 p0 0 = pushed at hPush ⊢
    obtain ⟨u, q⟩ := pushed
    cases q with
    | none => exact (ih u).trans hPush
    | some q => exact ((ih _).trans (standing_recordDrop u k q)).trans hPush

theorem standing_copyTo (kind : Byte) (b : Nat) (c : BitVec 12) (p0 p1 : W32) (l : List Nat) :
    standing (copyTo s kind b c p0 p1 l) = standing s := by
  induction l generalizing s with
  | nil => rfl
  | cons k t ih =>
    have hPush := standing_pushEvent s k kind b c p0 p1
    unfold copyTo
    generalize pushEvent s k kind b c p0 p1 = pushed at hPush ⊢
    obtain ⟨u, q⟩ := pushed
    cases q with
    | none => exact (ih u).trans hPush
    | some q =>
      have hDrop : standing (noteDrop u k q) = standing u := (standing_copyDrops _ _ _).trans (standing_recordDrop u k q)
      exact ((ih _).trans hDrop).trans hPush

theorem standing_occurAt (fr : W32) (sl : BitVec 6) (b : Nat) (c : BitVec 12) (p0 p1 : W32) :
    standing (occurAt s fr sl b c p0 p1) = standing s := by
  unfold occurAt
  dsimp only
  rw [standing_copyTo, standing_setEvs]
  split
  · rfl
  · exact standing_recordAt s fr sl b c p0 p1

theorem standing_occur (b : Nat) (c : BitVec 12) (p0 p1 : W32) : standing (occur s b c p0 p1) = standing s :=
  standing_occurAt s _ _ b c p0 p1

end Standing

end Sys2Proof.Machine
end

section
/-! Timekeeping (chapter 02): the registers of the clock, the measurement of ticks, the states of the sources and the election
of the timekeeper. -/

namespace Sys2Proof.Machine

/-! ### Phases of frame time -/

theorem acquiring_of_running {s : State} (h : running s = true) : acquiring s = false := by
  simp only [running, live, Bool.and_eq_true, decide_eq_true_eq, Bool.not_eq_true'] at h
  simp [acquiring, live, h.1, h.2]

theorem live_of_running {s : State} (h : running s = true) : live s = true := by
  simp only [running, Bool.and_eq_true] at h
  exact h.1

theorem running_of_atBoundary {s : State} (h : atBoundary s = true) : running s = true := by
  simp only [atBoundary, Bool.and_eq_true] at h
  simp [running, h.1.1.1, h.1.1.2]

theorem atBoundary_of_mayElect {s : State} (h : mayElect s = true) : atBoundary s = true := by
  simp only [mayElect, Bool.and_eq_true] at h
  exact h.1.1.1

/-! ### Sources -/

@[simp] theorem srcOf_setSrc_self (s : State) (k : Nat) (v : Src) : srcOf (setSrc s k v) k = v := by simp [srcOf, setSrc]

theorem srcOf_setSrc_ne (s : State) {k j : Nat} (v : Src) (h : j ≠ k) : srcOf (setSrc s k v) j = srcOf s j := by
  simp [srcOf, setSrc, tgetD_tset_ne _ _ _ h]

/-! ### FORCE and the source list -/

theorem writeForce_qualified {s : State} {v : W64} {key : Nat} (hGo : bit v 7 = true)
    (hKey : qualifiedEntry s (fld v 1 0) = some key) : writeForce s v = { s with clk := { s.clk with
      forceReq := some { entry := BitVec.ofNat 2 (fld v 1 0), node := keyNode s key } } } := by
  simp only [writeForce, hGo, hKey]

theorem writeForce_ignored {s : State} {v : W64} (h : bit v 7 = false ∨ qualifiedEntry s (fld v 1 0) = none) :
    writeForce s v = s := by
  unfold writeForce
  dsimp only
  split
  next key hGo hKey =>
    rcases h with h | h
    · exact absurd (hGo.symm.trans h) (by decide)
    · exact absurd (hKey.symm.trans h) (by simp)
  · rfl

theorem regMask_sourceList (n : BitVec 2) : regMask blkCLK (0x80 + 8 * n.toNat) = 0xF7 := by
  have hRun : inRun (0x80 + 8 * n.toNat) 0x80 4 = true := by
    have := n.isLt
    simp only [inRun, Bool.and_eq_true, decide_eq_true_eq]
    omega
  exact if_pos hRun

/-- Settles O12: the two branches of `writeForce`; the source list is stored under its mask. -/
theorem forceAndSourceList : Obligations.ForceAndSourceList := by
  intro s w v
  refine ⟨fun hMay => ?_, fun n hMay => ?_⟩
  · have hExec : exec (.force w v) s = .next (writeForce s v) := next_congr (guardedWrite_of_mayWrite _ _ hMay)
    rw [hExec]
    exact ⟨fun key hGo hKey => next_congr (writeForce_qualified hGo hKey), fun h => next_congr (writeForce_ignored h)⟩
  · refine ⟨writeSource s n.toNat v, next_congr (guardedWrite_of_mayWrite _ _ hMay), ?_, rfl, regsBut_regStore s _ _ v⟩
    have hStored : regGet (writeSource s n.toNat v) blkCLK (0x80 + 8 * n.toNat) =
        (v &&& regMask blkCLK (0x80 + 8 * n.toNat)) ||| (regGet s blkCLK (0x80 + 8 * n.toNat) &&& ~~~ regMask blkCLK (0x80 + 8 * n.toNat)) :=
      regGet_regSet_self s _ _ _
    rwa [regMask_sourceList] at hStored

/-! ### Ticks -/

section Ticks

variable {pll : Int} {v : Src} {sequence : Byte} {interval count : Nat} (hGood : v.faulty = 0)
  (hNext : v.lastSeq = some (sequence - 1)) (hCount : 0 < count)

include hGood hNext hCount

/-- A tick in sequence of a source that is not FAULTY gives it an offset and makes it usable (R37). -/
theorem measure_usable (hIn : tickOut interval count = false) :
    (measure true pll v sequence interval count).offset = tickOffset interval count ∧
      (measure true pll v sequence interval count).usable = true ∧
      (measure true pll v sequence interval count).heard = true ∧
      (measure true pll v sequence interval count).lastSeq = some sequence := by
  simp [measure, hGood, hNext, hCount, hIn]

/-- More than 1000 ppm apart from the core's own count makes the source FAULTY for 16 frames (R38). -/
theorem measure_faulty (hOut : tickOut interval count = true) :
    (measure true pll v sequence interval count).state = .faulty ∧ (measure true pll v sequence interval count).faulty = 16 ∧
      (measure true pll v sequence interval count).usable = false := by
  simp [measure, hGood, hNext, hCount, hOut]

end Ticks

/-- What a tick in frame time may touch: its own source's measurement, and holdover, which it may end (R58). -/
theorem tickRunning_cases (s : State) (rx : Rx) (sequence : Byte) (interval count : Nat) :
    ∃ (v : Src) (c : Clk), tickRunning s rx sequence interval count = { s with clk := { c with srcs := tset s.clk.srcs (srcKey rx.node) v } } ∧
      c.tk = s.clk.tk ∧ c.drain = s.clk.drain ∧
      ∃ st, v = { measure true s.clk.pll (srcOf s (srcKey rx.node)) sequence interval count with state := st } ∧
        (v.usable = false → st = (measure true s.clk.pll (srcOf s (srcKey rx.node)) sequence interval count).state) := by
  unfold tickRunning
  dsimp only
  split
  next h => exact ⟨_, endHoldover s.clk, rfl, rfl, rfl, .timekeeper, rfl, fun hNo => absurd (h.1.symm.trans hNo) (by decide)⟩
  · exact ⟨_, s.clk, rfl, rfl, rfl, _, rfl, fun _ => rfl⟩

/-- A heeded tick that passes to its reader is measured; the link of a joined host hears its LACK (R116). -/
theorem exec_tick_heeded {s r : State} {rx : Rx} (sequence : Byte) (interval count : W32) (hRun : running s = true)
    (hPass : receiveAB s rx true = (r, true)) (hHeeded : tickHeeded s rx = true) :
    ∃ l, exec (.tick rx sequence interval count) s =
      .next { tickRunning r rx sequence interval.toNat count.toNat with links := l } := by
  have hExec : exec (.tick rx sequence interval count) s = .next
      (if isJoined (nodeSt (segAB (tickRunning r rx sequence interval.toNat count.toNat) rx.seg) (nodeIdx rx.node))
        then takeUnsequenced (tickRunning r rx sequence interval.toNat count.toNat) rx
        else tickRunning r rx sequence interval.toNat count.toNat) := by
    refine next_congr ?_
    simp only [acquiring_of_running hRun, hHeeded, hPass, Bool.false_eq_true, Bool.not_true, if_false, if_true]
  rw [hExec]
  split
  · exact ⟨_, rfl⟩
  · exact ⟨(tickRunning r rx sequence interval.toNat count.toNat).links, rfl⟩

/-- In acquisition a tick that no listed entry matches changes nothing (R44). -/
theorem exec_tick_unheeded {s : State} {rx : Rx} (sequence : Byte) (interval count : W32) (hAcq : acquiring s = true)
    (hNo : tickHeeded s rx = false) : exec (.tick rx sequence interval count) s = .next s := by
  refine next_congr ?_
  simp only [hAcq, hNo, Bool.false_eq_true, if_false, if_true]

/-- Settles O13: a heeded tick sets its own source to what `measure` gives. -/
theorem ticksAreMeasured : Obligations.TicksAreMeasured := by
  refine ⟨⟨fun s rx q i n hAcq hNo => exec_tick_unheeded q i n hAcq hNo, ?_⟩, ?_⟩
  · intro s r rx q i n hRun _ hPass hHeeded hGood hNext hCount hIn
    obtain ⟨hOffset, hUsable, hHeard, hLast⟩ :=
      measure_usable (pll := r.clk.pll) (interval := i.toNat) hGood hNext hCount hIn
    obtain ⟨l, hExec⟩ := exec_tick_heeded q i n hRun hPass hHeeded
    obtain ⟨v, c, hTick, hTk, hDrain, st, hv, -⟩ := tickRunning_cases r rx q i.toNat n.toNat
    rw [hExec, hTick]
    refine ⟨_, rfl, ?_, ?_, ?_, ?_, fun k hk => tgetD_tset_ne _ _ _ hk, rfl, hTk, hDrain⟩ <;>
      simp only [srcOf, tgetD_tset_self, hv]
    · exact hOffset
    · exact hUsable
    · exact hHeard
    · exact hLast
  · intro s r rx q i n hRun _ hPass hHeeded hGood hNext hCount hOut
    obtain ⟨hState, hSixteen, hUnusable⟩ :=
      measure_faulty (pll := r.clk.pll) (interval := i.toNat) hGood hNext hCount hOut
    obtain ⟨l, hExec⟩ := exec_tick_heeded q i n hRun hPass hHeeded
    obtain ⟨v, c, hTick, hTk, hDrain, st, hv, hst⟩ := tickRunning_cases r rx q i.toNat n.toNat
    have hSt : st = .faulty := (hst (by rw [hv]; exact hUnusable)).trans hState
    rw [hExec, hTick]
    refine ⟨_, rfl, ?_, ?_, ?_, fun k hk => tgetD_tset_ne _ _ _ hk, rfl⟩ <;> simp only [srcOf, tgetD_tset_self, hv]
    · exact hSt
    · exact hSixteen
    · exact hUnusable

/-! ### The forwarded clock and the states of the sources -/

/-- Losing the forwarded clock that is timekeeper begins holdover (R40, R56). -/
theorem execForwardedClockLost_keeper {s : State} (hRun : running s = true) (hCki : s.clk.cki = true) (hDrain : s.clk.drain = false)
    (hHold : s.clk.holdover = false) (hKeeper : tkIsC s.clk = true) :
    execForwardedClockLost s = .next (enterHoldover
      (setSrc { s with clk := { s.clk with cki := false, ckiLocked := false } } 64 { srcOf s 64 with heard := false, usable := false })) := by
  have hAcq : acquiring (setSrc { s with clk := { s.clk with cki := false, ckiLocked := false } } 64
      { srcOf s 64 with heard := false, usable := false }) = false := acquiring_of_running hRun
  refine next_congr ?_
  simp only [hCki, if_true, hAcq, Bool.false_eq_true, if_false]
  refine if_pos ⟨live_of_running hRun, ?_, ?_, hKeeper⟩
  · show (!s.clk.drain) = true
    rw [hDrain]; rfl
  · show (!s.clk.holdover) = true
    rw [hHold]; rfl

/-- Losing it while another source is timekeeper, or in acquisition none, changes only its own measurement (R40). -/
theorem execForwardedClockLost_other {s : State} (hRun : running s = true) (hCki : s.clk.cki = true)
    (hOther : tkIsC s.clk = false) :
    execForwardedClockLost s = .next { s with clk := { s.clk with
      cki := false, ckiLocked := false, srcs := tset s.clk.srcs 64 { srcOf s 64 with heard := false, usable := false } } } := by
  have hAcq : acquiring (setSrc { s with clk := { s.clk with cki := false, ckiLocked := false } } 64
      { srcOf s 64 with heard := false, usable := false }) = false := acquiring_of_running hRun
  refine next_congr ?_
  simp only [hCki, if_true, hAcq, Bool.false_eq_true, if_false]
  refine if_neg fun h => ?_
  obtain ⟨-, -, -, hKeeper⟩ := h
  exact absurd ((show tkIsC s.clk = true from hKeeper).symm.trans hOther) (by decide)

theorem execForwardedClockLock_running {s : State} (hRun : running s = true) :
    execForwardedClockLock s = .next { s with clk := { s.clk with cki := true, ckiLocked := true } } := by
  have hAcq : acquiring { s with clk := { s.clk with cki := true, ckiLocked := true } } = false := acquiring_of_running hRun
  refine next_congr ?_
  rw [if_pos (.inr (live_of_running hRun))]
  simp only [hAcq, Bool.false_eq_true, false_and, if_false]

theorem execFaultyExpiry_due {s : State} {node : BitVec 6} (hState : (srcOf s (srcKey node)).state = .faulty)
    (hOver : (srcOf s (srcKey node)).faulty = 0 ∨ acquiring s = true) :
    execFaultyExpiry node s = .next (setSrc s (srcKey node) { srcOf s (srcKey node) with
      state := if (srcOf s (srcKey node)).silent < 2 then .heard else .absent, faulty := 0, comps := [], lastSeq := none }) :=
  next_congr (if_pos ⟨hState, hOver⟩)

theorem noteQualified_due {s : State} {key n : Nat} (hEntry : entryOf s key = some n) (hNew : newlyQualified (srcOf s key) = true)
    (hOther : isKeeper s.clk key = false) :
    noteQualified s key = occur (setSrc s key { srcOf s key with state := .qualified, qualFor := 0 }) blkCLK 0x008 (put32 n 2 0) 0 := by
  simp only [noteQualified, hEntry, hNew, hOther, Bool.not_false, Bool.and_true, if_true]

/-- A source that has not just become QUALIFIED is not noted. -/
theorem noteQualified_of_not {s : State} {key : Nat} (h : newlyQualified (srcOf s key) = false) : noteQualified s key = s := by
  unfold noteQualified
  dsimp only
  split
  · simp only [h, Bool.false_and, Bool.false_eq_true, if_false]
  · rfl

/-- Settles O14: each event of a source by the branch of its command. -/
theorem clockSourcesChange : Obligations.ClockSourcesChange := by
  refine ⟨fun s hRun => ⟨fun hCki hDrain hHold hKeeper => ?_, fun hCki hOther => execForwardedClockLost_other hRun hCki hOther,
    execForwardedClockLock_running hRun⟩, fun s node => ⟨fun hState hOver => ?_, fun n hEntry hState hGood hOther => ?_,
    fun hBoundary => ?_⟩⟩
  · exact ⟨_, execForwardedClockLost_keeper hRun hCki hDrain hHold hKeeper, rfl, rfl, rfl, rfl, rfl, hDrain⟩
  · refine ⟨_, execFaultyExpiry_due hState hOver, ?_, ?_, ?_, fun k hk => srcOf_setSrc_ne s _ hk, rfl⟩ <;> rw [srcOf_setSrc_self]
  · have hNew : newlyQualified (srcOf s (srcKey node)) = true := by simp [newlyQualified, hState, hGood]
    exact next_congr (noteQualified_due hEntry hNew hOther)
  · have hExec : exec .sourceDemotion s = .next { s with clk := { s.clk with
        srcs := s.clk.srcs.filter fun e => (entryOf s e.1).isSome
        tk := s.clk.tk.map fun k => match entryOf s (srcKey k.node) with
          | some n => { k with entry := BitVec.ofNat 2 n }
          | none => k
        listDirty := false } } := next_congr (if_neg (by rw [hBoundary]; decide))
    refine ⟨_, hExec, rfl, rfl, ?_, rfl⟩
    dsimp only
    rw [Option.map_map]
    congr 1
    funext k
    dsimp only [Function.comp]
    split <;> rfl

/-! ### Acquisition, switch, revert, force -/

section Choice

variable {s : State} (hAcq : acquiring s = true) (hWindow : s.clk.window = true)

include hAcq hWindow

theorem execAcquisitionWindowEnd_heard {n key : Nat} (hHeard : firstHeard s = some n) (hStands : entryStands s n = some key) :
    execAcquisitionWindowEnd s = .next (tryLock { s with clk := { s.clk with
      window := false, chosen := some { entry := BitVec.ofNat 2 n, node := keyNode s key } } }) := by
  refine next_congr ?_
  rw [if_pos ⟨hAcq, hWindow⟩]
  simp only [hHeard, hStands]

theorem execAcquisitionWindowEnd_silent (hHeard : firstHeard s = none) :
    execAcquisitionWindowEnd s = .next { s with clk := { s.clk with window := false } } := by
  refine next_congr ?_
  rw [if_pos ⟨hAcq, hWindow⟩]
  simp only [hHeard]

end Choice

/-- A chosen source that is not ready is not locked to (R48). -/
theorem tryLock_notReady {s : State} {k : Keeper} (hChosen : s.clk.chosen = some k)
    (hC : onSeg .c k.node = true → s.clk.ckiLocked = false)
    (hAB : onSeg .c k.node = false → agreed (srcOf s (srcKey k.node)).comps = none) : tryLock s = s := by
  unfold tryLock
  rw [hChosen]
  cases hOn : onSeg .c k.node with
  | true => simp only [hOn, if_true, hC hOn, Bool.false_eq_true, if_false]
  | false => simp only [hOn, Bool.false_eq_true, if_false, hAB hOn]

/-- Noting a source QUALIFIED touches the sources of the clock, and what recording touches. -/
theorem noteQualified_cases (s : State) (key : Nat) :
    ∃ u, noteQualified s key = u ∧ u.segC = s.segC ∧ ∃ l, u.clk = { s.clk with srcs := l } := by
  refine ⟨_, rfl, ?_⟩
  unfold noteQualified
  dsimp only
  split
  · split
    · rw [occur_eq]
      exact ⟨rfl, _, rfl⟩
    · exact ⟨rfl, s.clk.srcs, rfl⟩
  · exact ⟨rfl, s.clk.srcs, rfl⟩

/-- A switch: no step of the PLL, the new timekeeper by its entry and node, and SWITCHOVER with both entries (R53). -/
theorem switchTo_spec (s : State) (n key : Nat) :
    ∃ c, switchTo s n key = occur { noteQualified s key with clk := c } blkCLK 0x005
        (BitVec.ofNat 32 ((s.clk.tk.map (·.entry.toNat)).getD 0)) (BitVec.ofNat 32 n) ∧
      c.tk = some ⟨BitVec.ofNat 2 n, keyNode s key⟩ ∧ c.pll = s.clk.pll ∧ c.holdover = false ∧ c.switched = true ∧
      c.forceReq = s.clk.forceReq := by
  obtain ⟨u, hNoted, hSegC, l, hClk⟩ := noteQualified_cases s key
  have hNode : keyNode u key = keyNode s key := by simp only [keyNode, cNode, hSegC]
  refine ⟨{ enthrone u.clk n (keyNode u key) with switched := true }, ?_, ?_, ?_, rfl, rfl, ?_⟩
  · simp only [switchTo, hNoted]
  · rw [hNode]
    rfl
  · show u.clk.pll = s.clk.pll
    rw [hClk]
  · show u.clk.forceReq = s.clk.forceReq
    rw [hClk]

/-- The state with its FORCE forgotten. -/
def withoutForce (s : State) : State := { s with clk := { s.clk with forceReq := none } }

/-- Noting a source QUALIFIED does not look at the FORCE. -/
theorem noteQualified_withoutForce (s : State) (key : Nat) :
    noteQualified (withoutForce s) key = withoutForce (noteQualified s key) := by
  have hEntry : entryOf (withoutForce s) key = entryOf s key := rfl
  have hSrc : srcOf (withoutForce s) key = srcOf s key := rfl
  have hKeeper : isKeeper (withoutForce s).clk key = isKeeper s.clk key := rfl
  unfold noteQualified
  rw [hEntry, hSrc, hKeeper]
  cases entryOf s key with
  | none => rfl
  | some n =>
    dsimp only
    split
    · have hNotes := occur_withNotesOf (withoutForce (setSrc s key { srcOf s key with state := .qualified, qualFor := 0 }))
        (setSrc s key { srcOf s key with state := .qualified, qualFor := 0 }) blkCLK 0x008 (put32 n 2 0) 0
      refine Eq.trans hNotes ?_
      rw [occur_eq]
      rfl
    · rfl

theorem exec_forceSwitch_due {s : State} {n key : Nat} (hElect : mayElect s = true) (hForce : forceEntry s = some (n, key)) :
    exec .forceSwitch s = .next (switchTo (withoutForce s) n key) := by
  refine next_congr ?_
  rw [if_neg (by rw [atBoundary_of_mayElect hElect]; decide)]
  simp only [hForce, hElect, if_true]
  rfl

/-- Settles O15: the window's end by what is heard and ready, the election by `switchTo`. -/
theorem timekeepersAreChosen : Obligations.TimekeepersAreChosen := by
  refine ⟨fun s hAcq hWindow => ⟨fun n key hHeard hStands hC hAB => ?_,
      fun hHeard => execAcquisitionWindowEnd_silent hAcq hWindow hHeard⟩,
    fun s n key hElect => ⟨fun hNoForce hSwitch => ?_, fun hNoForce hNoSwitch hRevert => ?_, fun hForce => ?_⟩,
    fun s hBoundary hNoForce => ?_, fun s key h => noteQualified_of_not h⟩
  · rw [show exec .acquisitionWindowEnd s = _ from execAcquisitionWindowEnd_heard hAcq hWindow hHeard hStands]
    exact next_congr (tryLock_notReady rfl hC hAB)
  · have hExec : exec .timekeeperSwitch s = .next (switchTo s n key) := by
      refine next_congr ?_
      rw [if_pos ⟨hElect, by rw [hNoForce]; rfl⟩]
      simp only [hSwitch]
    obtain ⟨c, hTo, hTk, hPll, hHold, hSwitched, -⟩ := switchTo_spec s n key
    exact ⟨c, hExec.trans (next_congr hTo), hTk, hPll, hHold, hSwitched⟩
  · have hExec : exec .timekeeperRevert s = .next (switchTo s n key) := by
      refine next_congr ?_
      rw [if_pos ⟨hElect, by rw [hNoForce]; rfl, by rw [hNoSwitch]; rfl⟩]
      simp only [hRevert]
    obtain ⟨c, hTo, hTk, hPll, hHold, hSwitched, -⟩ := switchTo_spec s n key
    exact ⟨c, hExec.trans (next_congr hTo), hTk, hPll, hHold, hSwitched⟩
  · obtain ⟨c, hTo, hTk, hPll, hHold, hSwitched, hForgotten⟩ := switchTo_spec (withoutForce s) n key
    rw [noteQualified_withoutForce] at hTo
    exact ⟨c, (exec_forceSwitch_due hElect hForce).trans (next_congr hTo), hTk, hPll, hHold, hSwitched, hForgotten⟩
  · refine next_congr ?_
    rw [if_neg (by rw [hBoundary]; decide)]
    simp only [hNoForce]

end Sys2Proof.Machine
end

section
/-! What ends of entries and stops of the flash leave alone: the state without the fields they may touch stays the same. -/

namespace Sys2Proof.Machine

/-- A fold of steps that keep `p` keeps `p`. -/
theorem foldl_kept {α : Type} {β : Sort _} (p : State → β) (g : State → α → State) (hg : ∀ u a, p (g u a) = p u) (l : List α)
    (u : State) : p (l.foldl g u) = p u := by
  induction l generalizing u with
  | nil => rfl
  | cons a t ih => exact (ih (g u a)).trans (hg u a)

/-! ### Queues -/

/-- The state without queues, memory, and what an occurrence or a violation touches. -/
def outsideQueues (s : State) : State :=
  { s with
    entries := [], sqs := [], cqs := [], mem := [], badMem := [], perr := [], lastErr := 0, recorder := {}, hdrs := []
    conns := [], evDrop := 0, epochs := [], guarCnt := 0, lateCnt := 0 }

section Queues

variable (s : State)

@[simp] theorem outsideQueues_occurAt (fr : W32) (sl : BitVec 6) (b : Nat) (c : BitVec 12) (p0 p1 : W32) :
    outsideQueues (occurAt s fr sl b c p0 p1) = outsideQueues s := by rw [occurAt_eq]; rfl

@[simp] theorem outsideQueues_occur (b : Nat) (c : BitVec 12) (p0 p1 : W32) :
    outsideQueues (occur s b c p0 p1) = outsideQueues s := outsideQueues_occurAt s _ _ b c p0 p1

@[simp] theorem outsideQueues_occurRing (b : Nat) (d : Dom) (c : BitVec 12) (p0 p1 : W32) :
    outsideQueues (occurRing s b d c p0 p1) = outsideQueues s := by
  rw [(occurRing_onlyNoted s b d c p0 p1).eq_noteFields]; rfl

@[simp] theorem outsideQueues_copyTo (kind : Byte) (b : Nat) (c : BitVec 12) (p0 p1 : W32) (l : List Nat) :
    outsideQueues (copyTo s kind b c p0 p1 l) = outsideQueues s := by
  rw [(copyTo_onlyNoted s kind b c p0 p1 l).eq_noteFields]; rfl

@[simp] theorem outsideQueues_violate (d : Dom) (v : Viol) (o : Origin) : outsideQueues (violate s d v o) = outsideQueues s :=
  outsideQueues_occur _ blkDOM 0x206 _ _

@[simp] theorem outsideQueues_noteFailing (kind : Nat) (l : List Nat) : outsideQueues (noteFailing s kind l) = outsideQueues s :=
  foldl_kept outsideQueues (fun u w => noteParity u kind w (failMask l w)) (fun _ _ => outsideQueues_occur _ blkBUF 0x801 _ _) _ s

theorem outsideQueues_memSet (a : Nat) (b : Byte) : outsideQueues (memSet s a b) = outsideQueues s := by
  unfold memSet; split <;> rfl

@[simp] theorem outsideQueues_memWrite (a : Nat) (l : List Byte) : outsideQueues (memWrite s a l) = outsideQueues s := by
  induction l generalizing s a with
  | nil => rfl
  | cons b t ih => exact (ih (memSet s a b) (a + 1)).trans (outsideQueues_memSet s a b)

@[simp] theorem outsideQueues_setEntry (e : Entry) : outsideQueues (setEntry s e) = outsideQueues s := rfl

@[simp] theorem outsideQueues_leaveFlight (r : EntryRef) : outsideQueues (leaveFlight s r) = outsideQueues s := rfl

@[simp] theorem outsideQueues_endEntry (r : EntryRef) (st : Byte) (x : W32) :
    outsideQueues (endEntry s r st x) = outsideQueues s := by
  unfold endEntry; split
  · rfl
  · split <;> rfl

@[simp] theorem outsideQueues_idleCheck (n : Nat) : outsideQueues (idleCheck s n) = outsideQueues s := by
  unfold idleCheck; split
  · rfl
  · split
    · exact outsideQueues_occurRing _ _ _ _ _ _
    · rfl

@[simp] theorem outsideQueues_testWaits (n : Nat) : outsideQueues (testWaits s n) = outsideQueues s := by
  refine foldl_kept outsideQueues _ (fun u e => ?_) _ s
  dsimp only
  split
  · rfl
  · split
    · exact outsideQueues_endEntry _ _ _ _
    · rfl

@[simp] theorem outsideQueues_countGuarantee (x : Compl) (e : Entry) : outsideQueues (countGuarantee s x e) = outsideQueues s := by
  unfold countGuarantee
  dsimp only
  split
  · rfl
  · split
    · exact outsideQueues_occur _ _ _ _ _
    · rfl

@[simp] theorem outsideQueues_complWritten (q : Nat) (c : Cq) (x : Compl) :
    outsideQueues (complWritten s q c x) = outsideQueues s := by
  unfold complWritten
  cases x.ref with
  | none =>
    dsimp only
    rw [outsideQueues_idleCheck, outsideQueues_testWaits, apply_ite outsideQueues, outsideQueues_copyTo, ite_self]
    rfl
  | some r =>
    dsimp only
    rw [outsideQueues_idleCheck, outsideQueues_testWaits, outsideQueues_leaveFlight, apply_ite outsideQueues,
      outsideQueues_copyTo, ite_self]
    split
    · rfl
    · exact outsideQueues_countGuarantee _ _ _

@[simp] theorem outsideQueues_noteFull (q : Nat) (c : Cq) (p : Bool) : outsideQueues (noteFull s q c p) = outsideQueues s := by
  unfold noteFull; split
  · rfl
  · exact outsideQueues_occurRing _ _ _ _ _ _

@[simp] theorem outsideQueues_writeFirst (q : Nat) : outsideQueues (writeFirst s q).1 = outsideQueues s := by
  unfold writeFirst
  cases tget s.cqs q with
  | none => rfl
  | some c =>
    dsimp only
    cases c.held with
    | nil => rfl
    | cons x l =>
      dsimp only
      split
      · simp
      · split
        · simp
        · split
          · simp
          · split <;> simp

@[simp] theorem outsideQueues_drainCq (q k : Nat) : outsideQueues (drainCq s q k) = outsideQueues s := by
  induction k generalizing s with
  | zero => rfl
  | succ k ih =>
    have hFirst := outsideQueues_writeFirst s q
    unfold drainCq
    split
    next u h => rw [h] at hFirst; exact (ih u).trans hFirst
    next u h =>
      rw [h] at hFirst
      split
      · exact hFirst
      · split <;> exact hFirst

@[simp] theorem outsideQueues_retryCq (q : Nat) : outsideQueues (retryCq s q) = outsideQueues s := by
  unfold retryCq; split
  · rfl
  · exact outsideQueues_drainCq s q _

@[simp] theorem outsideQueues_readyCompl (x : Compl) : outsideQueues (readyCompl s x) = outsideQueues s := by
  unfold readyCompl
  dsimp only
  split
  · rfl
  · exact outsideQueues_retryCq _ _

@[simp] theorem outsideQueues_batchCheck (n : Nat) : outsideQueues (batchCheck s n) = outsideQueues s := by
  unfold batchCheck; split
  · rfl
  · split
    · rfl
    · exact outsideQueues_readyCompl _ _

@[simp] theorem outsideQueues_completeEntry (e : Entry) : outsideQueues (completeEntry s e) = outsideQueues s := by
  unfold completeEntry
  dsimp only
  split
  · simp
  · split
    · simp only [outsideQueues_idleCheck, outsideQueues_batchCheck]; rfl
    · simp only [outsideQueues_batchCheck, outsideQueues_readyCompl]; rfl

@[simp] theorem outsideQueues_completeAll : outsideQueues (completeAll s) = outsideQueues s :=
  foldl_kept outsideQueues _ (fun u e => outsideQueues_completeEntry u e) _ s

@[simp] theorem outsideQueues_conclude (r : EntryRef) : outsideQueues (conclude s r) = outsideQueues s := by
  unfold conclude
  cases entryOf? s r with
  | none => rfl
  | some e =>
    dsimp only
    split
    · rfl
    · split
      · rfl
      · rw [outsideQueues_endEntry]
        split
        · exact outsideQueues_occur _ _ _ _ _
        · rfl

@[simp] theorem outsideQueues_abortEntry (e : Entry) (st : Byte) : outsideQueues (abortEntry s e st) = outsideQueues s := by
  unfold abortEntry
  dsimp only
  split
  · rfl
  · split
    · split <;> simp
    · simp

@[simp] theorem outsideQueues_abortOp (o : ArrayOp) (st : Byte) : outsideQueues (abortOp s o st) = outsideQueues s := by
  unfold abortOp
  cases o.owner with
  | none => rfl
  | some r =>
    dsimp only
    cases entryOf? s r.ref with
    | none => rfl
    | some e =>
      dsimp only
      split
      · exact outsideQueues_conclude _ _
      · exact outsideQueues_abortEntry _ _ _

@[simp] theorem outsideQueues_abortChannel (c : Nat) (st : Byte) : outsideQueues (abortChannel s c st) = outsideQueues s := by
  unfold abortChannel
  refine foldl_kept outsideQueues _ (fun u e => ?_) _ s
  exact foldl_kept outsideQueues _ (fun v o => outsideQueues_abortOp v o st) _ u

@[simp] theorem outsideQueues_loseEntry (e : Entry) : outsideQueues (loseEntry s e) = outsideQueues s := by
  unfold loseEntry
  dsimp only
  rw [outsideQueues_idleCheck, outsideQueues_batchCheck]
  rfl

@[simp] theorem outsideQueues_abortAll : outsideQueues (abortAll s) = outsideQueues s := by
  unfold abortAll
  dsimp only
  refine (foldl_kept outsideQueues _ (fun u e => ?_) _ _).trans (foldl_kept outsideQueues _ outsideQueues_loseEntry _ s)
  split
  · rfl
  · exact outsideQueues_abortEntry _ _ _

@[simp] theorem outsideQueues_dropGuarantees : outsideQueues (dropGuarantees s) = outsideQueues s := rfl

end Queues

/-! ### Queues and flash -/

/-- The state without queues, channels and sequencers, and what has been shown. -/
def outsideFlash (s : State) : State := { outsideQueues s with fchs := [], seqs := [], out := [] }

theorem outsideFlash_of_outsideQueues {s t : State} (h : outsideQueues t = outsideQueues s) : outsideFlash t = outsideFlash s :=
  congrArg (fun u : State => { u with fchs := [], seqs := [], out := [] }) h

section Flash

variable (s : State)

@[simp] theorem outsideFlash_stopChannel (c : Nat) : outsideFlash (stopChannel s c) = outsideFlash s := by
  unfold stopChannel
  dsimp only
  split <;> split <;> (try split) <;> rfl

@[simp] theorem outsideFlash_resumeLun (l : Nat) : outsideFlash (resumeLun s l) = outsideFlash s := by
  unfold resumeLun
  dsimp only
  split <;> rfl

@[simp] theorem outsideFlash_resumeAll : outsideFlash (resumeAll s) = outsideFlash s := by
  unfold resumeAll
  refine foldl_kept outsideFlash _ (fun u l => ?_) _ s
  split
  · exact outsideFlash_resumeLun u l
  · rfl

@[simp] theorem outsideFlash_abortChannel (c : Nat) (st : Byte) : outsideFlash (abortChannel s c st) = outsideFlash s :=
  outsideFlash_of_outsideQueues (outsideQueues_abortChannel s c st)

@[simp] theorem outsideFlash_abortAll : outsideFlash (abortAll s) = outsideFlash s :=
  outsideFlash_of_outsideQueues (outsideQueues_abortAll s)

@[simp] theorem outsideFlash_completeAll : outsideFlash (completeAll s) = outsideFlash s :=
  outsideFlash_of_outsideQueues (outsideQueues_completeAll s)

/-- Channels aborted and stopped at once. -/
@[simp] theorem outsideFlash_stopAborting (l : List Nat) (st : Byte) :
    outsideFlash (l.foldl (fun s c => stopChannel (abortChannel s c st) c) s) = outsideFlash s :=
  foldl_kept outsideFlash _ (fun u c => (outsideFlash_stopChannel _ c).trans (outsideFlash_abortChannel u c st)) l s

@[simp] theorem outsideFlash_dropSuspended : outsideFlash (dropSuspended s) = outsideFlash s := by
  unfold dropSuspended
  refine foldl_kept outsideFlash _ (fun u c => foldl_kept outsideFlash _ (fun v e => ?_) _ u) _ s
  split
  · rfl
  next o _ =>
    refine Eq.trans ?_ (outsideFlash_of_outsideQueues (outsideQueues_abortOp v o stABORTED))
    rfl

end Flash

end Sys2Proof.Machine
end

section
/-! Frame time (chapters 02, 01 and 14): the boundary counts, the end of holdover drains, the drain stops frame time. -/

namespace Sys2Proof.Machine

/-! ### What a boundary leaves alone -/

/-- Memory, fuses, tenancy and entries: no part of a frame boundary touches them. -/
def acrossFrames (s : State) : List Host.Cell × Fus × Tbl Region × Tbl Extent × List Entry :=
  (s.mem, s.fus, s.regions, s.extents, s.entries)

/-- The same with the time of the part and with what recording leaves of the recorder. -/
def withinFrame (s : State) : Time × Nat × Recorder × List Host.Cell × Fus × Tbl Region × Tbl Extent × List Entry :=
  (s.now, s.frames, standing s, acrossFrames s)

section Boundary

variable (s : State)

theorem withinFrame_occurAt (fr : W32) (sl : BitVec 6) (b : Nat) (c : BitVec 12) (p0 p1 : W32) :
    withinFrame (occurAt s fr sl b c p0 p1) = withinFrame s := by
  have hStanding := standing_occurAt s fr sl b c p0 p1
  rw [occurAt_eq] at hStanding ⊢
  exact congrArg (fun r => (s.now, s.frames, r, acrossFrames s)) hStanding

theorem withinFrame_setSegAB (g : Seg) (v : SegAB) : withinFrame (setSegAB s g v) = withinFrame s := by
  cases g <;> rfl

theorem withinFrame_endFrameAB (g : Seg) : withinFrame (endFrameAB s g) = withinFrame s := by
  have hHits : ∀ l : List PendHit, withinFrame (l.foldl (fun s h => writeHit s g h) s) = withinFrame s := fun l =>
    foldl_kept withinFrame _ (fun u _ => (withinFrame_occurAt _ _ _ _ _ _ _).trans (withinFrame_setSegAB u g _)) l s
  unfold endFrameAB
  dsimp only
  rw [withinFrame_setSegAB]
  refine Eq.trans ?_ (hHits (segAB s g).pendHits)
  unfold recordBurst
  dsimp only
  split
  · exact withinFrame_occurAt _ _ _ _ _ _ _
  · rfl

theorem withinFrame_endFrameClock (cki : Option Int) : withinFrame (endFrameClock s cki) = withinFrame s := by
  have hCki : ∀ off, withinFrame (wholeFrameCki s off) = withinFrame s := by
    intro off
    unfold wholeFrameCki
    dsimp only
    split <;> rfl
  have hClock : ∀ (u : State) (c : Clk), withinFrame { u with clk := c } = withinFrame u := fun _ _ => rfl
  unfold endFrameClock
  dsimp only
  simp only [apply_ite withinFrame, hClock, ite_self]
  cases cki with
  | none => rfl
  | some off => exact hCki off

theorem withinFrame_endFrame (cki : Option Int) : withinFrame (endFrame s cki) = withinFrame s := by
  unfold endFrame
  rw [withinFrame_endFrameClock, withinFrame_endFrameAB, withinFrame_endFrameAB]

theorem withinFrame_countFrames : withinFrame (countFrames s) = withinFrame { s with recorder := countFreeze s.recorder } := by
  unfold countFrames
  dsimp only
  unfold harmlessFrame
  dsimp only
  split <;> rfl

theorem withinFrame_enterHoldover : withinFrame (enterHoldover s) = withinFrame s := withinFrame_occurAt _ _ _ _ _ _ _

theorem withinFrame_checkHoldover : withinFrame (checkHoldover s) = withinFrame s := by
  unfold checkHoldover
  split
  · exact withinFrame_enterHoldover s
  · rfl

theorem withinFrame_composeTile (t i : Nat) (d : List Byte) : withinFrame (composeTile s t i d) = withinFrame s := rfl

theorem withinFrame_composeHealth (p : Nat) : withinFrame (composeHealth s p) = withinFrame s := by
  unfold composeHealth
  dsimp only
  split <;> rfl

theorem withinFrame_noteRecord (q : W32) : withinFrame (noteRecord s q) = withinFrame s := by
  unfold noteRecord
  split
  · rfl
  · split
    · rfl
    · exact withinFrame_occurAt _ _ _ _ _ _ _

theorem withinFrame_mirrorOne (q : W32) : withinFrame (mirrorOne s q) = withinFrame s :=
  withinFrame_noteRecord (writeMirrorSlot s (if s.tag.count = 0 then 0 else (s.tag.newest + 1) % 96) (recBytes s q)) q

theorem withinFrame_composeMirror : withinFrame (composeMirror s) = withinFrame s := by
  unfold composeMirror
  dsimp only
  rw [withinFrame_composeTile]
  refine (foldl_kept withinFrame _ withinFrame_mirrorOne _ _).trans ?_
  refine foldl_kept withinFrame _ (fun u x => ?_) _ s
  exact withinFrame_noteRecord (writeMirrorSlot u x.1 (recBytes u x.2)) x.2

theorem withinFrame_autoMirror : withinFrame (autoMirror s) = withinFrame s := by
  unfold autoMirror
  split
  · rw [withinFrame_composeHealth, withinFrame_composeMirror]
  · rfl

theorem withinFrame_sendBeacon (g : Seg) : withinFrame (sendBeacon s g) = withinFrame s := by
  have hAB : ∀ g : Seg, g ≠ .c → withinFrame (if beaconOn s g then
      setSegAB (emitBeacon (holdSlot s g 0 (airOf (charsOn g (beaconPacket g (beaconAB s g))))) g
        (beaconAB (holdSlot s g 0 (airOf (charsOn g (beaconPacket g (beaconAB s g))))) g)) g
        (giveAdvice (segAB (holdSlot s g 0 (airOf (charsOn g (beaconPacket g (beaconAB s g))))) g))
      else s) = withinFrame s := by
    intro g _
    split
    · exact (withinFrame_setSegAB _ g _).trans (withinFrame_setSegAB s g _)
    · rfl
  unfold sendBeacon
  cases g with
  | a => exact hAB .a (by decide)
  | b => exact hAB .b (by decide)
  | c =>
    dsimp only
    split <;> split <;> rfl

theorem withinFrame_sendBeacons : withinFrame (sendBeacons s) = withinFrame s := by
  unfold sendBeacons
  split
  · rfl
  · refine ((withinFrame_sendBeacon _ .c).trans (withinFrame_sendBeacon _ .b)).trans (withinFrame_sendBeacon _ .a) |>.trans ?_
    rfl

/-- Frame time after a boundary. -/
theorem withinFrame_advanceFrame : withinFrame (advanceFrame s) =
    ({ frame := nextFrame s.now.frame, slot := 0, sub := 0 }, s.frames + 1, standing s, acrossFrames s) := by
  unfold advanceFrame noteWrap
  dsimp only
  split
  · exact withinFrame_occurAt _ _ _ _ _ _ _
  · rfl

theorem withinFrame_frameBoundary (cki : Option Int) : withinFrame (frameBoundary s cki) =
    ({ frame := nextFrame s.now.frame, slot := 0, sub := 0 }, s.frames + 1, countFreeze (standing s), acrossFrames s) := by
  have hEnded := withinFrame_endFrame s cki
  have hCounted := withinFrame_countFrames (endFrame s cki)
  simp only [withinFrame, Prod.mk.injEq] at hEnded hCounted
  obtain ⟨hNow, hFrames, hStanding, hAcross⟩ := hEnded
  obtain ⟨hNow', hFrames', hStanding', hAcross'⟩ := hCounted
  unfold frameBoundary
  rw [withinFrame_sendBeacons, withinFrame_autoMirror, withinFrame_checkHoldover, withinFrame_advanceFrame, hNow'.trans hNow,
    hFrames'.trans hFrames, hStanding', ← hAcross, ← hStanding, hAcross']
  rfl

end Boundary

theorem exec_frameBoundary {s : State} (cki : Option Int) (h : running s = true) :
    exec (.frameBoundary cki) s = .next (frameBoundary s cki) := next_congr (if_pos h)

/-! ### Holdover's end and the drain -/

/-- Expired holdover begins the drain: beyond queues, flash and movers only the clock changes (R59). -/
theorem execHoldoverExpired_due {s : State} (hBoundary : atBoundary s = true) (hNoSwitch : switchDue s = false)
    (hHold : s.clk.holdover = true) (hDrain : s.clk.drain = false) (hCount : 16 ≤ s.clk.holdcnt) :
    ∃ t, execHoldoverExpired s = .next t ∧ outsideFlash t = outsideFlash { s with
      clk := { s.clk with drain := true, drainAt := cycles s, drainFrame := prevFrame s.now.frame }, movers := (stopMovers s).movers } := by
  have hDue : (atBoundary s && s.clk.holdover && !s.clk.drain && decide (16 ≤ s.clk.holdcnt) && !(switchDue s)) = true := by
    simp [hBoundary, hNoSwitch, hHold, hDrain, hCount]
  refine ⟨_, next_congr (if_pos hDue), ?_⟩
  rw [outsideFlash_resumeAll, occur_eq]
  rfl

/-- What entering the harmless state leaves of its own part (R504). -/
theorem harmlessEnter_pmu (s : State) (cause sub : Nat) (r : W32) : (harmlessEnter s cause sub r).pmu = { s.pmu with
    harm := if s.pmu.harmless then s.pmu.harm else s.pmu.harm + 1
    frames := if s.pmu.harmless then s.pmu.frames else 0
    harmless := true, causes := s.pmu.causes ||| (1#5 <<< cause)
    coolFrames := if cause = 2 then 0 else s.pmu.coolFrames
    brownFrames := if cause = 3 then 0 else s.pmu.brownFrames } := by
  unfold harmlessEnter
  dsimp only
  rw [occur_eq]
  rfl

theorem harmlessEnter_harmless (s : State) (cause sub : Nat) (r : W32) : (harmlessEnter s cause sub r).pmu.harmless = true := by
  rw [harmlessEnter_pmu]

theorem harmlessEnter_cause (s : State) {cause : Nat} (h : cause < 5) (sub : Nat) (r : W32) :
    (harmlessEnter s cause sub r).pmu.causes.getLsbD cause = true := by
  rw [harmlessEnter_pmu]
  simp [h]

theorem harmlessEnter_now (s : State) (cause sub : Nat) (r : W32) : (harmlessEnter s cause sub r).now = s.now := by
  unfold harmlessEnter
  dsimp only
  rw [occur_eq]
  rfl

theorem stopTime_sub (t : Time) : (stopTime t).sub = 6249 := by unfold stopTime; split <;> rfl

theorem now_of_outsideFlash {s t : State} (h : outsideFlash t = outsideFlash s) : t.now = s.now := (congrArg State.now h :)

theorem now_of_withinFrame {s t : State} (h : withinFrame t = withinFrame s) : t.now = s.now := (congrArg Prod.fst h :)

/-- A cut frame ends, every entry is aborted and every channel stops: the drain's end before the harmless state (R23, R60). -/
def drained (s : State) : State :=
  completeAll ((List.range 8).foldl (fun s c => stopChannel (abortChannel s c stABORTED) c) (abortAll (endFrameAB (endFrameAB s .a) .b)))

theorem drained_now (s : State) : (drained s).now = s.now := by
  have hOutside : outsideFlash (drained s) = outsideFlash (endFrameAB (endFrameAB s .a) .b) := by
    rw [drained, outsideFlash_completeAll, outsideFlash_stopAborting, outsideFlash_abortAll]
  have hFrame := (withinFrame_endFrameAB (endFrameAB s .a) .b).trans (withinFrame_endFrameAB s .a)
  exact (now_of_outsideFlash hOutside).trans (now_of_withinFrame hFrame)

/-- Two milliseconds into the drain frame time stops and the part is harmless for clock loss (R23). -/
theorem execDrainTimeout_due {s : State} (hRun : running s = true) (hDrain : s.clk.drain = true)
    (hOver : s.clk.drainAt + 800000 ≤ cycles s) :
    execDrainTimeout s = .next { harmlessEnter (drained s) 4 0 0 with
      clk := restartClock (harmlessEnter (drained s) 4 0 0).clk, now := stopTime (harmlessEnter (drained s) 4 0 0).now } := by
  have hDue : (live s && s.clk.drain && !s.clk.stopped && decide (s.clk.drainAt + 800000 ≤ cycles s)) = true := by
    simp only [running, Bool.and_eq_true] at hRun
    obtain ⟨hLive, hGoing⟩ := hRun
    simp [hLive, hGoing, hDrain, hOver]
  exact next_congr (if_pos hDue)

/-- Settles O16: what every part of a boundary leaves alone, and the two ends by their own branch. -/
theorem frameTimeRunsAndStops : Obligations.FrameTimeRunsAndStops := by
  refine ⟨fun s cki hRun => ⟨_, exec_frameBoundary cki hRun, ?_⟩, fun s hRun =>
    ⟨fun hBoundary hNoSwitch hHold hDrain hCount => ?_, fun hDrain hOver => ?_⟩⟩
  · have hAll := withinFrame_frameBoundary s cki
    simp only [withinFrame, acrossFrames, Prod.mk.injEq] at hAll
    obtain ⟨hNow, hFrames, _, hMem, hFus, hRegions, hExtents, hEntries⟩ := hAll
    refine ⟨?_, ?_, ?_, hFrames, hMem, hFus, hRegions, hExtents, hEntries⟩ <;> rw [hNow]
    rfl
  · obtain ⟨t, hExec, hOutside⟩ := execHoldoverExpired_due hBoundary hNoSwitch hHold hDrain hCount
    have hClk := congrArg State.clk hOutside
    have hNow := congrArg State.now hOutside
    exact ⟨t, hExec, (congrArg Clk.drain hClk :), (congrArg Clk.holdover hClk :).trans hHold, hNow⟩
  · refine ⟨_, execDrainTimeout_due hRun hDrain hOver, rfl, rfl, rfl, harmlessEnter_harmless _ 4 0 0,
      harmlessEnter_cause _ (by decide) 0 0, stopTime_sub _, ?_, ?_⟩
    · intro hSlot
      simp only [harmlessEnter_now, drained_now, stopTime, hSlot, if_false, and_self]
    · intro hSlot
      simp only [harmlessEnter_now, drained_now, stopTime, hSlot, if_true, true_and]
      rfl

end Sys2Proof.Machine
end

section
/-! Words and bytes: what a field of a word reads after fields were put there, and what bytes spell. -/

namespace Sys2Proof.Machine

/-! ### Fields of words -/

theorem fld_or (a b : W64) (hi lo : Nat) : fld (a ||| b) hi lo = fld a hi lo ||| fld b hi lo := by
  simp only [fld, BitVec.toNat_or, Nat.shiftRight_or_distrib, Nat.or_mod_two_pow]

@[simp] theorem fld_zero (hi lo : Nat) : fld 0 hi lo = 0 := by simp [fld]

theorem put_toNat {w lo : Nat} (v : Nat) (h : lo + w ≤ 64) : (put v w lo).toNat = (v % 2 ^ w) * 2 ^ lo := by
  have hLt : v % 2 ^ w * 2 ^ lo < 2 ^ 64 :=
    calc v % 2 ^ w * 2 ^ lo < 2 ^ w * 2 ^ lo := Nat.mul_lt_mul_of_pos_right (Nat.mod_lt _ (Nat.two_pow_pos w)) (Nat.two_pow_pos lo)
      _ = 2 ^ (lo + w) := by rw [← Nat.pow_add, Nat.add_comm]
      _ ≤ 2 ^ 64 := Nat.pow_le_pow_right (by decide) h
  rw [put, BitVec.toNat_ofNat, Nat.shiftLeft_eq, Nat.mod_eq_of_lt hLt]

/-- A field reads what was put there. -/
theorem fld_put_self {w lo hi : Nat} (v : Nat) (hFit : lo + w ≤ 64) (hHi : hi - lo + 1 = w) : fld (put v w lo) hi lo = v % 2 ^ w := by
  rw [fld, put_toNat v hFit, Nat.shiftRight_eq_div_pow, Nat.mul_div_cancel _ (Nat.two_pow_pos lo), hHi, Nat.mod_mod]

/-- A field reads nothing of one that lies below it. -/
theorem fld_put_below {w lo hi lo' : Nat} (v : Nat) (h : lo + w ≤ lo') (hFit : lo + w ≤ 64) : fld (put v w lo) hi lo' = 0 := by
  have hLt : v % 2 ^ w * 2 ^ lo < 2 ^ lo' :=
    calc v % 2 ^ w * 2 ^ lo < 2 ^ w * 2 ^ lo := Nat.mul_lt_mul_of_pos_right (Nat.mod_lt _ (Nat.two_pow_pos w)) (Nat.two_pow_pos lo)
      _ = 2 ^ (lo + w) := by rw [← Nat.pow_add, Nat.add_comm]
      _ ≤ 2 ^ lo' := Nat.pow_le_pow_right (by decide) h
  rw [fld, put_toNat v hFit, Nat.shiftRight_eq_div_pow, Nat.div_eq_of_lt hLt, Nat.zero_mod]

/-- A field reads nothing of one that lies above it. -/
theorem fld_put_above {w lo hi lo' : Nat} (v : Nat) (h : hi < lo) (hOrder : lo' ≤ hi) (hFit : lo + w ≤ 64) :
    fld (put v w lo) hi lo' = 0 := by
  have hSplit : 2 ^ lo = 2 ^ lo' * (2 ^ (hi - lo' + 1) * 2 ^ (lo - hi - 1)) := by
    rw [← Nat.pow_add, ← Nat.pow_add]
    congr 1
    omega
  have hDiv : v % 2 ^ w * 2 ^ lo / 2 ^ lo' = v % 2 ^ w * 2 ^ (lo - hi - 1) * 2 ^ (hi - lo' + 1) := by
    rw [hSplit, Nat.mul_left_comm, Nat.mul_div_cancel_left _ (Nat.two_pow_pos lo'), Nat.mul_comm (2 ^ (hi - lo' + 1)), Nat.mul_assoc]
  rw [fld, put_toNat v hFit, Nat.shiftRight_eq_div_pow, hDiv, Nat.mul_mod_left]

/-! ### Little-endian bytes -/

@[simp] theorem leBytes_length (n v : Nat) : (leBytes n v).length = n := by
  induction n generalizing v with
  | zero => rfl
  | succ n ih => simp [leBytes, ih]

theorem leNat_leBytes (n v : Nat) : leNat (leBytes n v) = v % 256 ^ n := by
  induction n generalizing v with
  | zero => simp [leBytes, leNat, Nat.mod_one]
  | succ n ih =>
    rw [leBytes, leNat, ih, BitVec.toNat_ofNat, Nat.pow_succ' (n := n), Nat.mod_mul]

/-- The bytes of a word spell it. -/
theorem leNat_leBytes_toNat {w : Nat} (n : Nat) (x : BitVec w) (h : w ≤ 8 * n) : leNat (leBytes n x.toNat) = x.toNat := by
  have hPow : (256 : Nat) ^ n = 2 ^ (8 * n) := by rw [Nat.pow_mul]
  rw [leNat_leBytes, hPow, Nat.mod_eq_of_lt (Nat.lt_of_lt_of_le x.isLt (Nat.pow_le_pow_right (by decide) h))]

/-- A field that lies past a leading part. -/
theorem fieldLE_append (a b : List Byte) (n : Nat) : fieldLE (a ++ b) a.length n = fieldLE b 0 n := by
  simp [fieldLE, slice]

theorem fieldLE_zero (a b : List Byte) : fieldLE (a ++ b) 0 a.length = leNat a := by
  simp [fieldLE, slice]

theorem bytesOf_length (ws : List W64) : (bytesOf ws).length = 8 * ws.length := by
  induction ws with
  | nil => rfl
  | cons w t ih =>
    rw [bytesOf, List.flatMap_cons, List.length_append, leBytes_length, ← bytesOf, ih, List.length_cons]
    omega

/-- Words read back from their bytes. -/
theorem wordsOf_bytesOf (ws : List W64) : wordsOf ws.length (bytesOf ws) = ws := by
  induction ws with
  | nil => rfl
  | cons w t ih =>
    have hTake : (leBytes 8 w.toNat ++ bytesOf t).take 8 = leBytes 8 w.toNat := List.take_left' (leBytes_length 8 _)
    have hDrop : (leBytes 8 w.toNat ++ bytesOf t).drop 8 = bytesOf t := List.drop_left' (leBytes_length 8 _)
    rw [bytesOf, List.flatMap_cons, ← bytesOf, List.length_cons, wordsOf, hTake, hDrop, ih,
      leNat_leBytes_toNat 8 w (by decide), BitVec.ofNat_toNat, BitVec.setWidth_eq]

end Sys2Proof.Machine
end

section
/-! Packets read back (chapter 04): header, payload and CRC as bytes, the conditions of R113, and the command of a type. -/

namespace Sys2Proof.Machine

/-! ### Header and bytes (R109, R110) -/

theorem toNat_append_eq {a b : Nat} (x : BitVec a) (y : BitVec b) : (x ++ y).toNat = x.toNat * 2 ^ b + y.toNat := by
  rw [BitVec.toNat_append, ← Nat.shiftLeft_add_eq_or_of_lt y.isLt, Nat.shiftLeft_eq]

theorem extractLsb'_toNat_div {w : Nat} (x : BitVec w) (lo n : Nat) : (x.extractLsb' lo n).toNat = x.toNat / 2 ^ lo % 2 ^ n := by
  rw [BitVec.extractLsb'_toNat, Nat.shiftRight_eq_div_pow]

theorem getLsbD_eq_of_toNat {w : Nat} {x : BitVec w} {k : Nat} {b : Bool} (h : x.toNat / 2 ^ k % 2 = b.toNat) : x.getLsbD k = b := by
  rw [BitVec.getLsbD, Nat.testBit_eq_decide_div_mod_eq, h]
  cases b <;> rfl

/-- The header as one number: each field above the ones before it. -/
theorem headerBits_toNat (h : Header) : (headerBits h).toNat =
    h.type.toNat + 2 ^ 8 * (h.ackv.toNat + 2 * (h.retx.toNat + 2 * (h.replay.toNat + 2 * (h.res11.toNat + 2 * (h.node.toNat +
      2 ^ 6 * (h.res18.toNat + 2 ^ 2 * (h.lseq.toNat + 2 ^ 8 * (h.lack.toNat + 2 ^ 8 * (h.conn.toNat + 2 ^ 10 * (h.rseq.toNat +
        2 ^ 16 * (h.len.toNat + 2 ^ 9 * (h.res71.toNat + 2 * h.arg.toNat)))))))))))) := by
  unfold headerBits
  iterate 13 rw [toNat_append_eq]
  simp only [BitVec.toNat_ofBool]
  omega

theorem headerOf_headerBits (h : Header) : headerOf (headerBits h) = h := by
  have hBits := headerBits_toNat h
  obtain ⟨type, ackv, retx, replay, res11, node, res18, lseq, lack, conn, rseq, len, res71, arg⟩ := h
  dsimp only at hBits
  have hAckv := Bool.toNat_le ackv
  have hRetx := Bool.toNat_le retx
  have hReplay := Bool.toNat_le replay
  simp only [headerOf, Header.mk.injEq]
  refine ⟨?_, getLsbD_eq_of_toNat ?_, getLsbD_eq_of_toNat ?_, getLsbD_eq_of_toNat ?_, ?_, ?_, ?_, ?_, ?_, ?_, ?_, ?_, ?_, ?_⟩
  case refine_2 | refine_3 | refine_4 => rw [hBits]; omega
  all_goals
    refine BitVec.eq_of_toNat_eq ?_
    rw [extractLsb'_toNat_div, hBits]
    omega

theorem packetOfBytes_packetBytes (p : Packet) : packetOfBytes (packetBytes p) = some p := by
  have hLong : ¬ (packetBytes p).length < 16 := by simp [packetBytes, headerBytes]
  have hTake : (packetBytes p).take 16 = leBytes 16 (headerBits p.hd).toNat := List.take_left' (leBytes_length 16 _)
  have hDrop : (packetBytes p).drop 16 = p.payload := List.drop_left' (leBytes_length 16 _)
  rw [packetOfBytes, if_neg hLong, hTake, hDrop, leNat_leBytes_toNat 16 _ (by decide), BitVec.ofNat_toNat, BitVec.setWidth_eq,
    headerOf_headerBits]

theorem crcGood_sentBytes (p : Packet) : crcGood (sentBytes p) = true := by
  have hLength : (sentBytes p).length = (packetBytes p).length + 4 := by simp [sentBytes]
  have hLong : 16 ≤ (packetBytes p).length := by simp [packetBytes, headerBytes]
  have hTake : (sentBytes p).take (packetBytes p).length = packetBytes p := List.take_left' rfl
  have hCrc : fieldLE (sentBytes p) (packetBytes p).length 4 = (crc32c (packetBytes p)).toNat := by
    rw [sentBytes, fieldLE_append, ← List.append_nil (leBytes 4 _)]
    exact (fieldLE_zero _ []).trans (leNat_leBytes_toNat 4 _ (by decide))
  rw [crcGood, hLength, Nat.add_sub_cancel, hTake, hCrc]
  simp [hLong]

/-! ### ARG -/

/-- A number of at most `k` bits uses no bit outside the lowest `k`. -/
theorem and_not_mask {w k : Nat} {x : BitVec w} (h : x.toNat < 2 ^ k) : x &&& ~~~ (BitVec.ofNat w (2 ^ k - 1)) = 0 := by
  refine BitVec.eq_of_getLsbD_eq fun i hi => ?_
  rw [BitVec.getLsbD_and, BitVec.getLsbD_not, BitVec.getLsbD_ofNat, Nat.testBit_two_pow_sub_one]
  by_cases hk : i < k
  · simp [hi, hk]
  · have hHigh : x.getLsbD i = false :=
      Nat.testBit_lt_two_pow (Nat.lt_of_lt_of_le h (Nat.pow_le_pow_right (by decide) (Nat.le_of_not_lt hk)))
    simp [hHigh]

theorem regionArg_lt (key : W32) (offset : BitVec 23) : regionArg key offset < 2 ^ 55 := by
  unfold regionArg
  omega

theorem regionArg_key (key : W32) (offset : BitVec 23) : (BitVec.ofNat 56 (regionArg key offset)).extractLsb' 0 32 = key := by
  refine BitVec.eq_of_toNat_eq ?_
  rw [extractLsb'_toNat_div, BitVec.toNat_ofNat, regionArg]
  omega

theorem regionArg_offset (key : W32) (offset : BitVec 23) :
    (BitVec.ofNat 56 (regionArg key offset)).extractLsb' 32 23 = offset := by
  refine BitVec.eq_of_toNat_eq ?_
  rw [extractLsb'_toNat_div, BitVec.toNat_ofNat, regionArg]
  omega

/-- The lowest field of ARG reads back. -/
theorem arg_low {n : Nat} (x : BitVec n) (hn : n ≤ 56) : (BitVec.ofNat 56 x.toNat).extractLsb' 0 n = x := by
  have hLt : x.toNat < 2 ^ 56 := Nat.lt_of_lt_of_le x.isLt (Nat.pow_le_pow_right (by decide) hn)
  refine BitVec.eq_of_toNat_eq ?_
  rw [extractLsb'_toNat_div, BitVec.toNat_ofNat, Nat.mod_eq_of_lt hLt, Nat.pow_zero, Nat.div_one, Nat.mod_eq_of_lt x.isLt]

/-- The bits of a doorbell's ARG are TAIL over RING, with two unused bits between. -/
theorem doorbellArg_append (ring : BitVec 6) (tail : W16) :
    BitVec.ofNat 56 (ring.toNat + 256 * tail.toNat) = 0#32 ++ (tail ++ (0#2 ++ ring)) := by
  refine BitVec.eq_of_toNat_eq ?_
  iterate 3 rw [toNat_append_eq]
  rw [BitVec.toNat_ofNat, BitVec.toNat_ofNat, BitVec.toNat_ofNat]
  omega

theorem and_not_append {a b : Nat} {x m : BitVec a} {y n : BitVec b} (hHigh : x &&& ~~~ m = 0) (hLow : y &&& ~~~ n = 0) :
    (x ++ y) &&& ~~~ (m ++ n) = 0 := by
  rw [BitVec.not_append, BitVec.and_append, hHigh, hLow]
  exact BitVec.zero_append_zero

theorem doorbellArg_used (ring : BitVec 6) (tail : W16) :
    BitVec.ofNat 56 (ring.toNat + 256 * tail.toNat) &&& ~~~ (0xFFFF3F : BitVec 56) = 0 := by
  have hMask : (0xFFFF3F : BitVec 56) = 0#32 ++ (BitVec.allOnes 16 ++ (0#2 ++ BitVec.allOnes 6)) := by decide
  rw [doorbellArg_append, hMask]
  refine and_not_append (BitVec.zero_and) (and_not_append ?_ (and_not_append (BitVec.zero_and) ?_))
  · exact (congrArg (tail &&& ·) BitVec.not_allOnes).trans BitVec.and_zero
  · exact (congrArg (ring &&& ·) BitVec.not_allOnes).trans BitVec.and_zero

/-! ### The conditions of R113 -/

/-- A request of a type that asks nothing of its payload passes when its length, its ARG and its address do. -/
theorem malformed_reqPacket {rq : Req} {t : Byte} {arg : Nat} {payload : List Byte} (hHost : hostTypes.contains t = true)
    (hRequest : isRequest t = true) (hLen : lenInRange t payload.length = true) (hFit : payload.length < 512)
    (hArg : BitVec.ofNat 56 arg &&& ~~~(argUsed t) = 0) (hAddr : addrSkew t (BitVec.ofNat 56 arg) = false)
    (hPayload : payloadBad t payload = false) : malformed (reqPacket rq t arg payload) = false := by
  have hLenField : (BitVec.ofNat 9 payload.length).toNat = payload.length := by
    rw [BitVec.toNat_ofNat, Nat.mod_eq_of_lt hFit]
  simp only [malformed, reqPacket, rxHeader, hHost, hLenField, hLen, hArg, hAddr, hPayload, hRequest]
  simp

/-- A packet without ARG, CONN and RSEQ passes when its length and its payload do. -/
theorem malformed_rxPacket {rx : Rx} {t : Byte} {n : Nat} {payload : List Byte} (hHost : hostTypes.contains t = true)
    (hLen : lenInRange t n = true) (hFit : n < 512) (hAddr : addrSkew t 0 = false) (hIs : payload.length = n)
    (hPayload : payloadBad t payload = false) : malformed { hd := rxHeader rx t n, payload := payload } = false := by
  have hLenField : (BitVec.ofNat 9 n).toNat = n := by rw [BitVec.toNat_ofNat, Nat.mod_eq_of_lt hFit]
  simp only [malformed, rxHeader, hHost, hLenField, hLen, hAddr, hPayload, hIs]
  simp

/-! ### Packets outside connections -/

/-- A packet passes R113, and its TYPE makes of it the command given. -/
def ReadsAs (rx : Rx) (count : W32) (p : Packet) (i : Instr) : Prop := malformed p = false ∧ commandOf rx count p = i

/-- The second word of an eight-byte payload. -/
theorem fieldLE_second (a b c d : Byte) (x : W32) : fieldLE ([a, b, c, d] ++ leBytes 4 x.toNat) 4 4 = x.toNat :=
  (fieldLE_append [a, b, c, d] _ 4).trans (leNat_leBytes_toNat 4 x (by decide))

section Unsequenced

variable (rx : Rx) (count : W32)

theorem tickPacket_readsAs (sequence : Byte) (interval : W32) :
    ReadsAs rx count (tickPacket rx sequence interval) (.tick rx sequence interval count) := by
  have hPasses : malformed (tickPacket rx sequence interval) = false :=
    malformed_rxPacket (by decide) (by decide) (by decide) (by decide) rfl rfl
  refine ⟨hPasses, ?_⟩
  unfold commandOf
  dsimp only
  rw [hPasses]
  simp only [tickPacket, fieldLE_second]
  simp [rxHeader, rxOf, byteAt]

theorem joinPacket_malformed {t : Byte} (ht : t = tyJOIN ∨ t = tyRANGE) (i : BitVec 4) (nonce : W32) :
    malformed (joinPacket rx t i nonce) = false := by
  obtain rfl | rfl := ht <;> exact malformed_rxPacket (by decide) (by decide) (by decide) (by decide) rfl rfl

theorem joinPacket_readsAs (i : BitVec 4) (nonce : W32) : ReadsAs rx 0 (joinPacket rx tyJOIN i nonce) (.join rx i nonce) := by
  have hPasses := joinPacket_malformed rx (.inl rfl) i nonce
  refine ⟨hPasses, ?_⟩
  unfold commandOf
  dsimp only
  rw [hPasses]
  simp only [joinPacket, fieldLE_second]
  simp [rxHeader, rxOf, byteAt, tyJOIN, tyTICK]

theorem rangePacket_readsAs (i : BitVec 4) (nonce : W32) : ReadsAs rx 0 (joinPacket rx tyRANGE i nonce) (.range rx i nonce) := by
  have hPasses := joinPacket_malformed rx (.inr rfl) i nonce
  refine ⟨hPasses, ?_⟩
  unfold commandOf
  dsimp only
  rw [hPasses]
  simp only [joinPacket, fieldLE_second]
  simp [rxHeader, rxOf, byteAt, tyJOIN, tyTICK, tyRANGE]

theorem ackPacket_readsAs : ReadsAs rx 0 (ackPacket rx) (.ack rx) := by
  have hPasses : malformed (ackPacket rx) = false := malformed_rxPacket (by decide) (by decide) (by decide) (by decide) rfl rfl
  refine ⟨hPasses, ?_⟩
  unfold commandOf
  dsimp only
  rw [hPasses]
  simp [ackPacket, rxHeader, rxOf, tyACK, tyJOIN, tyTICK, tyRANGE]

/-- Byte 8 of an OPEN: the domain, EVENTS and PIN (R124). -/
def openFlags (d : Dom) (events pin : Bool) : Byte := BitVec.ofNat 8 (d.toNat + 16 * b2n events + 32 * b2n pin)

theorem openFlags_toNat (d : Dom) (events pin : Bool) :
    (openFlags d events pin).toNat = d.toNat + 16 * events.toNat + 32 * pin.toNat := by
  rw [openFlags, BitVec.toNat_ofNat]
  cases events <;> cases pin <;> simp [b2n] <;> omega

theorem openFlags_domain (d : Dom) (events pin : Bool) : (openFlags d events pin).setWidth 4 = d := by
  refine BitVec.eq_of_toNat_eq ?_
  rw [BitVec.toNat_setWidth, openFlags_toNat]
  omega

theorem openFlags_events (d : Dom) (events pin : Bool) : (openFlags d events pin).getLsbD 4 = events :=
  getLsbD_eq_of_toNat (by have := Bool.toNat_le events; rw [openFlags_toNat]; omega)

theorem openFlags_pin (d : Dom) (events pin : Bool) : (openFlags d events pin).getLsbD 5 = pin :=
  getLsbD_eq_of_toNat (by have := Bool.toNat_le events; have := Bool.toNat_le pin; rw [openFlags_toNat]; omega)

theorem openFlags_lt (d : Dom) (events pin : Bool) : (openFlags d events pin).toNat < 64 := by
  have := Bool.toNat_le events
  have := Bool.toNat_le pin
  rw [openFlags_toNat]
  omega

theorem openPacket_readsAs (nonce key : W32) (d : Dom) (events pin : Bool) (credits : Byte) (rseq0 : W16)
    (hSome : 1 ≤ credits.toNat) (hMost : credits.toNat ≤ 64) :
    ReadsAs rx 0 (openPacket rx nonce key d events pin credits rseq0) (.openConn rx nonce key d events pin credits rseq0) := by
  have hNonce : fieldLE (openPacket rx nonce key d events pin credits rseq0).payload 0 4 = nonce.toNat :=
    leNat_leBytes_toNat 4 nonce (by decide)
  have hKey : fieldLE (openPacket rx nonce key d events pin credits rseq0).payload 4 4 = key.toNat :=
    leNat_leBytes_toNat 4 key (by decide)
  have hRseq : fieldLE (openPacket rx nonce key d events pin credits rseq0).payload 10 2 = rseq0.toNat :=
    leNat_leBytes_toNat 2 rseq0 (by decide)
  have hFlags : byteAt (openPacket rx nonce key d events pin credits rseq0).payload 8 = openFlags d events pin := rfl
  have hCredits : byteAt (openPacket rx nonce key d events pin credits rseq0).payload 9 = credits := rfl
  have hRest : fieldLE (openPacket rx nonce key d events pin credits rseq0).payload 12 4 = 0 := rfl
  have hPayload : payloadBad tyOPEN (openPacket rx nonce key d events pin credits rseq0).payload = false := by
    have hLt := openFlags_lt d events pin
    have hNonzero : credits ≠ 0#8 := by rintro rfl; exact absurd hSome (by decide)
    simp only [payloadBad, hFlags, hCredits, hRest]
    simp [tyOPEN, tyREGION_READ, hLt, hNonzero, hMost]
  have hPasses : malformed (openPacket rx nonce key d events pin credits rseq0) = false :=
    malformed_rxPacket (by decide) (by decide) (by decide) (by decide) rfl hPayload
  refine ⟨hPasses, ?_⟩
  unfold commandOf
  dsimp only
  rw [hPasses, hNonce, hKey, hRseq, hFlags, hCredits, openFlags_domain, openFlags_events, openFlags_pin]
  simp [openPacket, rxHeader, rxOf, tyOPEN, tyACK, tyJOIN, tyTICK, tyRANGE]

end Unsequenced

/-! ### Requests on connections -/

section Requests

variable (rq : Req)

theorem closePacket_readsAs : ReadsAs rq.rx 0 (reqPacket rq tyCLOSE 0 []) (.close rq) := by
  have hPasses : malformed (reqPacket rq tyCLOSE 0 []) = false :=
    malformed_reqPacket (by decide) (by decide) (by decide) (by decide) (by decide) (by decide) (by decide)
  refine ⟨hPasses, ?_⟩
  unfold commandOf
  dsimp only
  rw [hPasses]
  simp [reqPacket, rxHeader, rxOf, tyCLOSE, tyOPEN, tyACK, tyJOIN, tyTICK, tyRANGE]

theorem lenInRange_data {t : Byte} {n : Nat} (ht : t = tyREGION_WRITE ∨ t = tySEND) (h : lenWf n = true) : lenInRange t n = true := by
  obtain rfl | rfl := ht <;> exact h

theorem length_fits_of_lenWf {n : Nat} (h : lenWf n = true) : n < 512 := by
  simp only [lenWf, Bool.and_eq_true, decide_eq_true_eq] at h
  omega

/-- ARG of a region request uses the bits of its type alone. -/
theorem regionArg_used {t : Byte} (ht : t = tyREGION_WRITE ∨ t = tyREGION_READ) (key : W32) (offset : BitVec 23) :
    BitVec.ofNat 56 (regionArg key offset) &&& ~~~(argUsed t) = 0 := by
  have hLt : (BitVec.ofNat 56 (regionArg key offset)).toNat < 2 ^ 55 :=
    Nat.lt_of_le_of_lt (Nat.mod_le _ _) (regionArg_lt key offset)
  obtain rfl | rfl := ht <;> exact and_not_mask hLt

theorem regionWritePacket_readsAs (key : W32) (offset : BitVec 23) (data : List Byte) (hLen : lenWf data.length = true) :
    ReadsAs rq.rx 0 (regionWritePacket rq key offset data) (.regionWrite rq key offset data) := by
  have hPasses : malformed (regionWritePacket rq key offset data) = false :=
    malformed_reqPacket (by decide) (by decide) (lenInRange_data (.inl rfl) hLen) (length_fits_of_lenWf hLen)
      (regionArg_used (.inl rfl) key offset) rfl rfl
  refine ⟨hPasses, ?_⟩
  unfold commandOf
  dsimp only
  rw [hPasses]
  simp only [regionWritePacket, reqPacket, regionArg_key, regionArg_offset]
  simp [rxHeader, rxOf, tyREGION_WRITE, tyCLOSE, tyOPEN, tyACK, tyJOIN, tyTICK, tyRANGE]

theorem regionReadPacket_readsAs (key : W32) (offset : BitVec 23) (len : W32) (hLen : lenWf len.toNat = true) :
    ReadsAs rq.rx 0 (regionReadPacket rq key offset len) (.regionRead rq key offset len) := by
  have hRead : leNat (leBytes 4 len.toNat) = len.toNat := leNat_leBytes_toNat 4 len (by decide)
  have hPayload : payloadBad tyREGION_READ (leBytes 4 len.toNat) = false := by
    simp only [lenWf, Bool.and_eq_true, decide_eq_true_eq] at hLen
    obtain ⟨hSome, hMost⟩ := hLen
    simp only [payloadBad, hRead, if_true, Bool.or_eq_false_iff, decide_eq_false_iff_not]
    omega
  have hPasses : malformed (regionReadPacket rq key offset len) = false :=
    malformed_reqPacket (by decide) (by decide) rfl (by rw [leBytes_length]; decide) (regionArg_used (.inr rfl) key offset) rfl hPayload
  refine ⟨hPasses, ?_⟩
  unfold commandOf
  dsimp only
  rw [hPasses]
  simp only [regionReadPacket, reqPacket, regionArg_key, regionArg_offset, hRead]
  simp [rxHeader, rxOf, tyREGION_READ, tyREGION_WRITE, tyCLOSE, tyOPEN, tyACK, tyJOIN, tyTICK, tyRANGE]

theorem regWritePacket_readsAs (addr : BitVec 20) (v : W64) (hAddr : addrWf addr = true) :
    ReadsAs rq.rx 0 (regWritePacket rq addr v) (.regWrite rq addr v) := by
  have hRead : leNat (leBytes 8 v.toNat) = v.toNat := leNat_leBytes_toNat 8 v (by decide)
  have hArg : (BitVec.ofNat 56 addr.toNat).toNat = addr.toNat := by rw [BitVec.toNat_ofNat]; omega
  have hSkew : addrSkew tyREG_WRITE (BitVec.ofNat 56 addr.toNat) = false := by
    simp only [addrSkew, hArg, of_decide_eq_true hAddr]
    simp
  have hPasses : malformed (regWritePacket rq addr v) = false :=
    malformed_reqPacket (by decide) (by decide) rfl (by rw [leBytes_length]; decide)
      (and_not_mask (k := 20) (by rw [hArg]; exact addr.isLt)) hSkew rfl
  refine ⟨hPasses, ?_⟩
  unfold commandOf
  dsimp only
  rw [hPasses]
  simp only [regWritePacket, reqPacket, arg_low addr (by decide), hRead]
  simp [rxHeader, rxOf, tyREG_WRITE, tyREGION_READ, tyREGION_WRITE, tyCLOSE, tyOPEN, tyACK, tyJOIN, tyTICK, tyRANGE]

theorem regReadPacket_readsAs (addr : BitVec 20) (countM1 : BitVec 5) (hAddr : addrWf addr = true) :
    ReadsAs rq.rx 0 (regReadPacket rq addr countM1) (.regRead rq addr countM1) := by
  have hArg : (BitVec.ofNat 56 (addr.toNat + 2 ^ 20 * countM1.toNat)).toNat = addr.toNat + 2 ^ 20 * countM1.toNat := by
    rw [BitVec.toNat_ofNat]
    omega
  have hLow : (BitVec.ofNat 56 (addr.toNat + 2 ^ 20 * countM1.toNat)).extractLsb' 0 20 = addr := by
    refine BitVec.eq_of_toNat_eq ?_
    rw [extractLsb'_toNat_div, hArg]
    omega
  have hHigh : (BitVec.ofNat 56 (addr.toNat + 2 ^ 20 * countM1.toNat)).extractLsb' 20 5 = countM1 := by
    refine BitVec.eq_of_toNat_eq ?_
    rw [extractLsb'_toNat_div, hArg]
    omega
  have hSkew : addrSkew tyREG_READ (BitVec.ofNat 56 (addr.toNat + 2 ^ 20 * countM1.toNat)) = false := by
    have hEven : (addr.toNat + 2 ^ 20 * countM1.toNat) % 8 = 0 := by
      have := of_decide_eq_true hAddr
      omega
    simp only [addrSkew, hArg, hEven]
    simp
  have hPasses : malformed (regReadPacket rq addr countM1) = false :=
    malformed_reqPacket (by decide) (by decide) rfl (by decide) (and_not_mask (k := 25) (by rw [hArg]; omega)) hSkew rfl
  refine ⟨hPasses, ?_⟩
  unfold commandOf
  dsimp only
  rw [hPasses]
  simp only [regReadPacket, reqPacket, hLow, hHigh]
  simp [rxHeader, rxOf, tyREG_READ, tyREG_WRITE, tyREGION_READ, tyREGION_WRITE, tyCLOSE, tyOPEN, tyACK, tyJOIN, tyTICK, tyRANGE]

theorem doorbellPacket_readsAs (ring : BitVec 6) (tail : W16) :
    ReadsAs rq.rx 0 (doorbellPacket rq ring tail) (.doorbell rq ring tail) := by
  have hArg : (BitVec.ofNat 56 (ring.toNat + 256 * tail.toNat)).toNat = ring.toNat + 256 * tail.toNat := by
    rw [BitVec.toNat_ofNat]
    omega
  have hRing : (BitVec.ofNat 56 (ring.toNat + 256 * tail.toNat)).extractLsb' 0 6 = ring := by
    refine BitVec.eq_of_toNat_eq ?_
    rw [extractLsb'_toNat_div, hArg]
    omega
  have hTail : (BitVec.ofNat 56 (ring.toNat + 256 * tail.toNat)).extractLsb' 8 16 = tail := by
    refine BitVec.eq_of_toNat_eq ?_
    rw [extractLsb'_toNat_div, hArg]
    omega
  have hPasses : malformed (doorbellPacket rq ring tail) = false :=
    malformed_reqPacket (by decide) (by decide) rfl (by decide) (doorbellArg_used ring tail) rfl rfl
  refine ⟨hPasses, ?_⟩
  unfold commandOf
  dsimp only
  rw [hPasses]
  simp only [doorbellPacket, reqPacket, hRing, hTail]
  simp [rxHeader, rxOf, tyDOORBELL, tyREG_READ, tyREG_WRITE, tyREGION_READ, tyREGION_WRITE, tyCLOSE, tyOPEN, tyACK, tyJOIN, tyTICK,
    tyRANGE]

theorem sendPacket_readsAs (target : BitVec 10) (data : List Byte) (hLen : lenWf data.length = true) :
    ReadsAs rq.rx 0 (sendPacket rq target data) (.send rq target data) := by
  have hLt : (BitVec.ofNat 56 target.toNat).toNat < 2 ^ 10 := by
    rw [BitVec.toNat_ofNat]
    omega
  have hPasses : malformed (sendPacket rq target data) = false :=
    malformed_reqPacket (by decide) (by decide) (lenInRange_data (.inr rfl) hLen) (length_fits_of_lenWf hLen)
      (and_not_mask hLt) rfl rfl
  refine ⟨hPasses, ?_⟩
  unfold commandOf
  dsimp only
  rw [hPasses]
  simp only [sendPacket, reqPacket, arg_low target (by decide)]
  simp [rxHeader, rxOf, tySEND, tyDOORBELL, tyREG_READ, tyREG_WRITE, tyREGION_READ, tyREGION_WRITE, tyCLOSE, tyOPEN, tyACK, tyJOIN,
    tyTICK, tyRANGE]

theorem postPacket_readsAs (entries : List W64) (hSome : 1 ≤ entries.length) (hMost : entries.length ≤ 8) :
    ReadsAs rq.rx 0 (postPacket rq entries) (.post rq entries) := by
  have hCount : (bytesOf entries).length / 8 = entries.length := by rw [bytesOf_length]; omega
  have hLen : lenInRange tyPOST (bytesOf entries).length = true := by
    have hWhole : (bytesOf entries).length % 8 = 0 := by rw [bytesOf_length]; omega
    show (decide ((bytesOf entries).length % 8 = 0) && decide (1 ≤ (bytesOf entries).length / 8) &&
      decide ((bytesOf entries).length / 8 ≤ 8)) = true
    rw [hWhole, hCount]
    simp [hSome, hMost]
  have hPasses : malformed (postPacket rq entries) = false :=
    malformed_reqPacket (by decide) (by decide) hLen (by rw [bytesOf_length]; omega) (by decide) rfl rfl
  refine ⟨hPasses, ?_⟩
  unfold commandOf
  dsimp only
  rw [hPasses]
  simp only [postPacket, reqPacket, hCount, wordsOf_bytesOf]
  simp [rxHeader, rxOf, tyPOST, tySEND, tyDOORBELL, tyREG_READ, tyREG_WRITE, tyREGION_READ, tyREGION_WRITE, tyCLOSE, tyOPEN, tyACK,
    tyJOIN, tyTICK, tyRANGE]

end Requests

/-- A well-formed command's packet passes R113 and is that command again. -/
theorem packetOf_readsAs {i : Instr} {p : Packet} {rx : Rx} {count : W32} (hWf : i.wf = true) (hRx : packetRx i = some (rx, count))
    (hPacket : packetOf i = some p) : ReadsAs rx count p i := by
  cases i
  case tick x q n c => cases hRx; cases hPacket; exact tickPacket_readsAs _ _ q n
  case join x k n => cases hRx; cases hPacket; exact joinPacket_readsAs _ k n
  case range x k n => cases hRx; cases hPacket; exact rangePacket_readsAs _ k n
  case ack x => cases hRx; cases hPacket; exact ackPacket_readsAs _
  case openConn x n k d e u c q =>
    simp only [Instr.wf, Bool.and_eq_true, decide_eq_true_eq] at hWf
    obtain ⟨⟨-, hSome⟩, hMost⟩ := hWf
    cases hRx; cases hPacket; exact openPacket_readsAs _ n k d e u c q hSome hMost
  case close rq => cases hRx; cases hPacket; exact closePacket_readsAs rq
  case regionWrite rq k o l =>
    cases hRx; cases hPacket; exact regionWritePacket_readsAs rq k o l (Bool.and_eq_true_iff.mp hWf).2
  case regionRead rq k o n =>
    cases hRx; cases hPacket; exact regionReadPacket_readsAs rq k o n (Bool.and_eq_true_iff.mp hWf).2
  case regWrite rq a v => cases hRx; cases hPacket; exact regWritePacket_readsAs rq a v (Bool.and_eq_true_iff.mp hWf).2
  case regRead rq a n => cases hRx; cases hPacket; exact regReadPacket_readsAs rq a n (Bool.and_eq_true_iff.mp hWf).2
  case doorbell rq r t => cases hRx; cases hPacket; exact doorbellPacket_readsAs rq r t
  case send rq t l => cases hRx; cases hPacket; exact sendPacket_readsAs rq t l (Bool.and_eq_true_iff.mp hWf).2
  case post rq es =>
    simp only [Instr.wf, Bool.and_eq_true, decide_eq_true_eq] at hWf
    obtain ⟨⟨⟨-, hSome⟩, hMost⟩, -⟩ := hWf
    cases hRx; cases hPacket; exact postPacket_readsAs rq es hSome hMost
  all_goals cases hRx

/-- The record of R141 keeps its fields. -/
theorem respWord_fields (r : RespRec) : fld (respWord r) 15 0 = r.rseq.toNat ∧ fld (respWord r) 23 16 = r.type.toNat ∧
    fld (respWord r) 27 24 = r.rst.toNat ∧ fld (respWord r) 47 32 = r.param.toNat ∧ fld (respWord r) 63 48 = r.epoch.toNat := by
  have hRseq := r.rseq.isLt
  have hType := r.type.isLt
  have hRst := r.rst.isLt
  have hParam := r.param.isLt
  have hEpoch := r.epoch.isLt
  refine ⟨?_, ?_, ?_, ?_, ?_⟩ <;>
    simp (disch := decide) only [respWord, fld_or, fld_put_self, fld_put_below, fld_put_above, Nat.or_zero, Nat.zero_or] <;>
    exact Nat.mod_eq_of_lt ‹_›

/-- Settles O22: byte for byte by the round trips of header, payload and CRC, then type by type. -/
theorem packetsReadBack : Obligations.PacketsReadBack := by
  refine ⟨fun i p rx count hWf hRx hPacket => ?_, respWord_fields⟩
  obtain ⟨hPasses, hCommand⟩ := packetOf_readsAs hWf hRx hPacket
  exact ⟨hPasses, packetOfBytes_packetBytes p, crcGood_sentBytes p, hCommand⟩

end Sys2Proof.Machine
end

section
/-! The segments' layer: reading back a segment, its nodes and links, and what closing a connection or a node leaves alone. -/

namespace Sys2Proof.Machine

/-! ### Segments and nodes -/

@[simp] theorem segAB_setSegAB_self (s : State) {g : Seg} (v : SegAB) (h : g ≠ .c) : segAB (setSegAB s g v) g = v := by
  cases g
  case a => rfl
  case b => rfl
  case c => exact absurd rfl h

@[simp] theorem setSegAB_setSegAB (s : State) (g : Seg) (v w : SegAB) : setSegAB (setSegAB s g v) g w = setSegAB s g w := by
  cases g <;> rfl

@[simp] theorem setSegAB_segAB (s : State) (g : Seg) : setSegAB s g (segAB s g) = s := by cases g <;> rfl

@[simp] theorem nodeSt_setNode_self (sg : SegAB) (i : Nat) (n : NodeSt) : nodeSt (setNode sg i n) i = n := by
  simp [nodeSt, setNode]

theorem nodeSt_setNode_ne (sg : SegAB) {i j : Nat} (n : NodeSt) (h : j ≠ i) : nodeSt (setNode sg i n) j = nodeSt sg j := by
  simp [nodeSt, setNode, tgetD_tset_ne _ _ _ h]

@[simp] theorem segAB_setLink (s : State) (n : BitVec 6) (l : LinkSt) (g : Seg) : segAB (setLink s n l) g = segAB s g := by
  cases g <;> rfl

@[simp] theorem segAB_occurAt (s : State) (fr : W32) (sl : BitVec 6) (b : Nat) (c : BitVec 12) (p0 p1 : W32) (g : Seg) :
    segAB (occurAt s fr sl b c p0 p1) g = segAB s g := by rw [occurAt_eq]; cases g <;> rfl

@[simp] theorem segAB_occur (s : State) (b : Nat) (c : BitVec 12) (p0 p1 : W32) (g : Seg) :
    segAB (occur s b c p0 p1) g = segAB s g := segAB_occurAt s _ _ b c p0 p1 g

/-! ### Links -/

theorem linkOf_setLink_ne (s : State) {n m : BitVec 6} (l : LinkSt) (h : m ≠ n) : linkOf (setLink s n l) m = linkOf s m := by
  simp [linkOf, setLink, tgetD_tset_ne _ _ _ (fun e => h (BitVec.eq_of_toNat_eq e))]

@[simp] theorem linkOf_setSegAB (s : State) (g : Seg) (v : SegAB) (n : BitVec 6) : linkOf (setSegAB s g v) n = linkOf s n := by
  cases g <;> rfl

@[simp] theorem linkOf_occur (s : State) (b : Nat) (c : BitVec 12) (p0 p1 : W32) (n : BitVec 6) :
    linkOf (occur s b c p0 p1) n = linkOf s n := by rw [occur_eq]; rfl

/-- A state with other connections. -/
def withConns (s : State) (c : Tbl Conn) : State := { s with conns := c }

theorem returnCredits_eq (s : State) (qs : List Queued) : returnCredits s qs = withConns s (returnCredits s qs).conns := by
  unfold returnCredits
  induction qs generalizing s with
  | nil => rfl
  | cons q t ih =>
    refine (ih _).trans ?_
    show withConns (returnCredit s (replyConn q.reply) q.credit) _ = withConns s _
    unfold returnCredit
    split <;> rfl

/-- A link that restarts keeps the count of retransmissions; beyond links and connections nothing changes (R122). -/
theorem linkRestart_eq (s : State) (n : BitVec 6) : linkRestart s n =
    setLink (withConns s (linkRestart s n).conns) n { retx := (linkOf s n).retx } := by
  unfold linkRestart
  dsimp only
  rw [returnCredits_eq]
  rfl

@[simp] theorem linkOf_linkRestart_self (s : State) (n : BitVec 6) : linkOf (linkRestart s n) n = { retx := (linkOf s n).retx } := by
  rw [linkRestart_eq, linkOf_setLink_self]

@[simp] theorem segAB_linkRestart (s : State) (n : BitVec 6) (g : Seg) : segAB (linkRestart s n) g = segAB s g := by
  rw [linkRestart_eq]
  cases g <;> rfl

@[simp] theorem linkRestart_mem (s : State) (n : BitVec 6) : (linkRestart s n).mem = s.mem := by rw [linkRestart_eq]; rfl

@[simp] theorem linkRestart_now (s : State) (n : BitVec 6) : (linkRestart s n).now = s.now := by rw [linkRestart_eq]; rfl

@[simp] theorem linkRestart_recorder (s : State) (n : BitVec 6) : (linkRestart s n).recorder = s.recorder := by
  rw [linkRestart_eq]; rfl

@[simp] theorem takeLack_retx (l : LinkSt) (c : Bool) (k : Byte) : (takeLack l c k).retx = l.retx := rfl

/-- A heard LACK changes the sender's link, and not its count of retransmissions. -/
theorem hearLack_eq (s : State) (rx : Rx) : ∃ l : LinkSt, hearLack s rx = { s with links := (hearLack s rx).links } ∧
    linkOf (hearLack s rx) rx.node = l ∧ l.retx = (linkOf s rx.node).retx := by
  unfold hearLack
  split
  · exact ⟨_, rfl, linkOf_setLink_self _ _ _, rfl⟩
  · exact ⟨_, rfl, rfl, rfl⟩

/-! ### Closing connections (R132) -/

/-- The state without links, connections, the selected rest state, and what an occurrence touches. -/
def outsideConns (s : State) : State :=
  { s with links := [], conns := [], cache := [], pmu := { s.pmu with rest := 0 }, recorder := {}, hdrs := [], evDrop := 0 }

@[simp] theorem outsideConns_occur (s : State) (b : Nat) (c : BitVec 12) (p0 p1 : W32) :
    outsideConns (occur s b c p0 p1) = outsideConns s := by rw [occur_eq]; rfl

@[simp] theorem outsideConns_setLink (s : State) (n : BitVec 6) (l : LinkSt) : outsideConns (setLink s n l) = outsideConns s := rfl

@[simp] theorem outsideConns_refreshRest (s : State) : outsideConns (refreshRest s) = outsideConns s := by
  unfold refreshRest
  dsimp only
  split
  · rfl
  · exact outsideConns_occur _ _ _ _ _

@[simp] theorem outsideConns_closeConn (s : State) (k cause : Nat) : outsideConns (closeConn s k cause) = outsideConns s := by
  unfold closeConn
  split
  · rfl
  · simp only [outsideConns_refreshRest, outsideConns_occur]
    rfl

@[simp] theorem outsideConns_closeNode (s : State) (n : BitVec 6) (cause : Nat) :
    outsideConns (closeNode s n cause) = outsideConns s :=
  foldl_kept outsideConns _ (fun u k => outsideConns_closeConn u k cause) _ s

theorem segAB_of_outsideConns {s t : State} (h : outsideConns t = outsideConns s) (g : Seg) : segAB t g = segAB s g := by
  have hA := congrArg State.segA h
  have hB := congrArg State.segB h
  cases g
  case a => exact hA
  case b => exact hB
  case c => exact hA

theorem linkOf_refreshRest (s : State) (n : BitVec 6) : linkOf (refreshRest s) n = linkOf s n := by
  unfold refreshRest
  dsimp only
  split
  · rfl
  · exact linkOf_occur _ _ _ _ _ n

/-- Closing a connection keeps every link's count of retransmissions. -/
theorem closeConn_retx (s : State) (k cause : Nat) (n : BitVec 6) : (linkOf (closeConn s k cause) n).retx = (linkOf s n).retx := by
  unfold closeConn
  split
  · rfl
  next c _ =>
    dsimp only
    rw [linkOf_refreshRest, linkOf_occur]
    show (tgetD (tset s.links c.node.toNat _) n.toNat {}).retx = (tgetD s.links n.toNat {}).retx
    rw [tgetD_tset]
    split
    next h => rw [h]; rfl
    · rfl

theorem closeNode_retx (s : State) (node : BitVec 6) (cause : Nat) (n : BitVec 6) :
    (linkOf (closeNode s node cause) n).retx = (linkOf s n).retx :=
  foldl_kept (fun u => (linkOf u n).retx) _ (fun u k => closeConn_retx u k cause n) _ s

end Sys2Proof.Machine
end

section
/-! The segments (chapter 03): joining and ranging, mutes and evictions, maps, errored receptions, lanes and wake. -/

namespace Sys2Proof.Machine

/-! ### JOIN and RANGE (R91-R94, R592) -/

theorem receiveJoin_heard {s v : State} {rx : Rx} {i : BitVec 4} {nonce : W32} (judge : State → State)
    (h : joinHeard s rx i nonce = some v) : receiveJoin s rx i nonce judge = judge v ∧ rx.node = nodeId rx.seg i := by
  unfold joinHeard at h
  dsimp only at h
  split at h
  next hAll =>
    obtain ⟨hOn, hHears, hFree, hKind, hSlot, hLow, hHigh, hNode, hBegun, hWithin⟩ := hAll
    cases Option.some.inj h
    have hSame : begunSlot s rx = rx.slot := if_neg (by omega)
    refine ⟨?_, hNode⟩
    unfold receiveJoin
    dsimp only
    rw [hSame, hOn, hHears]
    simp only [Bool.not_true, Bool.false_or, Bool.false_eq_true, if_false, hFree, hKind, ne_eq, not_true_eq_false, false_and,
      false_or, hSlot, hLow, hHigh, hNode, hWithin]
  · exact absurd h (by simp)

section Heard

variable {s u : State} {rx : Rx} {i : BitVec 4} {nonce : W32} (hAB : rx.seg ≠ .c) (hHeard : joinHeard s rx i nonce = some u)

include hAB hHeard

theorem exec_join_heard : exec (.join rx i nonce) s = .next (judgeJoin u rx i nonce) := by
  have hJudged := (receiveJoin_heard (fun s => judgeJoin s rx i nonce) hHeard).1
  refine next_congr ?_
  cases hSeg : rx.seg
  case c => exact absurd hSeg hAB
  all_goals exact hJudged

theorem exec_range_heard : exec (.range rx i nonce) s = .next (judgeRange u rx i nonce) := by
  have hJudged := (receiveJoin_heard (fun s => judgeRange s rx i nonce) hHeard).1
  refine next_congr ?_
  cases hSeg : rx.seg
  case c => exact absurd hSeg hAB
  all_goals exact hJudged

end Heard

section Answers

variable (s : State) (g : Seg) (i : Nat) (kind : BitVec 4) (v : W16)

@[simp] theorem nodeSt_answerAB (j : Nat) : nodeSt (segAB (answerAB s g i kind v) g) j = nodeSt (segAB s g) j := by cases g <;> rfl

theorem answers_answerAB (h : g ≠ .c) : tget (segAB (answerAB s g i kind v) g).answers i = some { kind := kind, value := v } := by
  simp [answerAB, h]

@[simp] theorem linkOf_answerAB (n : BitVec 6) : linkOf (answerAB s g i kind v) n = linkOf s n := linkOf_setSegAB _ _ _ _

@[simp] theorem answerAB_now : (answerAB s g i kind v).now = s.now := by cases g <;> rfl

@[simp] theorem answerAB_mem : (answerAB s g i kind v).mem = s.mem := by cases g <;> rfl

@[simp] theorem answerAB_recorder : (answerAB s g i kind v).recorder = s.recorder := by cases g <;> rfl

@[simp] theorem setSegAB_now (x : SegAB) : (setSegAB s g x).now = s.now := by cases g <;> rfl

@[simp] theorem setSegAB_mem (x : SegAB) : (setSegAB s g x).mem = s.mem := by cases g <;> rfl

@[simp] theorem setSegAB_links (x : SegAB) : (setSegAB s g x).links = s.links := by cases g <;> rfl

@[simp] theorem setSegAB_recorder (x : SegAB) : (setSegAB s g x).recorder = s.recorder := by cases g <;> rfl

end Answers

@[simp] theorem occur_now (s : State) (b : Nat) (c : BitVec 12) (p0 p1 : W32) : (occur s b c p0 p1).now = s.now := by
  rw [occur_eq]; rfl

@[simp] theorem occur_mem (s : State) (b : Nat) (c : BitVec 12) (p0 p1 : W32) : (occur s b c p0 p1).mem = s.mem := by
  rw [occur_eq]; rfl

@[simp] theorem occur_links (s : State) (b : Nat) (c : BitVec 12) (p0 p1 : W32) : (occur s b c p0 p1).links = s.links := by
  rw [occur_eq]; rfl

theorem joinNode_spec (s : State) {g : Seg} (h : g ≠ .c) (i : BitVec 4) (nonce : W32) (v : W16) :
    (nodeSt (segAB (joinNode s g i nonce v) g) i.toNat).state = .joined ∧
    (nodeSt (segAB (joinNode s g i nonce v) g) i.toNat).nonce = nonce ∧
    (nodeSt (segAB (joinNode s g i nonce v) g) i.toNat).advance = v ∧
    tget (segAB (joinNode s g i nonce v) g).answers i.toNat = some { kind := 3, value := v } ∧
    linkOf (joinNode s g i nonce v) (nodeId g i) = { retx := (linkOf s (nodeId g i)).retx } ∧
    (joinNode s g i nonce v).now = s.now ∧ (joinNode s g i nonce v).mem = s.mem := by
  refine ⟨?_, ?_, ?_, answers_answerAB _ g _ _ _ h, ?_, ?_, ?_⟩ <;> simp [joinNode, h]

theorem rejoinNode_spec (s : State) {g : Seg} (h : g ≠ .c) (i : BitVec 4) (v : W16) :
    (rejoinNode s g i v).recorder = s.recorder ∧ (nodeSt (segAB (rejoinNode s g i v) g) i.toNat).advance = v ∧
    tget (segAB (rejoinNode s g i v) g).answers i.toNat = some { kind := 3, value := v } ∧
    linkOf (rejoinNode s g i v) (nodeId g i) = { retx := (linkOf s (nodeId g i)).retx } := by
  refine ⟨?_, ?_, answers_answerAB _ g _ _ _ h, ?_⟩ <;> simp [rejoinNode, h]

theorem hearLack_retx (s : State) (rx : Rx) : (linkOf (hearLack s rx) rx.node).retx = (linkOf s rx.node).retx := by
  unfold hearLack
  split
  · rw [linkOf_setLink_self, takeLack_retx]
  · rfl

@[simp] theorem hearLack_recorder (s : State) (rx : Rx) : (hearLack s rx).recorder = s.recorder := by
  unfold hearLack; split <;> rfl

@[simp] theorem segAB_hearLack (s : State) (rx : Rx) (g : Seg) : segAB (hearLack s rx) g = segAB s g := by
  unfold hearLack
  split
  · exact segAB_setLink s _ _ g
  · rfl

section Judged

variable {u : State} {rx : Rx} {i : BitVec 4} {nonce : W32}

theorem judgeJoin_free (hFree : isJoined (nodeSt (segAB u rx.seg) i.toNat) = false) (hRoom : joinedCount (segAB u rx.seg) < 12) :
    judgeJoin u rx i nonce = joinNode u rx.seg i nonce (BitVec.ofInt 16 rx.edge) := by
  simp [judgeJoin, hFree, hRoom]

theorem judgeJoin_full (hFree : isJoined (nodeSt (segAB u rx.seg) i.toNat) = false) (hFull : 12 ≤ joinedCount (segAB u rx.seg)) :
    judgeJoin u rx i nonce = refuseAB u rx.seg i ansREFUSED_FULL nonce := by
  simp [judgeJoin, hFree, Nat.not_lt.mpr hFull]

theorem judgeJoin_duplicate (hHeld : isJoined (nodeSt (segAB u rx.seg) i.toNat) = true)
    (hOther : (nodeSt (segAB u rx.seg) i.toNat).nonce ≠ nonce) (hRecent : u.frames - (nodeSt (segAB u rx.seg) i.toNat).lastGood < 64) :
    judgeJoin u rx i nonce = refuseAB u rx.seg i ansREFUSED_DUPLICATE nonce := by
  simp [judgeJoin, hHeld, hOther, recently, hRecent]

theorem judgeJoin_again (hHeld : isJoined (nodeSt (segAB u rx.seg) i.toNat) = true)
    (hSame : (nodeSt (segAB u rx.seg) i.toNat).nonce = nonce) (hSpeaks : silenced (nodeSt (segAB u rx.seg) i.toNat) = false) :
    judgeJoin u rx i nonce = rejoinNode (hearLack u rx) rx.seg i (BitVec.ofInt 16 rx.edge) := by
  simp [judgeJoin, hHeld, hSame, hSpeaks]

theorem judgeRange_stranger (hFree : isJoined (nodeSt (segAB u rx.seg) i.toNat) = false) :
    judgeRange u rx i nonce = refuseAB u rx.seg i ansNOT_JOINED nonce := by
  simp [judgeRange, hFree]

/-- A joined node that is not muted is RANGED (R592). -/
theorem judgeRange_spec (hAB : rx.seg ≠ .c) (hNode : rx.node = nodeId rx.seg i)
    (hHeld : isJoined (nodeSt (segAB u rx.seg) i.toNat) = true)
    (hSame : (nodeSt (segAB u rx.seg) i.toNat).nonce = nonce) (hSpeaks : (nodeSt (segAB u rx.seg) i.toNat).state ≠ .muted) :
    (nodeSt (segAB (judgeRange u rx i nonce) rx.seg) i.toNat).state = .joined ∧
      (nodeSt (segAB (judgeRange u rx i nonce) rx.seg) i.toNat).advance = BitVec.ofInt 16 rx.edge ∧
      tget (segAB (judgeRange u rx i nonce) rx.seg).answers i.toNat = some { kind := 2, value := BitVec.ofInt 16 rx.edge } ∧
      linkOf (judgeRange u rx i nonce) rx.node = { retx := (linkOf u rx.node).retx } ∧
      (judgeRange u rx i nonce).recorder = u.recorder := by
  simp only [judgeRange, hHeld, hSame, hSpeaks, Bool.not_true, Bool.false_eq_true, if_false, ne_eq, not_true_eq_false, false_and]
  refine ⟨?_, ?_, answers_answerAB _ rx.seg _ _ _ hAB, ?_, ?_⟩
  · simp [hAB]
  · simp [hAB]
  · rw [linkOf_answerAB, ← hNode, linkOf_linkRestart_self, hearLack_retx, linkOf_setSegAB]
  · simp

end Judged

/-- The state with another host on segment C. -/
def withHost (s : State) (h : Option HostC) : State := { s with segC := { s.segC with host := h } }

theorem withHost_same {s : State} {h : Option HostC} (hSame : s.segC.host = h) : withHost s h = s := by subst hSame; rfl

/-- On segment C a RANGE only shows that the joined host sends (R76). -/
theorem receiveC_state (s : State) (rx : Rx) : (receiveC s rx).1 = withHost s (s.segC.host.map fun h =>
    if segOn s .c = true ∧ rx.node = nodeId .c h.index then { h with lastGood := s.frames } else h) := by
  unfold receiveC
  cases hHost : s.segC.host with
  | none =>
    rw [Option.map_none, withHost_same hHost]
    split <;> rfl
  | some h =>
    rw [Option.map_some]
    cases hOn : segOn s .c with
    | false => exact (withHost_same hHost).symm
    | true =>
      by_cases hNode : rx.node = nodeId .c h.index
      · simp only [hNode]
        rfl
      · simp only [hNode, and_false, if_false, withHost_same hHost]
        rfl

/-- A host enters segment C (R76). -/
theorem joinC_enters {s : State} {rx : Rx} {i : BitVec 4} (nonce : W32) (hOn : segOn s .c = true) (hLow : i ≠ 0) (hHigh : i ≠ 15)
    (hNode : rx.node = nodeId .c i) (hEmpty : s.segC.host = none) :
    joinC s rx i nonce =
      let e := occur (linkRestart { s with segC := { s.segC with host := some { index := i, nonce := nonce, lastGood := s.frames } } }
        (nodeId .c i)) blkSEGC 0x106 (put32 (nodeId .c i).toNat 6 0) nonce
      { e with segC := { e.segC with answers := tset e.segC.answers i.toNat { kind := 3, value := 0 } } } := by
  unfold joinC
  have hPasses : ¬ ((!(segOn s .c)) = true ∨ i = 0 ∨ i = 15 ∨ rx.node ≠ nodeId .c i) := by
    rintro (hOff | hZero | hFifteen | hOther)
    · simp [hOn] at hOff
    · exact hLow hZero
    · exact hHigh hFifteen
    · exact hOther hNode
  rw [if_neg hPasses]
  simp only [hEmpty]
  rfl

/-- Settles O17: a JOIN or RANGE that is heard is judged, and each judgement by its own branch. -/
theorem joinsAndRangesAreJudged : Obligations.JoinsAndRangesAreJudged := by
  refine ⟨fun s u rx i nonce hAB hHeard => ?_, fun s u rx i nonce => ⟨fun hAB hHeard => ?_, fun hC => ?_⟩,
    fun s rx i nonce hC hOn hLow hHigh hNode hEmpty => ?_⟩
  · have hNode := (receiveJoin_heard id hHeard).2
    rw [exec_join_heard hAB hHeard]
    refine ⟨fun hFree hRoom => ⟨_, rfl, ?_⟩, fun hFree hFull => ?_, fun hHeld hOther hRecent => ?_, fun hHeld hSame hSpeaks => ⟨_, rfl, ?_⟩⟩
    · rw [judgeJoin_free hFree hRoom, hNode]
      exact joinNode_spec u hAB i nonce _
    · rw [judgeJoin_full hFree hFull, hNode]
      rfl
    · rw [judgeJoin_duplicate hHeld hOther hRecent, hNode]
      rfl
    · obtain ⟨hRecorder, hAdvance, hAnswer, hLink⟩ := rejoinNode_spec (hearLack u rx) hAB i (BitVec.ofInt 16 rx.edge)
      rw [judgeJoin_again hHeld hSame hSpeaks]
      refine ⟨hRecorder.trans (hearLack_recorder u rx), hAdvance, hAnswer, ?_⟩
      rw [hNode, hLink, ← hNode, hearLack_retx]
  · have hNode := (receiveJoin_heard id hHeard).2
    rw [exec_range_heard hAB hHeard]
    refine ⟨fun hHeld hSame hSpeaks => ⟨_, rfl, judgeRange_spec hAB hNode hHeld hSame hSpeaks⟩, fun hFree => ?_⟩
    rw [judgeRange_stranger hFree, hNode]
    rfl
  · refine Eq.trans (next_congr ?_) (next_congr (receiveC_state s rx))
    rw [hC]
  · have hExec : exec (.join rx i nonce) s = .next (joinC s rx i nonce) := next_congr (by rw [hC])
    refine ⟨_, hExec.trans (next_congr (joinC_enters nonce hOn hLow hHigh hNode hEmpty)), ?_⟩
    dsimp only
    rw [occur_eq, linkRestart_eq]
    refine ⟨rfl, tget_tset_self _ _ _, ?_, rfl, rfl, rfl⟩
    rw [hNode]
    exact linkOf_setLink_self _ _ _

end Sys2Proof.Machine
end

section
/-! The segments (chapter 03), continued: mutes and evictions, maps, errored receptions, lanes and wake. -/

namespace Sys2Proof.Machine

/-! ### Mutes and evictions (R96, R101) -/

theorem exec_muteEnd {s : State} {g : Seg} {i : BitVec 4} (hAB : g ≠ .c) (hMuted : (nodeSt (segAB s g) i.toNat).state = .muted)
    (hOver : (nodeSt (segAB s g) i.toNat).muteLeft = 0) :
    exec (.muteEnd g i) s = .next (setSegAB s g (setNode (segAB s g) i.toNat { nodeSt (segAB s g) i.toNat with
      state := if (nodeSt (segAB s g) i.toNat).rangedEarly then .joined else .mustRange, rangedEarly := false, rerange := false })) := by
  cases g
  case c => exact absurd rfl hAB
  all_goals exact next_congr (if_pos ⟨hMuted, hOver⟩)

theorem removeNode_joined {s : State} {g : Seg} {i : BitVec 4} (h : isJoined (nodeSt (segAB s g) i.toNat) = true) :
    removeNode s g i = dropLink (closeNode (setSegAB s g (withoutNode (segAB s g) i)) (nodeId g i) 2) (nodeId g i) := if_pos h

theorem nodeSt_withoutNode_self (sg : SegAB) (i : BitVec 4) : nodeSt (withoutNode sg i) i.toNat =
    { near := (nodeSt sg i.toNat).near, hits := (nodeSt sg i.toNat).hits } := nodeSt_setNode_self sg _ _

theorem nodeSt_withoutNode_ne (sg : SegAB) (i : BitVec 4) {j : Nat} (h : j ≠ i.toNat) :
    nodeSt (withoutNode sg i) j = nodeSt sg j := nodeSt_setNode_ne sg _ h

/-- A joined node that is removed leaves with its link; its segment is what it was without it. -/
theorem removeNode_spec {s : State} {g : Seg} {i : BitVec 4} (hAB : g ≠ .c) (h : isJoined (nodeSt (segAB s g) i.toNat) = true) :
    segAB (removeNode s g i) g = withoutNode (segAB s g) i ∧
      linkOf (removeNode s g i) (nodeId g i) = { retx := (linkOf s (nodeId g i)).retx } ∧ (removeNode s g i).mem = s.mem := by
  have hOutside := outsideConns_closeNode (setSegAB s g (withoutNode (segAB s g) i)) (nodeId g i) 2
  rw [removeNode_joined h, dropLink]
  refine ⟨?_, ?_, ?_⟩
  · rw [segAB_setLink, segAB_of_outsideConns hOutside, segAB_setSegAB_self s _ hAB]
  · rw [linkOf_setLink_self, closeNode_retx, linkOf_setSegAB]
  · exact (congrArg State.mem hOutside :).trans (setSegAB_mem s g _)

theorem exec_nodeRemoved_one {s : State} {g : Seg} {i : BitVec 4} (hAB : g ≠ .c) (hDue : (segAB s g).evictDue = [i]) :
    exec (.nodeRemoved g) s = .next (removeNode (setSegAB s g { segAB s g with evictDue := [] }) g i) := by
  have hFold : (segAB s g).evictDue.foldl (fun s i => removeNode s g i) (setSegAB s g { segAB s g with evictDue := [] }) =
      removeNode (setSegAB s g { segAB s g with evictDue := [] }) g i := by rw [hDue]; rfl
  cases g
  case c => exact absurd rfl hAB
  all_goals exact next_congr hFold

/-- Settles O18: each command by its branch, and the removal by what closing the node's connections leaves alone. -/
theorem nodesAreUnmutedAndLeave : Obligations.NodesAreUnmutedAndLeave := by
  refine ⟨fun s g i hAB hMuted hOver => exec_muteEnd hAB hMuted hOver,
    fun s g hAB => ⟨fun w v hMay hGo => ?_, fun i hDue hJoined => ?_⟩⟩
  · exact next_congr ((guardedWrite_of_mayWrite _ _ hMay).trans (if_pos hGo))
  · have hSeg := segAB_setSegAB_self s { segAB s g with evictDue := [] } hAB
    have hJoined' : isJoined (nodeSt (segAB (setSegAB s g { segAB s g with evictDue := [] }) g) i.toNat) = true := by
      rw [hSeg]
      exact hJoined
    obtain ⟨hNodes, hLink, hMem⟩ := removeNode_spec hAB hJoined'
    rw [linkOf_setSegAB] at hLink
    rw [hSeg] at hNodes
    refine ⟨_, exec_nodeRemoved_one hAB hDue, ?_, ?_, ?_, ?_, ?_, ?_, hLink, fun j hj => ?_, hMem.trans (setSegAB_mem s g _)⟩ <;> rw [hNodes]
    · rw [nodeSt_withoutNode_self]; rfl
    · rw [nodeSt_withoutNode_self]; rfl
    · rw [nodeSt_withoutNode_self]; rfl
    · exact tget_terase_self _ _
    · exact tget_terase_self _ _
    · rfl
    · exact nodeSt_withoutNode_ne _ i hj

/-! ### Maps (R84, R85) -/

theorem segAB_regStore (s : State) (b o : Nat) (v : W64) (g : Seg) : segAB (regStore s b o v) g = segAB s g := by cases g <;> rfl

theorem exec_mapAnnounce {s : State} {w : Dom} {g : Seg} {v : W64} (hAB : g ≠ .c) (hMay : mayWrite s w (segBlk g) 0x88 = true) :
    exec (.mapAnnounce w g v) s = .next (writeMapCtl s g v) := by
  cases g
  case c => exact absurd rfl hAB
  all_goals exact next_congr (guardedWrite_of_mayWrite _ _ hMay)

theorem exec_mapActive {s : State} {g : Seg} {p : PendMap} (hAB : g ≠ .c) (hPend : (segAB s g).pend = some p)
    (hReached : pendReached p s.now.frame = true) :
    exec (.mapActive g) s = .next (occurAt
      (setSegAB s g { segAB s g with map := p.map, ver := p.ver, strait := p.strait, pend := none })
      p.act 0 (segBlk g) 0x108 (put32 (segNum g) 2 0 ||| put32 p.ver.toNat 8 8 ||| put32 p.strait.toNat 4 16) p.act) := by
  cases g
  case c => exact absurd rfl hAB
  all_goals
    refine next_congr ?_
    dsimp only
    rw [hPend]
    exact if_pos hReached

/-- Settles O19: the two outcomes of a GO, and the activation. -/
theorem mapsAreAnnouncedAndTakeEffect : Obligations.MapsAreAnnouncedAndTakeEffect := by
  refine fun s g hAB => ⟨fun w v hMay hGo => ?_, fun p hPend hReached => exec_mapActive hAB hPend hReached⟩
  have hSeg := segAB_regStore s (segBlk g) 0x88 v g
  rw [exec_mapAnnounce hAB hMay]
  unfold writeMapCtl
  dsimp only
  rw [if_pos hGo, hSeg]
  exact ⟨fun hAccepted => next_congr (if_pos hAccepted), fun hRefused => next_congr (if_neg hRefused)⟩

/-! ### Errored receptions (R70, R97, R105, R106) -/

/-- All that the map of a segment and its slots are read from. -/
def mapView (s : State) (g : Seg) : List Byte × Byte × BitVec 4 × Option PendMap × W32 × Option Keeper × Option HostC :=
  ((segAB s g).map, (segAB s g).ver, (segAB s g).strait, (segAB s g).pend, s.now.frame, s.clk.tk, s.segC.host)

section MapView

variable {s t : State} {g : Seg} (h : mapView t g = mapView s g)

include h

theorem effMap_of_mapView : effMap (segAB t g) t.now.frame = effMap (segAB s g) s.now.frame := by
  simp only [mapView, Prod.mk.injEq] at h
  obtain ⟨hMap, hVer, hStrait, hPend, hFrame, -, -⟩ := h
  simp only [effMap, hMap, hVer, hStrait, hPend, hFrame]

theorem tkNode_of_mapView : tkNode t = tkNode s := by
  simp only [mapView, Prod.mk.injEq] at h
  obtain ⟨-, -, -, -, -, hTk, hHost⟩ := h
  simp only [tkNode, cNode, hTk, hHost]

theorem slotByte_of_mapView (k : Nat) : slotByte t g k = slotByte s g k := by
  simp only [slotByte, shownMap, tickByte, effMap_of_mapView h, tkNode_of_mapView h]

theorem halfStrait_of_mapView : halfStrait t g = halfStrait s g := by
  simp only [halfStrait, effMap_of_mapView h]

theorem upOrTick_of_mapView (k : BitVec 6) : upOrTick t g k = upOrTick s g k := by
  simp only [upOrTick, slotByte_of_mapView h]

theorem rightSlot_of_mapView {rx : Rx} (hSeg : rx.seg = g) (tick : Bool) : rightSlot t rx tick = rightSlot s rx tick := by
  subst hSeg
  simp only [rightSlot, slotByte_of_mapView h, tkNode_of_mapView h]

end MapView

theorem mapView_setSegAB {s : State} {g : Seg} (hAB : g ≠ .c) {v : SegAB} (hMap : v.map = (segAB s g).map)
    (hVer : v.ver = (segAB s g).ver) (hStrait : v.strait = (segAB s g).strait) (hPend : v.pend = (segAB s g).pend) :
    mapView (setSegAB s g v) g = mapView s g := by
  simp only [mapView, segAB_setSegAB_self s _ hAB, hMap, hVer, hStrait, hPend]
  cases g <;> rfl

theorem mapView_occur (s : State) (b : Nat) (c : BitVec 12) (p0 p1 : W32) (g : Seg) : mapView (occur s b c p0 p1) g = mapView s g := by
  rw [occur_eq]; cases g <;> rfl

/-- With no hit waiting for its victim, entering a slot moves only the time. -/
theorem enterSlot_quiet {s : State} {g : Seg} (k : BitVec 6) (h : (segAB s g).pendHits = []) : enterSlot s g k = atSlot s k := by
  have hSeg : segAB (atSlot s k) g = segAB s g := by unfold atSlot; split <;> cases g <;> rfl
  rw [enterSlot, settleHit, hSeg, h]
  rfl

/-- A damaged packet's counts, with what they are read from. -/
def damageCounted (s : State) (rx : Rx) (e : RxErrors) (crcBad : Bool) : State :=
  let u := setSegAB (enterSlot s rx.seg rx.slot) rx.seg (countDamage (segAB (enterSlot s rx.seg rx.slot) rx.seg) e crcBad)
  if e.lock then occur u (segBlk rx.seg) 0x104 (put32 (segNum rx.seg) 2 0 ||| put32 rx.slot.toNat 6 8) 0 else u

section Damage

variable {s : State} {rx : Rx} (e : RxErrors) (crcBad : Bool) (hAB : rx.seg ≠ .c) (hQuiet : (segAB s rx.seg).pendHits = [])

include hAB hQuiet

theorem damageCounted_spec : segAB (damageCounted s rx e crcBad) rx.seg = countDamage (segAB s rx.seg) e crcBad ∧
    (damageCounted s rx e crcBad).mem = s.mem ∧ (damageCounted s rx e crcBad).links = s.links ∧
    mapView (damageCounted s rx e crcBad) rx.seg = mapView s rx.seg ∧
    (e.lock = false → (damageCounted s rx e crcBad).recorder = s.recorder) := by
  have hSeg : segAB (atSlot s rx.slot) rx.seg = segAB s rx.seg := by unfold atSlot; split <;> cases rx.seg <;> rfl
  have hView : mapView (atSlot s rx.slot) rx.seg = mapView s rx.seg := by unfold atSlot; split <;> cases rx.seg <;> rfl
  have hCounted := mapView_setSegAB (s := atSlot s rx.slot) (v := countDamage (segAB (atSlot s rx.slot) rx.seg) e crcBad) hAB rfl rfl rfl rfl
  have hMem : (atSlot s rx.slot).mem = s.mem := by unfold atSlot; split <;> rfl
  have hLinks : (atSlot s rx.slot).links = s.links := by unfold atSlot; split <;> rfl
  have hRecorder : (atSlot s rx.slot).recorder = s.recorder := by unfold atSlot; split <;> rfl
  unfold damageCounted
  rw [enterSlot_quiet _ hQuiet]
  dsimp only
  split
  next hLock =>
    refine ⟨?_, ?_, ?_, ?_, fun hNo => absurd (hLock.symm.trans hNo) (by decide)⟩
    · rw [segAB_occur, segAB_setSegAB_self _ _ hAB, hSeg]
    · rw [occur_mem, setSegAB_mem, hMem]
    · rw [occur_links, setSegAB_links, hLinks]
    · rw [mapView_occur, hCounted, hView]
  · refine ⟨?_, ?_, ?_, hCounted.trans hView, fun _ => ?_⟩
    · rw [segAB_setSegAB_self _ _ hAB, hSeg]
    · rw [setSegAB_mem, hMem]
    · rw [setSegAB_links, hLinks]
    · rw [setSegAB_recorder, hRecorder]

/-- The slot of a damaged packet counts towards BURST_ERRORS in an UP or the tick slot, when the packet is the slot's first. -/
def slotMarked (u : State) (g : Seg) (k : BitVec 6) : State :=
  setSegAB u g { segAB u g with taken := some k, errSlots := (segAB u g).errSlots ++ (if upOrTick u g k then [k] else []) }

end Damage

/-- With no hit waiting for its victim, the first packet of a slot takes it and is no victim. -/
theorem slotMarked_eq {u : State} {g : Seg} (k : BitVec 6) (crcBad : Bool) (hAB : g ≠ .c) (hQuiet : (segAB u g).pendHits = []) :
    (let v := takeSlot u g k
     let sg := segAB v g
     if crcBad = true ∧ isVictim v sg k = true then setSegAB v g (nameVictim v sg k)
     else if upOrTick v g k = true then setSegAB v g { sg with errSlots := sg.errSlots ++ [k] }
     else v) = slotMarked u g k := by
  have hTake : segAB (takeSlot u g k) g = { segAB u g with taken := some k } := segAB_setSegAB_self _ _ hAB
  have hView : mapView (takeSlot u g k) g = mapView u g := mapView_setSegAB hAB rfl rfl rfl rfl
  have hNoVictim : isVictim (takeSlot u g k) (segAB (takeSlot u g k) g) k = false := by
    rw [isVictim, hTake, hQuiet]
    rfl
  dsimp only
  rw [if_neg (fun h => absurd (hNoVictim.symm.trans h.2) (by decide)), slotMarked, upOrTick_of_mapView hView, hTake]
  split
  · exact setSegAB_setSegAB _ _ _ _
  · rw [List.append_nil]
    rfl

theorem damagedAB_eq {s : State} {rx : Rx} (e : RxErrors) (crcBad : Bool) (hAB : rx.seg ≠ .c)
    (hQuiet : (segAB (damageCounted s rx e crcBad) rx.seg).pendHits = []) :
    damagedAB s rx e crcBad =
      if (segAB (damageCounted s rx e crcBad) rx.seg).taken = some rx.slot then damageCounted s rx e crcBad
      else judgeErrored (slotMarked (damageCounted s rx e crcBad) rx.seg rx.slot) rx :=
  congrArg (fun x => if (segAB (damageCounted s rx e crcBad) rx.seg).taken = some rx.slot then damageCounted s rx e crcBad
    else judgeErrored x rx) (slotMarked_eq rx.slot crcBad hAB hQuiet)

theorem judgeErrored_quiet {u : State} {rx : Rx} (h : edgeClass (halfStrait u rx.seg) rx.edge rx.air ≠ .hit) :
    judgeErrored u rx = u := if_neg fun hAll => h hAll.2.2.2

/-- A hit counts, and no count of slots, packets or characters moves. -/
theorem hitPacket_spec (s : State) (rx : Rx) (hAB : rx.seg ≠ .c) :
    (nodeSt (segAB (hitPacket s rx.seg rx) rx.seg) (nodeIdx rx.node)).hits = (nodeSt (segAB s rx.seg) (nodeIdx rx.node)).hits + 1 ∧
      (segAB (hitPacket s rx.seg rx) rx.seg).crcErr = (segAB s rx.seg).crcErr ∧
      (segAB (hitPacket s rx.seg rx) rx.seg).codeErr = (segAB s rx.seg).codeErr ∧
      (segAB (hitPacket s rx.seg rx) rx.seg).cdr = (segAB s rx.seg).cdr ∧
      (segAB (hitPacket s rx.seg rx) rx.seg).taken = (segAB s rx.seg).taken ∧
      (segAB (hitPacket s rx.seg rx) rx.seg).errSlots = (segAB s rx.seg).errSlots ∧
      (hitPacket s rx.seg rx).mem = s.mem ∧ (hitPacket s rx.seg rx).links = s.links := by
  unfold hitPacket countHit
  dsimp only
  split <;> split <;> simp [hAB, setNode, nodeSt]

/-- Judging a damaged packet moves no count of slots or characters. -/
theorem judgeErrored_counts (u : State) (rx : Rx) (hAB : rx.seg ≠ .c) :
    (segAB (judgeErrored u rx) rx.seg).crcErr = (segAB u rx.seg).crcErr ∧
      (segAB (judgeErrored u rx) rx.seg).codeErr = (segAB u rx.seg).codeErr ∧
      (segAB (judgeErrored u rx) rx.seg).cdr = (segAB u rx.seg).cdr ∧
      (segAB (judgeErrored u rx) rx.seg).taken = (segAB u rx.seg).taken ∧
      (segAB (judgeErrored u rx) rx.seg).errSlots = (segAB u rx.seg).errSlots ∧
      (judgeErrored u rx).mem = u.mem ∧ (judgeErrored u rx).links = u.links := by
  unfold judgeErrored
  dsimp only
  split
  · exact (hitPacket_spec u rx hAB).2
  · exact ⟨rfl, rfl, rfl, rfl, rfl, rfl, rfl⟩

/-- A hit in its right slot counts, whatever the packet's CRC. -/
theorem judgeErrored_hit {u : State} {rx : Rx} (hAB : rx.seg ≠ .c)
    (hHit : edgeClass (halfStrait u rx.seg) rx.edge rx.air = .hit) (hRight : rightSlot u rx true = true)
    (hSpeaks : silenced (nodeSt (segAB u rx.seg) (nodeIdx rx.node)) = false)
    (hOf : isJoined (nodeSt (segAB u rx.seg) (nodeIdx rx.node)) = true ∨ rx.slot = 1) :
    (nodeSt (segAB (judgeErrored u rx) rx.seg) (nodeIdx rx.node)).hits = (nodeSt (segAB u rx.seg) (nodeIdx rx.node)).hits + 1 := by
  have hJudged : judgeErrored u rx = hitPacket u rx.seg rx := if_pos ⟨hRight, by rw [hSpeaks]; rfl, hOf, hHit⟩
  rw [hJudged]
  exact (hitPacket_spec u rx hAB).1

theorem exec_erroredReception_c {s : State} {rx : Rx} (e : RxErrors) (crcBad : Bool) (hC : rx.seg = .c) (hOn : segOn s .c = true) :
    exec (.erroredReception rx e crcBad) s = .next { s with segC := { s.segC with
      crcErr := addIf s.segC.crcErr crcBad, codeErr := addIf (addIf s.segC.codeErr e.code) e.disparity } } := by
  refine next_congr ?_
  rw [hC, if_neg (by rw [hOn]; decide)]

theorem exec_erroredReception_ab {s : State} {rx : Rx} (e : RxErrors) (crcBad : Bool) (hAB : rx.seg ≠ .c)
    (hOn : segOn s rx.seg = true) (hHears : deafTo s rx = false) :
    exec (.erroredReception rx e crcBad) s = .next (damagedAB s rx e crcBad) := by
  refine next_congr ?_
  rw [if_neg (by rw [hOn]; decide), hHears]
  cases hSeg : rx.seg
  case c => exact absurd hSeg hAB
  all_goals rfl

/-- What an errored reception on A and B shows, slot by slot (R70, R78, R97, R105). -/
theorem damagedAB_spec {s : State} {rx : Rx} (e : RxErrors) (crcBad : Bool) (hAB : rx.seg ≠ .c)
    (hQuiet : (segAB s rx.seg).pendHits = []) :
    let t := damagedAB s rx e crcBad
    (segAB t rx.seg).crcErr = addIf (segAB s rx.seg).crcErr crcBad ∧
      (segAB t rx.seg).codeErr = addIf (addIf (segAB s rx.seg).codeErr e.code) e.disparity ∧
      (segAB t rx.seg).cdr = addIf (segAB s rx.seg).cdr e.lock ∧ (segAB t rx.seg).taken = some rx.slot ∧
      t.mem = s.mem ∧ t.links = s.links ∧
      ((segAB s rx.seg).taken = some rx.slot → (segAB t rx.seg).errSlots = (segAB s rx.seg).errSlots ∧
        (segAB t rx.seg).nodes = (segAB s rx.seg).nodes) ∧
      ((segAB s rx.seg).taken ≠ some rx.slot →
        (segAB t rx.seg).errSlots = (segAB s rx.seg).errSlots ++ (if upOrTick s rx.seg rx.slot then [rx.slot] else []) ∧
        (edgeClass (halfStrait s rx.seg) rx.edge rx.air ≠ .hit → (segAB t rx.seg).nodes = (segAB s rx.seg).nodes ∧
          (e.lock = false → t.recorder = s.recorder)) ∧
        (edgeClass (halfStrait s rx.seg) rx.edge rx.air = .hit → rightSlot s rx true = true →
          silenced (nodeSt (segAB s rx.seg) (nodeIdx rx.node)) = false →
          (isJoined (nodeSt (segAB s rx.seg) (nodeIdx rx.node)) = true ∨ rx.slot = 1) →
          (nodeSt (segAB t rx.seg) (nodeIdx rx.node)).hits = (nodeSt (segAB s rx.seg) (nodeIdx rx.node)).hits + 1)) := by
  obtain ⟨hSeg, hMem, hLinks, hView, hRecorder⟩ := damageCounted_spec e crcBad hAB hQuiet
  have hMarkedView : mapView (slotMarked (damageCounted s rx e crcBad) rx.seg rx.slot) rx.seg = mapView s rx.seg := by
    refine Eq.trans ?_ hView
    unfold slotMarked
    apply mapView_setSegAB hAB <;> rfl
  have hMarked : segAB (slotMarked (damageCounted s rx e crcBad) rx.seg rx.slot) rx.seg =
      { countDamage (segAB s rx.seg) e crcBad with
        taken := some rx.slot
        errSlots := (segAB s rx.seg).errSlots ++ (if upOrTick s rx.seg rx.slot then [rx.slot] else []) } := by
    rw [slotMarked, segAB_setSegAB_self _ _ hAB, hSeg, upOrTick_of_mapView hView]
    rfl
  have hWas : (segAB (damageCounted s rx e crcBad) rx.seg).taken = (segAB s rx.seg).taken := (congrArg SegAB.taken hSeg :)
  dsimp only
  rw [damagedAB_eq e crcBad hAB (by rw [hSeg]; exact hQuiet), hWas]
  by_cases hTaken : (segAB s rx.seg).taken = some rx.slot
  · rw [if_pos hTaken, hSeg]
    exact ⟨rfl, rfl, rfl, hTaken, hMem, hLinks, fun _ => ⟨rfl, rfl⟩, fun hNot => absurd hTaken hNot⟩
  · rw [if_neg hTaken]
    obtain ⟨hCrc, hCode, hCdr, hTook, hSlots, hMem', hLinks'⟩ :=
      judgeErrored_counts (slotMarked (damageCounted s rx e crcBad) rx.seg rx.slot) rx hAB
    rw [hMarked] at hCrc hCode hCdr hTook hSlots
    refine ⟨hCrc, hCode, hCdr, hTook, hMem'.trans ((setSegAB_mem _ _ _).trans hMem), hLinks'.trans ((setSegAB_links _ _ _).trans hLinks),
      fun h => absurd h hTaken, fun _ => ⟨hSlots, fun hNoHit => ?_, fun hHit hRight hSpeaks hOf => ?_⟩⟩
    · rw [judgeErrored_quiet (by rw [halfStrait_of_mapView hMarkedView]; exact hNoHit), hMarked]
      exact ⟨rfl, fun hLock => (setSegAB_recorder _ _ _).trans (hRecorder hLock)⟩
    · have hHits := judgeErrored_hit hAB (u := slotMarked (damageCounted s rx e crcBad) rx.seg rx.slot)
        (by rw [halfStrait_of_mapView hMarkedView]; exact hHit) (by rw [rightSlot_of_mapView hMarkedView rfl]; exact hRight)
        (by rw [hMarked]; exact hSpeaks) (by rw [hMarked]; exact hOf)
      rw [hMarked] at hHits
      exact hHits

/-! ### Lanes and wake (R75, R107, R492) -/

theorem wake_source (g : Seg) (latched : BitVec 3) (tagwake : Bool) (h : latched.getLsbD (segNum g) = true) :
    (1#4 <<< segNum g) &&& BitVec.ofNat 4 (latched.toNat + 8 * b2n tagwake) = 1#4 <<< segNum g := by
  have hAll : ∀ (l : BitVec 3) (w : Bool), (l.getLsbD 0 = true → (1#4 <<< 0) &&& BitVec.ofNat 4 (l.toNat + 8 * b2n w) = 1#4 <<< 0) ∧
      (l.getLsbD 1 = true → (1#4 <<< 1) &&& BitVec.ofNat 4 (l.toNat + 8 * b2n w) = 1#4 <<< 1) ∧
      (l.getLsbD 2 = true → (1#4 <<< 2) &&& BitVec.ofNat 4 (l.toNat + 8 * b2n w) = 1#4 <<< 2) := by decide
  obtain ⟨hA, hB, hC⟩ := hAll latched tagwake
  cases g
  case a => exact hA h
  case b => exact hB h
  case c => exact hC h

theorem wakeFrom_segment {s : State} {g : Seg} (hHold : s.phase = .deepHold) (h : s.pmu.seglatch.getLsbD (segNum g) = true) :
    wakeFrom s (1#4 <<< segNum g) = { s with
      phase := .porHeld, pmu := { s.pmu with lastsrc := 1#4 <<< segNum g }, clk := { s.clk with dhExit := true }
      pins := { s.pins with pwron := true } } := by
  have hSome : (1#4 <<< segNum g) ≠ 0 := by cases g <;> decide
  unfold wakeFrom
  dsimp only
  rw [wake_source g s.pmu.seglatch s.pmu.tagwake h, if_pos ⟨hHold, hSome⟩]

/-- Settles O20: damaged packets by their counts and their judgement, lanes and wake by their branch. -/
theorem errorsLanesAndWake : Obligations.ErrorsLanesAndWake := by
  refine ⟨fun s rx e crcBad => ⟨fun hC hOn => exec_erroredReception_c e crcBad hC hOn, fun hAB hOn hHears hQuiet =>
      ⟨_, exec_erroredReception_ab e crcBad hAB hOn hHears, damagedAB_spec e crcBad hAB hQuiet⟩⟩,
    fun s => ⟨fun lanes hUp hAligned hSome => ?_, fun skew hUp hOn hWithin => next_congr (if_pos ⟨hUp, hOn, hWithin⟩), fun x =>
      ⟨fun hHold hSeen hLatched => ?_, fun hHold hUnseen => ?_, fun hOn hAB hLong => ?_⟩⟩⟩
  · refine (next_congr (if_pos ⟨hUp, hAligned, hSome⟩)).trans ?_
    rw [hAligned]
  · refine next_congr ?_
    rw [if_pos hHold, if_pos hSeen, wakeFrom_segment hHold hLatched]
  · refine next_congr ?_
    rw [if_pos hHold, hUnseen]
    rfl
  · have hAwake : s.phase ≠ .deepHold := by
      intro hHold
      rw [coreOn, hHold] at hOn
      exact absurd hOn (by decide)
    have hSees : ¬(x.seg = .c ∨ x.ns < 20) := fun h => h.elim hAB (Nat.not_lt.2 hLong)
    refine next_congr ?_
    rw [if_neg hAwake, if_pos hOn, seeCarrier, if_neg hSees]

end Sys2Proof.Machine
end

section
/-! The transport (chapter 04): a packet at link level, and a request from its acceptance to its answer. -/

namespace Sys2Proof.Machine

/-! ### Link level (R115) -/

theorem judgeSeq_inOrder {l : LinkSt} {lseq : Byte} (h : judgeSeq l lseq = .inOrder) : l.rxExp = lseq := by
  unfold judgeSeq at h
  dsimp only at h
  split at h
  next hZero => bv_omega
  · split at h <;> exact absurd h (by decide)

/-- What a packet that reaches the reader's judgement is: received over a link that holds, in order, awake. -/
theorem heardInOrder_some {s u : State} {rx : Rx} (h : heardInOrder s rx = some u) :
    (receive s rx).2 = true ∧ (linkOf (receive s rx).1 rx.node).lost = false ∧
      judgeSeq (linkOf (hearSequenced (receive s rx).1 rx) rx.node) rx.lseq = .inOrder ∧
      accepting (hearSequenced (receive s rx).1 rx) = true ∧ restNow (hearSequenced (receive s rx).1 rx) < 2 ∧
      u = wakeRun (hearSequenced (receive s rx).1 rx) := by
  unfold heardInOrder at h
  dsimp only at h
  split at h
  next hHeard =>
    simp only [Bool.and_eq_true, Bool.not_eq_true'] at hHeard
    split at h
    next hAll => exact ⟨hHeard.1, hHeard.2, hAll.1, hAll.2.1, hAll.2.2, (Option.some.inj h).symm⟩
    · exact absurd h (by simp)
  · exact absurd h (by simp)

section LinkLevel

variable {s : State} {rx : Rx} (pass : State → State × Bool) (go : State → State)

theorem linkLevel_heard {u : State} (h : heardInOrder s rx = some u) :
    linkLevel s rx pass go = if (pass u).2 then go (acceptIn (pass u).1 rx.node) else (pass u).1 := by
  obtain ⟨hReceived, hHolds, hInOrder, hAccepting, hAwake, rfl⟩ := heardInOrder_some h
  unfold linkLevel
  dsimp only
  rw [hReceived, hHolds, hInOrder, hAccepting]
  simp only [Bool.not_true, Bool.or_self, Bool.false_eq_true, if_false, if_neg (Nat.not_le.mpr hAwake)]

theorem linkLevel_accepted {u : State} (h : accepted s rx = some u) : linkLevel s rx admitAll go = go u := by
  obtain ⟨v, hHeard, hAccepted⟩ := Option.map_eq_some_iff.mp h
  rw [linkLevel_heard admitAll go hHeard, ← hAccepted]
  rfl

variable (hReceived : (receive s rx).2 = true) (hHolds : (linkOf (receive s rx).1 rx.node).lost = false)

include hReceived hHolds

theorem linkLevel_duplicate (h : judgeSeq (linkOf (hearSequenced (receive s rx).1 rx) rx.node) rx.lseq = .duplicate) :
    linkLevel s rx pass go =
      { hearSequenced (receive s rx).1 rx with linkDup := (hearSequenced (receive s rx).1 rx).linkDup + 1 } := by
  unfold linkLevel
  dsimp only
  rw [hReceived, hHolds, h]
  rfl

theorem linkLevel_ahead (h : judgeSeq (linkOf (hearSequenced (receive s rx).1 rx) rx.node) rx.lseq = .ahead) :
    linkLevel s rx pass go =
      { hearSequenced (receive s rx).1 rx with linkAhead := (hearSequenced (receive s rx).1 rx).linkAhead + 1 } := by
  unfold linkLevel
  dsimp only
  rw [hReceived, hHolds, h]
  rfl

end LinkLevel

theorem rejectPacket_accepted {s u : State} {rx : Rx} (p : Packet) (h : accepted s rx = some u) :
    rejectPacket rx p s = occur { u with linkReject := u.linkReject + 1 } blkLNK 0x111 (headWord p) (put32 rx.node.toNat 6 0) :=
  linkLevel_accepted _ h

theorem wellFormedOnly_malformed {p : Packet} (rx : Rx) (go : State → State) (s : State) (h : malformed p = true) :
    wellFormedOnly rx p go s = rejectPacket rx p s := if_pos h

theorem wellFormedOnly_passes {p : Packet} (rx : Rx) (go : State → State) (s : State) (h : malformed p = false) :
    wellFormedOnly rx p go s = go s := if_neg (by rw [h]; decide)

theorem exec_packetRejected {bytes : List Byte} {p : Packet} (rx : Rx) (s : State) (h : packetOfBytes bytes = some p) :
    exec (.packetRejected rx bytes) s = .next (wellFormedOnly (rxOf rx p.hd) p id s) := by
  refine next_congr ?_
  rw [h]

/-- Every request command is its packet's request. -/
theorem exec_request {i : Instr} {rq : Req} {ty : Byte} {len : Nat} (h : requestOf i = some (rq, ty, len)) :
    ∃ p run, packetOf i = some p ∧ p.hd.type = ty ∧ p.payload.length = len ∧ ∀ s, exec i s = .next (request rq p run s) := by
  cases i
  case close r => cases h; exact ⟨_, _, rfl, rfl, rfl, fun _ => rfl⟩
  case regionWrite r k o l => cases h; exact ⟨_, _, rfl, rfl, rfl, fun _ => rfl⟩
  case regionRead r k o n => cases h; exact ⟨_, _, rfl, rfl, rfl, fun _ => rfl⟩
  case regWrite r a v => cases h; exact ⟨_, _, rfl, rfl, rfl, fun _ => rfl⟩
  case regRead r a n => cases h; exact ⟨_, _, rfl, rfl, rfl, fun _ => rfl⟩
  case doorbell r n t => cases h; exact ⟨_, _, rfl, rfl, rfl, fun _ => rfl⟩
  case send r t l => cases h; exact ⟨_, _, rfl, rfl, rfl, fun _ => rfl⟩
  case post r es => cases h; exact ⟨_, _, rfl, rfl, bytesOf_length es, fun _ => rfl⟩
  all_goals cases h

/-- A request packet goes through the link whether or not R113 rejects it. -/
theorem request_linkLevel (rq : Req) (p : Packet) (run : State → Conn → State × Answered) (s : State) :
    ∃ pass go, request rq p run s = linkLevel s rq.rx pass go := by
  unfold request wellFormedOnly
  split
  · exact ⟨_, _, rfl⟩
  · exact ⟨_, _, rfl⟩

/-- Settles O21: the link's judgement case by case, for a rejected packet and for every request. -/
theorem packetsPassTheLinkInOrder : Obligations.PacketsPassTheLinkInOrder := by
  refine fun s rx => ⟨fun u hAccepted => ?_, fun bytes p hBytes => ⟨fun u hBad hAccepted => ?_, fun hGood => ?_⟩,
    fun i rq ty len hRequest hRx => ⟨fun p u hPacket hBad hAccepted => ?_, fun hReceived hHolds => ?_⟩⟩
  · obtain ⟨h, hHeard, hIs⟩ := Option.map_eq_some_iff.mp hAccepted
    have hInOrder := judgeSeq_inOrder (heardInOrder_some hHeard).2.2.1
    refine ⟨h, hHeard, hIs.symm, ?_, ?_⟩
    · rw [← hIs, acceptIn, linkOf_setLink_self]
      rfl
    · rw [(heardInOrder_some hHeard).2.2.2.2.2]
      exact hInOrder
  · rw [exec_packetRejected rx s hBytes, wellFormedOnly_malformed _ _ _ hBad]
    exact next_congr (rejectPacket_accepted p hAccepted)
  · rw [exec_packetRejected rx s hBytes, wellFormedOnly_passes _ _ _ hGood]
    rfl
  · obtain ⟨q, run, hPacket', -, -, hExec⟩ := exec_request hRequest
    cases hPacket.symm.trans hPacket'
    subst hRx
    rw [hExec, request, wellFormedOnly_malformed _ _ _ hBad]
    exact next_congr (rejectPacket_accepted p hAccepted)
  · obtain ⟨q, run, -, -, -, hExec⟩ := exec_request hRequest
    obtain ⟨pass, go, hLink⟩ := request_linkLevel rq q run s
    subst hRx
    rw [hExec, hLink]
    exact ⟨fun h => next_congr (linkLevel_duplicate pass go hReceived hHolds h),
      fun h => next_congr (linkLevel_ahead pass go hReceived hHolds h)⟩

end Sys2Proof.Machine
end

section
/-! Requests on connections (chapter 04): acceptance, the judgement by sequence, and the answer. -/

namespace Sys2Proof.Machine

/-! ### Memory and contexts -/

theorem memWrite_eq (s : State) (a : Nat) (l : List Byte) :
    memWrite s a l = { s with mem := (memWrite s a l).mem, badMem := (memWrite s a l).badMem } := by
  induction l generalizing s a with
  | nil => rfl
  | cons b t ih =>
    refine (ih (memSet s a b) (a + 1)).trans ?_
    rw [memWrite]
    unfold memSet
    split <;> rfl

theorem spillOne_eq (s : State) : spillOne s = { s with
    mem := (spillOne s).mem, badMem := (spillOne s).badMem, cache := (spillOne s).cache, spills := (spillOne s).spills } := by
  unfold spillOne
  split
  · rfl
  · split
    · rfl
    · unfold spillContext
      dsimp only
      split
      · rfl
      · rw [memWrite_eq]

/-- Using a context touches the cache, its counts, and memory through a spill (R129). -/
theorem useContext_eq (s : State) (k : Nat) : useContext s k = { s with
    mem := (useContext s k).mem, badMem := (useContext s k).badMem, cache := (useContext s k).cache
    spills := (useContext s k).spills, loads := (useContext s k).loads } := by
  unfold useContext
  split
  · rfl
  · rw [spillOne_eq]

theorem connFor_of_conns {s t : State} (h : t.conns = s.conns) (k : BitVec 10) (n : BitVec 6) : connFor t k n = connFor s k n := by
  simp only [connFor, h]

theorem connFor_some {s : State} {k : BitVec 10} {n : BitVec 6} {c : Conn} (h : connFor s k n = some c) :
    tget s.conns k.toNat = some c ∧ c.node = n := by
  unfold connFor at h
  split at h
  next x hx =>
    split at h
    next hNode => exact ⟨hx.trans h, by cases h; exact hNode⟩
    · exact absurd h (by simp)
  · exact absurd h (by simp)

/-! ### Acceptance (R129, R133, R135) -/

/-- A request is in the judgement of its sequence. -/
theorem requestIn_some {s v : State} {rq : Req} {len : Nat} {c : Conn} (h : requestIn s rq len = some (v, c)) :
    ∃ u, heardInOrder s rq.rx = some u ∧ connFor u rq.conn rq.rx.node = some c ∧ contextReads u rq.conn.toNat c = true ∧
      c.used + reqCost len ≤ c.grant ∧
      v = { acceptIn (useContext u rq.conn.toNat) rq.rx.node with
        conns := tset (acceptIn (useContext u rq.conn.toNat) rq.rx.node).conns rq.conn.toNat { c with used := c.used + reqCost len } } := by
  unfold requestIn at h
  cases hHeard : heardInOrder s rq.rx with
  | none => rw [hHeard] at h; cases h
  | some u =>
    simp only [hHeard] at h
    cases hConn : connFor u rq.conn rq.rx.node with
    | none => rw [hConn] at h; cases h
    | some x =>
      simp only [hConn] at h
      split at h
      next hBoth =>
        cases h
        exact ⟨u, rfl, hConn, hBoth.1, hBoth.2, rfl⟩
      · cases h

theorem contextFailing_nil {u : State} {k : Nat} {c : Conn} (h : contextReads u k c = true) :
    (if u.cache.contains k then [] else chargedFailing u c.base 128) = [] := by
  unfold contextReads at h
  split
  · rfl
  next hOut =>
    rw [Bool.not_eq_true] at hOut
    rw [hOut, Bool.false_or] at h
    exact List.isEmpty_iff.mp h

section Admission

variable {u : State} {rq : Req} {len : Nat} {c : Conn} (hConn : connFor u rq.conn rq.rx.node = some c)
  (hReads : contextReads u rq.conn.toNat c = true)

include hConn hReads

theorem admitRequest_admits (hFits : c.used + reqCost len ≤ c.grant) :
    admitRequest rq len u = (useContext u rq.conn.toNat, true) := by
  unfold admitRequest
  simp only [hConn, contextFailing_nil hReads, if_neg (Nat.not_lt.mpr hFits)]
  rfl

theorem admitRequest_exceeds (hExceeds : c.grant < c.used + reqCost len) : admitRequest rq len u =
    (occur (useContext u rq.conn.toNat) blkLNK 0x112 (put32 rq.conn.toNat 10 0) 0, false) := by
  unfold admitRequest
  simp only [hConn, contextFailing_nil hReads, if_pos hExceeds]
  rfl

end Admission

theorem admitRequest_unopened {u : State} {rq : Req} (len : Nat) (h : connFor u rq.conn rq.rx.node = none) :
    admitRequest rq len u = (u, true) := by
  unfold admitRequest
  rw [h]

/-- An accepted request is judged by its sequence. -/
theorem serveRequest_in {s v : State} {rq : Req} {len : Nat} {c : Conn} (ty : Byte) (run : State → Conn → State × Answered)
    (h : requestIn s rq len = some (v, c)) :
    ∃ w, serveRequest rq ty len run s = judgeRequest w rq ty len c run ∧
      v = { w with conns := tset w.conns rq.conn.toNat { c with used := c.used + reqCost len } } := by
  obtain ⟨u, hHeard, hConn, hReads, hFits, hv⟩ := requestIn_some h
  refine ⟨_, ?_, hv⟩
  have hConn' : connFor (acceptIn (useContext u rq.conn.toNat) rq.rx.node) rq.conn rq.rx.node = some c := by
    refine (connFor_of_conns ?_ _ _).trans hConn
    rw [useContext_eq]
    rfl
  unfold serveRequest
  rw [linkLevel_heard _ _ hHeard, admitRequest_admits hConn hReads hFits]
  simp only [if_true, hConn']

/-! ### Judgement by sequence (R146) -/

section Judgement

variable {w : State} {rq : Req} {ty : Byte} {len : Nat} {c : Conn} (run : State → Conn → State × Answered)

/-- A new request is carried out on the connection with EXPSEQ advanced, and answered unless its own effect closed it. -/
theorem judgeRequest_next (h : rq.rseq = c.exp) {v : State}
    (hv : v = { w with conns := tset w.conns rq.conn.toNat { c with used := c.used + reqCost len, exp := c.exp + 1 } }) :
    judgeRequest w rq ty len c run =
      if (tget (run v c).1.conns rq.conn.toNat).isNone = true ∧ ty ≠ 0x12 then (run v c).1
      else responded (run v c).1 rq ty len c (run v c).2 := by
  subst hv
  have hZero : (rq.rseq - c.exp).toNat = 0 := by rw [h, BitVec.sub_self]; rfl
  unfold judgeRequest
  dsimp only
  rw [if_pos hZero, tmod_tset_self]
  rfl

theorem seqDistance_pos {rq : Req} {c : Conn} (h : rq.rseq ≠ c.exp) : (rq.rseq - c.exp).toNat ≠ 0 := by
  bv_omega

variable {v : State} (hv : v = { w with conns := tset w.conns rq.conn.toNat { c with used := c.used + reqCost len } })
  (hOther : rq.rseq ≠ c.exp)

include hv hOther

/-- A repeat within the last 32 whose response is stored and reads well gets that response again. -/
theorem judgeRequest_repeat (h : 65504 ≤ (rq.rseq - c.exp).toNat) {rep : Reply} (hStored : storedReply c rq.rseq = some rep)
    (hReads : chargedFailing v (c.base + 128 + 264 * (rq.rseq.toNat % 32)) 264 = []) :
    judgeRequest w rq ty len c run = enqueue (occur v blkCON 0x204 (put32 rq.conn.toNat 10 0) (put32 rq.rseq.toNat 16 0)) rq.rx.node
      { reply := rep, replay := true, credit := reqCost len } := by
  have hGood : (chargedFailing (occur v blkCON 0x204 (put32 rq.conn.toNat 10 0) (put32 rq.rseq.toNat 16 0))
      (replayBase c + 264 * (rq.rseq.toNat % 32)) 264).isEmpty = true := by
    rw [List.isEmpty_iff, occur_eq]
    exact hReads
  subst hv
  unfold judgeRequest
  dsimp only
  rw [if_neg (seqDistance_pos hOther), if_pos h]
  simp only [hStored]
  exact if_pos hGood

/-- A repeat whose response is no longer stored, and one older than 32, is STALE. -/
theorem judgeRequest_stale (h : 32768 ≤ (rq.rseq - c.exp).toNat)
    (hGone : 65504 ≤ (rq.rseq - c.exp).toNat → storedReply c rq.rseq = none) :
    judgeRequest w rq ty len c run = replied (occur v blkCON 0x205 (put32 rq.conn.toNat 10 0) (put32 rq.rseq.toNat 16 0)) rq ty len
      (epochOf v c.d) { rst := 1 } false := by
  have hEpoch : epochOf (occur v blkCON 0x205 (put32 rq.conn.toNat 10 0) (put32 rq.rseq.toNat 16 0)) c.d = epochOf v c.d := by
    rw [occur_eq]
    rfl
  rw [← hEpoch]
  subst hv
  unfold judgeRequest
  dsimp only
  rw [if_neg (seqDistance_pos hOther)]
  by_cases hRecent : 65504 ≤ (rq.rseq - c.exp).toNat
  · simp only [if_pos hRecent, hGone hRecent]
    rfl
  · rw [if_neg hRecent, if_pos h]
    rfl

theorem judgeRequest_gap (h : (rq.rseq - c.exp).toNat < 32768) :
    judgeRequest w rq ty len c run = replied v rq ty len (epochOf v c.d) { rst := 2 } false := by
  subst hv
  unfold judgeRequest
  dsimp only
  rw [if_neg (seqDistance_pos hOther), if_neg (by omega), if_neg (by omega)]
  rfl

end Judgement

/-- A request that R113 passes is served. -/
theorem request_passes {rq : Req} {p : Packet} (run : State → Conn → State × Answered) (s : State) (h : malformed p = false) :
    request rq p run s = serveRequest rq p.hd.type p.payload.length run s := wellFormedOnly_passes _ _ _ h

theorem exec_served {i : Instr} {rq : Req} {ty : Byte} {len : Nat} (h : requestOf i = some (rq, ty, len)) (hPasses : passes i = true) :
    ∃ run, ∀ s, exec i s = .next (serveRequest rq ty len run s) := by
  obtain ⟨p, run, hPacket, hType, hLen, hExec⟩ := exec_request h
  have hGood : malformed p = false := by
    simpa [passes, hPacket] using hPasses
  refine ⟨run, fun s => (hExec s).trans (next_congr ?_)⟩
  rw [request_passes run s hGood, hType, hLen]

/-- Settles O29: each judgement of a request that is not the next one, and the two at its acceptance. -/
theorem requestsOutOfTurnHaveNoEffect : Obligations.RequestsOutOfTurnHaveNoEffect := by
  refine ⟨fun i s v c rq ty len hRequest hPasses hIn hOther => ?_, fun i s u rq ty len hRequest hPasses hHeard => ?_⟩
  · obtain ⟨run, hExec⟩ := exec_served hRequest hPasses
    obtain ⟨w, hServed, hv⟩ := serveRequest_in ty run hIn
    rw [hExec, hServed]
    exact ⟨fun hRecent => ⟨fun rep hStored hReads => next_congr (judgeRequest_repeat run hv hOther hRecent hStored hReads),
        fun hGone => next_congr (judgeRequest_stale run hv hOther (by omega) fun _ => hGone)⟩,
      fun hOld hPast => next_congr (judgeRequest_stale run hv hOther hOld fun h => absurd h (by omega)),
      fun hAhead => next_congr (judgeRequest_gap run hv hOther hAhead)⟩
  · obtain ⟨run, hExec⟩ := exec_served hRequest hPasses
    have hServed := linkLevel_heard (admitRequest rq len) (fun s => match connFor s rq.conn rq.rx.node with
      | none => answerNoConn s rq ty
      | some c => judgeRequest s rq ty len c run) hHeard
    refine ⟨fun c hConn hReads hExceeds => ⟨?_, ?_⟩, fun hConn => ?_⟩
    · rw [admitRequest_exceeds hConn hReads hExceeds] at hServed
      exact (hExec s).trans (next_congr hServed)
    · rw [occur_links, useContext_eq]
    · rw [admitRequest_unopened len hConn] at hServed
      have hStill : connFor (acceptIn u rq.rx.node) rq.conn rq.rx.node = none := (connFor_of_conns rfl _ _).trans hConn
      simp only [if_true, hStill] at hServed
      exact ⟨_, (hExec s).trans (next_congr hServed)⟩

end Sys2Proof.Machine
end

section
/-! Requests and their effects (chapter 04): the answer to a new request; OPEN, CLOSE and CON.KILL; requests on regions. -/

namespace Sys2Proof.Machine

/-! ### Connections but for their event queues -/

/-- The connections of two states are the same but for their event queues. -/
def SameConns (s t : State) : Prop := ∀ k, (tget t.conns k).map Conn.quiet = (tget s.conns k).map Conn.quiet

theorem SameConns.refl (s : State) : SameConns s s := fun _ => rfl

theorem SameConns.trans {s t u : State} (h : SameConns s t) (k : SameConns t u) : SameConns s u := fun j => (k j).trans (h j)

theorem SameConns.of_eq {s t : State} (h : t.conns = s.conns) : SameConns s t := fun k => by rw [h]

theorem SameConns.isSome {s t : State} (h : SameConns s t) (k : Nat) : (tget t.conns k).isSome = (tget s.conns k).isSome := by
  have := congrArg Option.isSome (h k)
  rwa [Option.isSome_map, Option.isSome_map] at this

theorem OnlyNoted.sameConns {s t : State} (h : OnlyNoted s t) : SameConns s t := h.2.1

theorem occur_sameConns (s : State) (b : Nat) (c : BitVec 12) (p0 p1 : W32) : SameConns s (occur s b c p0 p1) :=
  (occurAt_onlyNoted s _ _ b c p0 p1).sameConns

theorem violate_sameConns (s : State) (d : Dom) (v : Viol) (o : Origin) : SameConns s (violate s d v o) :=
  (violate_onlyNoted s d v o).sameConns

theorem foldl_sameConns {α : Type} (g : State → α → State) (hg : ∀ u a, SameConns u (g u a)) (l : List α) (u : State) :
    SameConns u (l.foldl g u) := by
  induction l generalizing u with
  | nil => exact .refl u
  | cons a t ih => exact (hg u a).trans (ih _)

theorem noteFailing_sameConns (s : State) (kind : Nat) (l : List Nat) : SameConns s (noteFailing s kind l) :=
  foldl_sameConns (fun u w => noteParity u kind w (failMask l w)) (fun _ _ => occur_sameConns _ blkBUF 0x801 _ _) _ s

theorem memWrite_sameConns (s : State) (a : Nat) (l : List Byte) : SameConns s (memWrite s a l) :=
  .of_eq (by rw [memWrite_eq])

theorem refreshRest_sameConns (s : State) : SameConns s (refreshRest s) := by
  unfold refreshRest
  dsimp only
  split
  · exact .refl s
  · exact occur_sameConns _ _ _ _ _

theorem denied_sameConns (s : State) (b : Nat) : SameConns s (denied s b) := .of_eq rfl

theorem guardedWrite_sameConns (s : State) (d : Dom) (b o : Nat) (og : Origin) (eff : State → State) (h : SameConns s (eff s)) :
    SameConns s (guardedWrite s d b o og eff) := by
  unfold guardedWrite
  split
  · exact .refl s
  · split
    · exact violate_sameConns _ _ _ _
    · split
      · exact violate_sameConns _ _ _ _
      · split
        · exact denied_sameConns s b
        · exact h

/-! ### The answer to a new request (R137, R146) -/

theorem taken_some {s u : State} {rq : Req} {len : Nat} {c : Conn} (h : taken s rq len = some (u, c)) :
    ∃ v, requestIn s rq len = some (v, c) ∧ rq.rseq = c.exp ∧
      u = { v with conns := tset v.conns rq.conn.toNat { c with used := c.used + reqCost len, exp := c.exp + 1 } } := by
  unfold taken at h
  cases hIn : requestIn s rq len with
  | none => rw [hIn] at h; cases h
  | some x =>
    rw [hIn] at h
    dsimp only at h
    split at h
    next hNext =>
      obtain ⟨hState, rfl⟩ := Prod.mk.inj (Option.some.inj h)
      exact ⟨x.1, rfl, hNext, hState.symm⟩
    · cases h

theorem taken_conn {s u : State} {rq : Req} {len : Nat} {c : Conn} (h : taken s rq len = some (u, c)) :
    tget u.conns rq.conn.toNat = some { c with used := c.used + reqCost len, exp := c.exp + 1 } := by
  obtain ⟨v, -, -, rfl⟩ := taken_some h
  exact tget_tset_self _ _ _

section Taken

variable {s u : State} {rq : Req} {p : Packet} {c : Conn} (run : State → Conn → State × Answered) (hGood : malformed p = false)
  (h : taken s rq p.payload.length = some (u, c))

include hGood h

/-- A new request is carried out, and answered unless its own effect closed its connection. -/
theorem request_taken : request rq p run s =
    if (tget (run u c).1.conns rq.conn.toNat).isNone = true ∧ p.hd.type ≠ 0x12 then (run u c).1
    else responded (run u c).1 rq p.hd.type p.payload.length c (run u c).2 := by
  obtain ⟨v, hIn, hNext, rfl⟩ := taken_some h
  obtain ⟨w, hServed, rfl⟩ := serveRequest_in p.hd.type run hIn
  rw [request_passes run s hGood, hServed]
  exact judgeRequest_next run hNext (by rw [tset_tset])

/-- One whose effect leaves its connection standing is answered. -/
theorem request_standing (hStands : (tget (run u c).1.conns rq.conn.toNat).isSome = (tget u.conns rq.conn.toNat).isSome) :
    request rq p run s = responded (run u c).1 rq p.hd.type p.payload.length c (run u c).2 := by
  rw [request_taken run hGood h, if_neg]
  rintro ⟨hNone, -⟩
  rw [taken_conn h, Option.isNone_iff_eq_none.mp hNone] at hStands
  exact Bool.false_ne_true hStands

theorem request_answered (hKept : SameConns u (run u c).1) :
    request rq p run s = responded (run u c).1 rq p.hd.type p.payload.length c (run u c).2 :=
  request_standing run hGood h (hKept.isSome _)

end Taken

theorem passes_packet {i : Instr} {p : Packet} (h : passes i = true) (hPacket : packetOf i = some p) : malformed p = false := by
  simpa [passes, hPacket] using h

/-! ### OPEN (R124-R130, R156) -/

theorem exec_openConn_accepted {s u : State} {rx : Rx} {nonce key : W32} {d : Dom} {events pin : Bool} {credits : Byte} {rseq0 : W16}
    (hPasses : passes (.openConn rx nonce key d events pin credits rseq0) = true) (h : accepted s rx = some u) :
    exec (.openConn rx nonce key d events pin credits rseq0) s =
      .next (judgeOpen u rx.node nonce key d events pin credits.toNat rseq0) := by
  refine next_congr ?_
  rw [wellFormedOnly_passes _ _ _ (passes_packet hPasses rfl)]
  exact linkLevel_accepted _ h

/-- The context that an accepted OPEN makes. -/
def openedConn (u : State) (node : BitVec 6) (nonce : W32) (d : Dom) (events pin : Bool) (credits : Nat) (rseq0 : W16) (a : Nat) : Conn :=
  { d := d, events := events, node := node, grant := min credits (maxCred u), used := 0, nonce := nonce, exp := rseq0
    openFrame := u.now.frame, base := a, len := chargeLen (min credits (maxCred u))
    pinned := pin && decide (pinnedCount u < 32) &&
      decide (pinnedIn u d < fld (regGet u blkCON 0x88) (4 * d.toNat + 3) (4 * d.toNat)) }

/-- The part with the new context, before the OPEN is recorded and answered. -/
def openedState (u : State) (k a : Nat) (c : Conn) : State :=
  { spillOne (memForget u a c.len) with
    conns := tset (spillOne (memForget u a c.len)).conns k c
    cache := (spillOne (memForget u a c.len)).cache ++ [k]
    pmu := { (spillOne (memForget u a c.len)).pmu with armed := false } }

theorem enqueue_sameConns (s : State) (node : BitVec 6) (q : Queued) : SameConns s (enqueue s node q) := .of_eq rfl

theorem openedState_eq (u : State) (k a : Nat) (c : Conn) : ∃ m b l x,
    openedState u k a c = { u with
      mem := m, badMem := b, cache := l, spills := x, conns := tset u.conns k c, pmu := { u.pmu with armed := false } } := by
  unfold openedState
  rw [spillOne_eq]
  exact ⟨_, _, _, _, rfl⟩

section Accepted

variable (u : State) (node : BitVec 6) (nonce : W32) (d : Dom) (events pin : Bool) (credits : Nat) (rseq0 : W16) (k a : Nat)

/-- The new context is recorded and answered. -/
theorem acceptOpen_eq : ∃ p0 q, acceptOpen u node nonce d events pin credits rseq0 k a =
    enqueue (refreshRest (occur (openedState u k a (openedConn u node nonce d events pin credits rseq0 a)) blkCON 0x201 p0 nonce)) node q :=
  ⟨_, _, rfl⟩

theorem acceptOpen_sameConns : SameConns (openedState u k a (openedConn u node nonce d events pin credits rseq0 a))
    (acceptOpen u node nonce d events pin credits rseq0 k a) := by
  obtain ⟨p0, q, hAccept⟩ := acceptOpen_eq u node nonce d events pin credits rseq0 k a
  rw [hAccept]
  exact ((occur_sameConns _ _ _ _ _).trans (refreshRest_sameConns _)).trans (enqueue_sameConns _ _ _)

theorem outsideConns_acceptOpen : outsideConns (acceptOpen u node nonce d events pin credits rseq0 k a) =
    outsideConns (openedState u k a (openedConn u node nonce d events pin credits rseq0 a)) := by
  obtain ⟨p0, q, hAccept⟩ := acceptOpen_eq u node nonce d events pin credits rseq0 k a
  rw [hAccept]
  exact ((outsideConns_setLink _ _ _).trans (outsideConns_refreshRest _)).trans (outsideConns_occur _ _ _ _ _)

/-- What an accepted OPEN leaves (R125, R128). -/
theorem acceptOpen_spec : ∃ p, (tget (acceptOpen u node nonce d events pin credits rseq0 k a).conns k).map Conn.quiet = some
      { d := d, events := events, pinned := p, node := node, grant := min credits (maxCred u), used := 0, nonce := nonce, exp := rseq0
        openFrame := u.now.frame, base := a, len := 9600 + 256 * min credits (maxCred u) } ∧
    (∀ j, j ≠ k → (tget (acceptOpen u node nonce d events pin credits rseq0 k a).conns j).map Conn.quiet =
      (tget u.conns j).map Conn.quiet) ∧
    (pin = false → p = false) ∧
    (acceptOpen u node nonce d events pin credits rseq0 k a).pmu.armed = false ∧
    (acceptOpen u node nonce d events pin credits rseq0 k a).regions = u.regions ∧
    (acceptOpen u node nonce d events pin credits rseq0 k a).segA = u.segA ∧
    (acceptOpen u node nonce d events pin credits rseq0 k a).segB = u.segB := by
  have hSame := acceptOpen_sameConns u node nonce d events pin credits rseq0 k a
  have hOutside := outsideConns_acceptOpen u node nonce d events pin credits rseq0 k a
  obtain ⟨m, b, l, x, hOpened⟩ := openedState_eq u k a (openedConn u node nonce d events pin credits rseq0 a)
  rw [hOpened] at hSame hOutside
  generalize acceptOpen u node nonce d events pin credits rseq0 k a = t at hSame hOutside ⊢
  refine ⟨(openedConn u node nonce d events pin credits rseq0 a).pinned, (hSame k).trans ?_, fun j hj => (hSame j).trans ?_, fun hPin => ?_,
    (congrArg (fun s => s.pmu.armed) hOutside :), (congrArg State.regions hOutside :), (congrArg State.segA hOutside :),
    (congrArg State.segB hOutside :)⟩
  · rw [tget_tset_self]
    rfl
  · rw [tget_tset_ne _ _ hj]
  · rw [openedConn, hPin]
    rfl

end Accepted

/-! ### CLOSE and CON.KILL (R132) -/

theorem closeConn_conns {s : State} {k : Nat} (cause : Nat) {c : Conn} (h : tget s.conns k = some c) :
    tget (closeConn s k cause).conns k = none ∧
      ∀ j, j ≠ k → (tget (closeConn s k cause).conns j).map Conn.quiet = (tget s.conns j).map Conn.quiet := by
  have hSame : SameConns { setLink s c.node { linkOf s c.node with
      queue := (linkOf s c.node).queue.filter fun q => decide (replyConn q.reply ≠ some k)
      unacked := (linkOf s c.node).unacked.map (orphan k), resend := (linkOf s c.node).resend.map (orphan k) } with
        conns := terase s.conns k, cache := s.cache.erase k } (closeConn s k cause) := by
    unfold closeConn
    rw [h]
    exact (occur_sameConns _ _ _ _ _).trans (refreshRest_sameConns _)
  refine ⟨?_, fun j hj => (hSame j).trans ?_⟩
  · have hGone := hSame k
    rwa [tget_terase_self, Option.map_none, Option.map_eq_none_iff] at hGone
  · rw [tget_terase_ne _ hj]

theorem closeConn_queue {s : State} {k : Nat} (cause : Nat) {c : Conn} (h : tget s.conns k = some c) :
    (linkOf (closeConn s k cause) c.node).queue =
      (linkOf s c.node).queue.filter fun q => decide (replyConn q.reply ≠ some k) := by
  unfold closeConn
  rw [h]
  dsimp only
  rw [linkOf_refreshRest, linkOf_occur]
  exact congrArg LinkSt.queue (linkOf_setLink_self s c.node _)

/-- Settles O25: the judgement of an OPEN, and what closing leaves. -/
theorem connectionsOpenAndClose : Obligations.ConnectionsOpenAndClose := by
  refine ⟨fun s u rx nonce key d events pin credits rseq0 hPasses hAccepted => ?_, fun s u rq c hTaken => ?_, fun s w v hMay hGo => ?_,
    fun s k cause c hConn => ?_⟩
  · rw [exec_openConn_accepted hPasses hAccepted]
    unfold judgeOpen
    refine ⟨fun hNot => ?_, fun hAdmits k c hSame => ?_, fun hAdmits hNew => ⟨fun hNone => ?_, fun k hFree => ⟨fun hNoRun => ?_, fun a hRun => ?_⟩⟩⟩
    · rw [hNot]
      rfl
    · simp only [hAdmits, Bool.not_true, Bool.false_eq_true, if_false, hSame]
      rfl
    · simp only [hAdmits, Bool.not_true, Bool.false_eq_true, if_false, hNew, hNone]
    · simp only [hAdmits, Bool.not_true, Bool.false_eq_true, if_false, hNew, hFree, chargeLen, hNoRun]
    · simp only [hAdmits, Bool.not_true, Bool.false_eq_true, if_false, hNew, hFree, chargeLen, hRun]
      obtain ⟨p, hSpec⟩ := acceptOpen_spec u rx.node nonce d events pin credits.toNat rseq0 k a
      exact ⟨_, p, rfl, hSpec⟩
  · refine next_congr ?_
    rw [request_taken (runClose rq) (closePacket_readsAs rq).1 hTaken, if_neg (fun hBoth => hBoth.2 rfl)]
    rfl
  · exact next_congr ((guardedWrite_of_mayWrite _ _ hMay).trans (if_pos hGo))
  · obtain ⟨hGone, hOthers⟩ := closeConn_conns cause hConn
    have hOutside := outsideConns_closeConn s k cause
    exact ⟨hGone, hOthers, closeConn_queue cause hConn, (congrArg State.mem hOutside :), (congrArg State.regions hOutside :)⟩

/-! ### Requests on regions (R137, R138, R178) -/

theorem memReadZeroed_of_good {s : State} {a n : Nat} (h : failing s a n = []) : memReadZeroed s a n = memRead s a n := by
  induction n generalizing a with
  | zero => rfl
  | succ n ih =>
    unfold failing at h
    split at h
    · exact absurd h (by simp)
    next hGood =>
      rw [memReadZeroed, memRead, if_neg hGood, ih h]

/-- Settles O26: the effect of a region request, and the answer to it. -/
theorem regionRequestsMoveBytes : Obligations.RegionRequestsMoveBytes := by
  refine ⟨fun s u c rq key offset data hPasses hTaken => ?_, fun s u c rq key offset len hPasses hTaken => ?_⟩
  · have hGood := passes_packet hPasses rfl
    have hAnswer := request_answered (runRegionWrite rq key offset.toNat data) hGood hTaken
    refine ⟨fun a hRight hFits => ?_, fun v hWrong => ?_⟩
    · have hRun : runRegionWrite rq key offset.toNat data u c = (memWrite u a data, done) := by
        unfold runRegionWrite
        rw [hRight]
      rw [hRun] at hAnswer
      exact ⟨_, next_congr (hAnswer (memWrite_sameConns u a data)), memRead_memWrite u a data hFits,
        fun x hx => hx.elim (memGet_memWrite_before u data) (memGet_memWrite_after u data), memWrite_eq u a data⟩
    · have hRun : runRegionWrite rq key offset.toNat data u c = (violate u c.d v (reqOrigin rq), done) := by
        unfold runRegionWrite
        rw [hWrong]
      rw [hRun] at hAnswer
      exact next_congr (hAnswer (violate_sameConns u c.d v _))
  · have hGood := passes_packet hPasses rfl
    have hAnswer := request_answered (runRegionRead rq key offset.toNat len.toNat) hGood hTaken
    refine ⟨fun a hRight => ?_, fun v hWrong => ?_⟩
    · have hRun : runRegionRead rq key offset.toNat len.toNat u c = (noteFailing u 1 (failing u a len.toNat),
          { rst := if (failing u a len.toNat).isEmpty then rstDONE else rstPARITY, data := memReadZeroed u a len.toNat }) := by
        unfold runRegionRead
        rw [hRight]
      rw [hRun] at hAnswer
      have hDone := next_congr (hAnswer (noteFailing_sameConns u 1 _))
      refine ⟨fun hReads => hDone.trans ?_, fun hFails => hDone.trans ?_⟩
      · rw [hReads, memReadZeroed_of_good hReads]
        rfl
      · rw [if_neg (fun h => hFails (List.isEmpty_iff.mp h))]
        rfl
    · have hRun : runRegionRead rq key offset.toNat len.toNat u c =
          (violate u c.d v (reqOrigin rq), { rst := rstDONE, data := List.replicate len.toNat 0 }) := by
        unfold runRegionRead
        rw [hWrong]
      rw [hRun] at hAnswer
      exact next_congr (hAnswer (violate_sameConns u c.d v _))

end Sys2Proof.Machine
end

section
/-! Register requests and doorbells (R137, R196, R197, R557), and SEND and POST (R139, R140). -/

namespace Sys2Proof.Machine

/-! ### Reads and doorbells leave connections standing -/

theorem noteRecord_sameConns (s : State) (q : W32) : SameConns s (noteRecord s q) := by
  unfold noteRecord
  split
  · exact .refl s
  · split
    · exact .refl s
    · exact occur_sameConns _ _ _ _ _

theorem setLatch_sameConns (s : State) (x : Latch) : SameConns s (setLatch s x) := .of_eq rfl

theorem noteWindow_sameConns (s : State) : SameConns s (noteWindow s) := foldl_sameConns _ noteRecord_sameConns _ s

theorem readReg_sameConns (s : State) (d : Dom) (b o : Nat) : SameConns s (readReg s d b o).1 := by
  unfold readReg
  split
  · exact .refl s
  · split
    · dsimp only
      split
      · exact (setLatch_sameConns s _).trans (noteWindow_sameConns _)
      · exact setLatch_sameConns s _
    · split
      · exact .refl s
      · dsimp only
        split
        · exact noteRecord_sameConns s _
        · exact .refl s

theorem readMany_sameConns (s : State) (d : Dom) (a n : Nat) : SameConns s (readMany s d a n).1 := by
  induction n generalizing s a with
  | zero => exact .refl s
  | succ n ih => exact (readReg_sameConns s d _ _).trans (ih _ _)

theorem readMany_one (s : State) (d : Dom) (a : Nat) :
    readMany s d a 1 = ((readReg s d (a / 4096) (a % 4096)).1, [(readReg s d (a / 4096) (a % 4096)).2]) := rfl

theorem occurRing_sameConns (s : State) (b : Nat) (d : Dom) (c : BitVec 12) (p0 p1 : W32) : SameConns s (occurRing s b d c p0 p1) :=
  (occurRing_onlyNoted s b d c p0 p1).sameConns

theorem noteSure_sameConns (s : State) (n : Nat) (f : W16) (k : Nat) : SameConns s (noteSure s n f k) := by
  unfold noteSure
  split
  · exact .refl s
  · exact .of_eq rfl

theorem ringDoorbell_sameConns (s : State) (n : Nat) (t : W16) : SameConns s (ringDoorbell s n t) := by
  unfold ringDoorbell
  split
  · exact .refl s
  · dsimp only
    split
    · exact .refl s
    · split
      · exact (SameConns.of_eq rfl).trans (noteSure_sameConns _ _ _ _)
      · exact (SameConns.of_eq rfl).trans (occurRing_sameConns _ _ _ _ _ _)

/-! ### A doorbell's effect on its ring (R196) -/

section Doorbell

variable {s : State} {n : Nat} {t : W16} {q : Sq} (h : tget s.sqs n = some q)

include h

theorem ringDoorbell_nothing (hb : (t - q.tail).toNat = 0 ∨ 32768 ≤ (t - q.tail).toNat) : ringDoorbell s n t = s := by
  unfold ringDoorbell
  rw [h]
  exact if_pos hb

theorem ringDoorbell_overrun (hNone : (t - q.tail).toNat ≠ 0) (hPast : (t - q.tail).toNat < 32768)
    (hFull : ringSize (sqCfg s n) < (q.tail - q.head).toNat + (t - q.tail).toNat) :
    ringDoorbell s n t = occurRing { s with sqs := tset s.sqs n { q with dbovr := q.dbovr + 1 } } blkWQS q.owner 0x301
      (put32 n 6 0 ||| put32 q.owner.toNat 4 8) (put32 t.toNat 16 0) := by
  unfold ringDoorbell
  rw [h]
  dsimp only
  rw [if_neg (by omega), if_neg (by omega)]

/-- A doorbell that fits raises TAIL, and commits the entries that may already run. -/
theorem ringDoorbell_fits (hNone : (t - q.tail).toNat ≠ 0) (hPast : (t - q.tail).toNat < 32768)
    (hFits : (q.tail - q.head).toNat + (t - q.tail).toNat ≤ ringSize (sqCfg s n)) :
    ∃ sure, ringDoorbell s n t = { s with sqs := tset s.sqs n { q with
      tail := t, receipts := q.receipts ++ [(t, cycles s)], sureCounts := q.sureCounts ++ sure } } := by
  unfold ringDoorbell
  rw [h]
  dsimp only
  rw [if_neg (by omega), if_pos hFits]
  unfold noteSure
  simp only [tget_tset_self, tset_tset]
  exact ⟨_, rfl⟩

end Doorbell

/-- Settles O27: the register access of the connection's domain, and the three cases of a doorbell. -/
theorem registerRequestsAndDoorbells : Obligations.RegisterRequestsAndDoorbells := by
  refine ⟨fun s u c rq addr v hPasses hTaken => ?_, fun s u c rq addr n hPasses hTaken => ?_, fun s u c rq n tail hTaken => ?_,
    fun s w n v q hMay hRing => ?_⟩
  · have hAnswer := request_taken (runRegWrite rq addr.toNat v) (passes_packet hPasses rfl) hTaken
    have hType : (regWritePacket rq addr v).hd.type ≠ 0x12 := (by decide : (0x22 : Byte) ≠ 0x12)
    refine ⟨fun hStands => next_congr (hAnswer.trans (if_neg fun hBoth => ?_)), fun hGone => next_congr (hAnswer.trans (if_pos ⟨?_, hType⟩))⟩
    · rw [← Option.not_isSome, Bool.not_eq_true'] at hBoth
      exact absurd (hStands.symm.trans hBoth.1) (by decide)
    · exact Option.isNone_iff_eq_none.mpr hGone
  · have hGood := passes_packet hPasses rfl
    have hAnswer := request_answered (runRegRead rq addr.toNat (n.toNat + 1)) hGood hTaken
    refine ⟨fun hAllowed => ⟨?_, fun hOne hPlain => ?_⟩, fun x hDenied => ?_⟩
    · have hRun : runRegRead rq addr.toNat (n.toNat + 1) u c = ((readMany u c.d addr.toNat (n.toNat + 1)).1,
          { rst := rstDONE, data := bytesOf (readMany u c.d addr.toNat (n.toNat + 1)).2 }) := by
        unfold runRegRead readRegs
        rw [hAllowed]
      rw [hRun] at hAnswer
      exact next_congr (hAnswer (readMany_sameConns u c.d _ _))
    · rw [hOne]
      have hLive : readReg u c.d (addr.toNat / 4096) (addr.toNat % 4096) = (u, liveReg u c.d (addrBlk addr) (addrOff addr)) :=
        readReg_live hPlain
      exact (readMany_one u c.d addr.toNat).trans (by rw [hLive])
    · have hRun : runRegRead rq addr.toNat (n.toNat + 1) u c = (violate u c.d x (reqOrigin rq),
          { rst := rstDONE, data := bytesOf (List.replicate (n.toNat + 1) 0) }) := by
        unfold runRegRead readRegs
        rw [hDenied]
      rw [hRun] at hAnswer
      exact next_congr (hAnswer (violate_sameConns u c.d x _))
  · exact next_congr (request_answered (runDoorbell rq n.toNat tail) (doorbellPacket_readsAs rq n tail).1 hTaken
      (guardedWrite_sameConns u c.d blkWQS _ _ _ (ringDoorbell_sameConns u n.toNat tail)))
  · have hRun : exec (.doorbellRegister w n v) s = .next (ringDoorbell s n.toNat (v.setWidth 16)) :=
      next_congr (guardedWrite_of_mayWrite _ _ hMay)
    rw [hRun]
    refine ⟨fun hSome hPast hFits => ?_, fun hNothing => next_congr (ringDoorbell_nothing hRing hNothing),
      fun hPast hFull hSome => next_congr (ringDoorbell_overrun hRing hSome hPast hFull)⟩
    obtain ⟨sure, hRaised⟩ := ringDoorbell_fits hRing hSome hPast hFits
    rw [hRaised]
    exact ⟨_, sure, rfl, rfl, tget_tset_self _ _ _, fun j hj => tget_tset_ne _ _ hj⟩

end Sys2Proof.Machine
end

section
/-! SEND and POST (R139, R140). -/

namespace Sys2Proof.Machine

/-! ### Charged space and regions under a changed connection (R128, R178) -/

/-- One connection's part in the search for the first charged address. -/
def lowerCharged (a n : Nat) (acc : Option Nat) (e : Nat × Conn) : Option Nat :=
  if max a e.2.base < min (a + n) (e.2.base + e.2.len) then
    match acc with
    | none => some (max a e.2.base)
    | some x => some (min x (max a e.2.base))
  else acc

theorem lowerCharged_eq_none_iff (a n : Nat) (acc : Option Nat) (e : Nat × Conn) :
    lowerCharged a n acc e = none ↔ acc = none ∧ ¬ max a e.2.base < min (a + n) (e.2.base + e.2.len) := by
  unfold lowerCharged
  split <;> cases acc <;> simp [*]

theorem foldl_lowerCharged_eq_none_iff (a n : Nat) (l : Tbl Conn) (acc : Option Nat) :
    l.foldl (lowerCharged a n) acc = none ↔
      acc = none ∧ ∀ e ∈ l, ¬ max a e.2.base < min (a + n) (e.2.base + e.2.len) := by
  induction l generalizing acc with
  | nil => simp
  | cons e t ih => rw [List.foldl_cons, ih, lowerCharged_eq_none_iff, List.forall_mem_cons, and_assoc]

theorem chargedIn_eq_none_iff (s : State) (a n : Nat) :
    chargedIn s a n = none ↔ ∀ e ∈ s.conns, ¬ max a e.2.base < min (a + n) (e.2.base + e.2.len) :=
  (foldl_lowerCharged_eq_none_iff a n s.conns none).trans (and_iff_right rfl)

theorem checkBytes_eq_ok_iff (s : State) (a n x : Nat) :
    checkBytes s a n = .ok x ↔ chargedIn s a n = none ∧ retiredIn s a n = none ∧ a = x := by
  unfold checkBytes
  cases chargedIn s a n <;> cases retiredIn s a n <;> simp

theorem checkRegion_eq_ok_iff (s : State) (d : Dom) (key : W32) (off n : Nat) (wr : Bool) (a : Nat) :
    checkRegion s d key off n wr = .ok a ↔ ∃ r, keyed s d key = some r ∧
      ((if wr then r.wr else r.rd) && decide (0 < n) && decide (off + n ≤ (regionSpan s r).2)) = true ∧
      checkBytes s ((regionSpan s r).1 + off) n = .ok a := by
  unfold checkRegion
  cases keyed s d key with
  | none => simp
  | some r =>
    simp only [Option.some.injEq, exists_eq_left']
    by_cases hIn : ((if wr then r.wr else r.rd) && decide (0 < n) && decide (off + n ≤ (regionSpan s r).2)) = true
    · rw [if_pos hIn, and_iff_right hIn]
    · rw [if_neg hIn]
      exact iff_of_false (fun h => nomatch h) (fun h => hIn h.1)

theorem mem_of_tget {α : Type} {t : Tbl α} {k : Nat} {a : α} (h : tget t k = some a) : (k, a) ∈ t := by
  induction t with
  | nil => cases h
  | cons x t ih =>
    obtain ⟨j, b⟩ := x
    unfold tget at h
    split at h
    next hKey =>
      cases h
      exact hKey ▸ List.mem_cons_self
    · exact List.mem_cons_of_mem _ (ih h)

/-- The state with connection `k` replaced. -/
def withConn (s : State) (k : Nat) (c : Conn) : State := { s with conns := tset s.conns k c }

theorem memWrite_withConn (s : State) (k : Nat) (c : Conn) (a : Nat) (l : List Byte) : memWrite (withConn s k c) a l = withConn (memWrite s a l) k c := by
  have hSet : ∀ u : State, ∀ a b, memSet (withConn u k c) a b = withConn (memSet u a b) k c := fun u a b => by
    unfold memSet
    split <;> rfl
  induction l generalizing s a with
  | nil => rfl
  | cons b t ih => rw [memWrite, memWrite, hSet, ih]

section Replaced

variable {s : State} {k : Nat} {x c : Conn} (h : tget s.conns k = some x) (hBase : c.base = x.base) (hLen : c.len = x.len)

include h hBase hLen

/-- A connection that keeps its charge charges nothing more. -/
theorem chargedIn_withConn {a n : Nat} (hFree : chargedIn s a n = none) : chargedIn (withConn s k c) a n = none := by
  rw [chargedIn_eq_none_iff] at hFree ⊢
  intro e he
  rcases mem_tset he with rfl | he
  · rw [hBase, hLen]
    exact hFree _ (mem_of_tget h)
  · exact hFree e he

theorem checkRegion_withConn {d : Dom} {key : W32} {off n a : Nat} {wr : Bool} (hOk : checkRegion s d key off n wr = .ok a) :
    checkRegion (withConn s k c) d key off n wr = .ok a := by
  obtain ⟨r, hKeyed, hIn, hBytes⟩ := (checkRegion_eq_ok_iff _ _ _ _ _ _ _).mp hOk
  obtain ⟨hFree, hKept⟩ := (checkBytes_eq_ok_iff _ _ _ _).mp hBytes
  exact (checkRegion_eq_ok_iff _ _ _ _ _ _ _).mpr ⟨r, hKeyed, hIn,
    (checkBytes_eq_ok_iff _ _ _ _).mpr ⟨chargedIn_withConn h hBase hLen hFree, hKept⟩⟩

end Replaced

/-! ### SEND (R140) -/

section Delivered

variable {u : State} {t : Nat} {tc : Conn} {e : W64} {rest : List W64} {a : Nat} (h : tget u.conns t = some tc)
  (hRight : checkRegion u tc.d (BitVec.ofNat 32 (fld e 31 0)) (fld e 54 32) 256 true = .ok a)

include h hRight

/-- A delivery into a buffer inside its rights: the data, and one copy made. -/
theorem deliver_ok (rq : Req) (data : List Byte) : ∃ p0 p1, deliver rq t tc e rest data u =
    copyTo (memWrite (withConn u t { tc with posted := rest }) a data) 3 blkCON 0x207 p0 p1 [t] := by
  unfold deliver
  dsimp only
  have hStill : checkRegion { u with conns := tset u.conns t { tc with posted := rest } } tc.d (BitVec.ofNat 32 (fld e 31 0))
      (fld e 54 32) 256 true = .ok a := checkRegion_withConn (c := { tc with posted := rest }) h rfl rfl hRight
  rw [hStill]
  exact ⟨_, _, rfl⟩

theorem deliver_mem (rq : Req) (data : List Byte) : (deliver rq t tc e rest data u).mem = (memWrite u a data).mem := by
  obtain ⟨p0, p1, hDeliver⟩ := deliver_ok (rest := rest) h hRight rq data
  have hNoted := copyTo_onlyNoted (memWrite (withConn u t { tc with posted := rest }) a data) 3 blkCON 0x207 p0 p1 [t]
  rw [hDeliver]
  exact (congrArg State.mem hNoted.1 :).trans (congrArg State.mem (memWrite_withConn u t _ a data) :)

theorem deliver_conns (rq : Req) (data : List Byte) (j : Nat) :
    (tget (deliver rq t tc e rest data u).conns j).map Conn.quiet =
      (tget (tset u.conns t { tc with posted := rest }) j).map Conn.quiet := by
  obtain ⟨p0, p1, hDeliver⟩ := deliver_ok (rest := rest) h hRight rq data
  rw [hDeliver]
  exact ((memWrite_sameConns _ a data).trans (copyTo_onlyNoted _ 3 blkCON 0x207 p0 p1 [t]).sameConns) j

theorem deliver_stands (rq : Req) (data : List Byte) (j : Nat) :
    (tget (deliver rq t tc e rest data u).conns j).isSome = (tget u.conns j).isSome := by
  have hSome := congrArg Option.isSome (deliver_conns (rest := rest) h hRight rq data j)
  rw [Option.isSome_map, Option.isSome_map, tget_tset] at hSome
  rw [hSome]
  split
  next hj => rw [hj, h]; rfl
  · rfl

end Delivered

/-! ### POST (R139) -/

/-- The reserved bits of a well-formed entry are zero. -/
theorem postWf_mask {e : W64} (h : postWf e = true) : e &&& 0x007FFFFFFFFFFFFF = e := by
  have hLt : e.toNat < 2 ^ 55 := by simpa [postWf] using h
  refine BitVec.eq_of_toNat_eq ((BitVec.toNat_and _ _).trans ?_)
  exact (Nat.and_two_pow_sub_one_eq_mod _ 55).trans (Nat.mod_eq_of_lt hLt)

/-- The state with connection `k` holding other buffers. -/
def withPosted (s : State) (k : Nat) (l : List W64) : State := { s with conns := tmod s.conns k fun x => { x with posted := l } }

theorem withPosted_some {s : State} {k : Nat} {x : Conn} (h : tget s.conns k = some x) (l : List W64) :
    withPosted s k l = withConn s k { x with posted := l } := by
  unfold withPosted withConn
  rw [tmod_some _ h]

/-- What POST leaves: the entries that pass are held, the first failing check is noted (R139). -/
theorem runPost_eq {u : State} {rq : Req} {c x : Conn} {es : List W64} (hConn : tget u.conns rq.conn.toNat = some x)
    (hWf : ∀ e ∈ es, postWf e = true) : runPost rq es u c =
      ((match (judgePosts u c.d es (x.posted, 0, none)).2.2 with
        | some v => violate (withPosted u rq.conn.toNat (judgePosts u c.d es (x.posted, 0, none)).1) c.d v { conn := rq.conn }
        | none => withPosted u rq.conn.toNat (judgePosts u c.d es (x.posted, 0, none)).1),
        { rst := 0, param := BitVec.ofNat 16 (judgePosts u c.d es (x.posted, 0, none)).2.1 }) := by
  have hMask : es.map (fun e => e &&& 0x007FFFFFFFFFFFFF) = es := by
    rw [List.map_congr_left fun e he => postWf_mask (hWf e he), List.map_id']
  unfold runPost
  rw [hMask, hConn]
  rfl

theorem runPost_stands {u : State} {rq : Req} {x : Conn} (c : Conn) (es : List W64) (hConn : tget u.conns rq.conn.toNat = some x) :
    (tget (runPost rq es u c).1.conns rq.conn.toNat).isSome = (tget u.conns rq.conn.toNat).isSome := by
  have hPosted : ∀ l, (tget (withPosted u rq.conn.toNat l).conns rq.conn.toNat).isSome = (tget u.conns rq.conn.toNat).isSome := by
    intro l
    rw [withPosted_some hConn, withConn, tget_tset_self, hConn]
    rfl
  unfold runPost
  dsimp only
  split
  · exact ((violate_sameConns _ c.d _ _).isSome _).trans (hPosted _)
  · exact hPosted _

/-- A well-formed POST that is the next request of its connection. -/
theorem request_post {s u : State} {rq : Req} {c : Conn} {es : List W64} (hGood : malformed (postPacket rq es) = false)
    (hTaken : taken s rq (8 * es.length) = some (u, c)) :
    request rq (postPacket rq es) (runPost rq es) s =
      responded (runPost rq es u c).1 rq 0x26 (8 * es.length) c (runPost rq es u c).2 := by
  have hLen : (postPacket rq es).payload.length = 8 * es.length := bytesOf_length es
  rw [← hLen] at hTaken ⊢
  exact request_standing (runPost rq es) hGood hTaken (runPost_stands c es (taken_conn hTaken))

theorem judgePosts_one {u : State} {d : Dom} {e : W64} {a : Nat} {l : List W64}
    (hRight : checkRegion u d (BitVec.ofNat 32 (fld e 31 0)) (fld e 54 32) 256 true = .ok a) (hRoom : l.length < 8) :
    judgePosts u d [e] (l, 0, none) = (l ++ [e], 1, none) := by
  unfold judgePosts
  rw [hRight]
  exact if_pos hRoom

/-- A connection of the sender's domain, or any for domain 0, is one a SEND reaches (R140). -/
theorem mayReach {a b : Dom} (h : a = b ∨ b = 0) : ¬(a ≠ b ∧ b ≠ 0) := fun ⟨hOther, hNot⟩ => h.elim hOther hNot

/-- Settles O28: SEND by its target, POST by the judgement of its entries. -/
theorem sendAndPost : Obligations.SendAndPost := by
  refine fun s u c rq => ⟨fun target data hPasses hTaken => ?_, fun es hPasses hTaken hWf => ?_, fun e a hTaken hWf hRight hRoom => ?_⟩
  · have hGood := passes_packet hPasses rfl
    have hAnswer := request_answered (runSend rq target.toNat data) hGood hTaken
    refine ⟨fun tc hConn hMay hNone => ?_, fun tc e rest a hConn hMay hPosted hRight => ?_, fun hConn hZero => ?_, fun hOther hNot => ?_⟩
    · have hRun : runSend rq target.toNat data u c = (u, { rst := rstNO_BUFFER }) := by
        unfold runSend
        rw [hConn]
        dsimp only
        rw [if_neg (mayReach hMay), hNone]
      rw [hRun] at hAnswer
      exact next_congr (hAnswer (.refl u))
    · have hRun : runSend rq target.toNat data u c = (deliver rq target.toNat tc e rest data u, done) := by
        unfold runSend
        rw [hConn]
        dsimp only
        rw [if_neg (mayReach hMay), hPosted]
      have hConns := deliver_conns (rest := rest) hConn hRight rq data
      refine ⟨deliver rq target.toNat tc e rest data u, next_congr ?_, deliver_mem hConn hRight rq data, ?_, fun j hj => ?_⟩
      · have hStands := request_standing (runSend rq target.toNat data) hGood hTaken
        rw [hRun] at hStands
        exact hStands (deliver_stands hConn hRight rq data _)
      · rw [hConns, tget_tset_self]
        rfl
      · rw [hConns, tget_tset_ne _ _ hj]
    · have hRun : runSend rq target.toNat data u c = (u, { rst := rstNO_BUFFER }) := by
        unfold runSend
        rw [hConn]
        exact if_pos hZero
      rw [hRun] at hAnswer
      exact next_congr (hAnswer (.refl u))
    · have hRun : runSend rq target.toNat data u c =
          (violate u c.d { kind := 9, p1 := put32 target.toNat 10 0 } (reqOrigin rq), done) := by
        unfold runSend
        cases hConn : tget u.conns target.toNat with
        | none => exact if_neg hNot
        | some tc =>
          rw [hConn] at hOther
          exact if_pos ⟨by simpa using hOther, hNot⟩
      rw [hRun] at hAnswer
      exact next_congr (hAnswer (violate_sameConns u c.d _ _))
  · refine next_congr ((request_post (passes_packet hPasses rfl) hTaken).trans ?_)
    rw [runPost_eq (taken_conn hTaken) hWf]
    rfl
  · have hConn := taken_conn hTaken
    have hGood := (postPacket_readsAs rq [e] (Nat.le_refl 1) (by simp)).1
    have hWfs : ∀ x ∈ [e], postWf x = true := fun x hx => List.mem_singleton.mp hx ▸ hWf
    have hPost := request_post (es := [e]) hGood hTaken
    rw [runPost_eq hConn hWfs, judgePosts_one hRight hRoom] at hPost
    refine ⟨withPosted u rq.conn.toNat (c.posted ++ [e]), next_congr hPost, rfl, ?_, fun j hj => ?_⟩
    · rw [withPosted_some hConn, withConn, tget_tset_self]
      rfl
    · rw [withPosted_some hConn, withConn, tget_tset_ne _ _ hj]

end Sys2Proof.Machine
end

section
/-! Acknowledgement, retransmission and loss of a link (R116, R119-R121, R154). -/

namespace Sys2Proof.Machine

/-! ### ACK (R116, R119) -/

theorem exec_ack {s u : State} {rx : Rx} (hHeard : receive s rx = (u, true)) (hLink : (linkOf u rx.node).lost = false) :
    exec (.ack rx) s = .next (takeUnsequenced u rx) := by
  refine next_congr ?_
  rw [hHeard]
  exact if_pos (by rw [hLink]; rfl)

/-- The sender's link after an unsequenced packet. -/
theorem linkOf_takeUnsequenced (u : State) (rx : Rx) : ∃ got, linkOf (takeUnsequenced u rx) rx.node =
    { (if rx.ackv then takeLack (linkOf u rx.node) (decide (rx.seg = .c)) rx.lack else linkOf u rx.node) with
      gotUp := got, heard := true } :=
  ⟨_, linkOf_setLink_self _ _ _⟩

/-! ### Retransmission (R119, R120) -/

theorem restartRound_of_standing {l : LinkSt} (h : l.lost = false) : restartRound l = { l with resend := l.unacked } := by
  unfold restartRound
  rw [h]
  rfl

theorem endUpSlot_joined {u : State} {g : Seg} {k node : BitVec 6} (hSlot : slotNode u g k false = some node)
    (hJoined : (nodeSt (segAB u g) (nodeIdx node)).state = .joined) : endUpSlot u g k =
      setLink u node (if (linkOf u node).gotUp then { linkOf u node with gotUp := false } else restartRound (linkOf u node)) := by
  unfold endUpSlot
  rw [hSlot]
  exact if_pos hJoined

theorem exec_upSlotEnd {s : State} {g : Seg} (k : BitVec 6) (hAB : g ≠ .c) (hOn : segOn s g = true) :
    exec (.upSlotEnd g k) s = .next (endUpSlot (settleHit (enterSlot s g k) g (k.toNat + 1)) g k) := by
  cases g
  case a => exact next_congr (if_pos hOn)
  case b => exact next_congr (if_pos hOn)
  case c => exact absurd rfl hAB

theorem cNode_of_host {s : State} {h : HostC} (hHost : s.segC.host = some h) : cNode s = nodeId .c h.index := by
  unfold cNode
  rw [hHost]

/-! ### Loss (R121) -/

theorem linkLose_eq (s : State) (n : BitVec 6) : linkLose s n = setLink (withConns s (linkLose s n).conns) n
    { linkOf s n with lost := true, queue := [], unacked := (linkOf s n).unacked.filter carriesEvents, resend := [], silent := 0 } := by
  unfold linkLose
  dsimp only
  rw [returnCredits_eq]
  rfl

/-- The segment, A or B, of a node that is not on C. -/
def nodeSegAB (n : BitVec 6) : Seg := if onSeg .a n then .a else .b

theorem nodeSegAB_ne_c (n : BitVec 6) : nodeSegAB n ≠ .c := by
  unfold nodeSegAB
  split <;> exact fun h => nomatch h

theorem nodeSegAB_of_onSeg {g : Seg} {n : BitVec 6} (hAB : g ≠ .c) (h : onSeg g n = true) :
    nodeSegAB n = g ∧ onSeg .c n = false := by
  have hSeg : n.toNat / 16 = segNum g := by simpa [onSeg] using h
  unfold nodeSegAB onSeg
  rw [hSeg]
  cases g
  case a => exact ⟨rfl, rfl⟩
  case b => exact ⟨rfl, rfl⟩
  case c => exact absurd rfl hAB

theorem requireRange_eq (s : State) (n : BitVec 6) : requireRange s n = if onSeg .c n then s
    else setSegAB s (nodeSegAB n) (setNode (segAB s (nodeSegAB n)) (nodeIdx n)
      { nodeSt (segAB s (nodeSegAB n)) (nodeIdx n) with state := .mustRange }) := rfl

/-- Nothing but the segments A and B changes where a host must range. -/
theorem requireRange_outside (s : State) (n : BitVec 6) :
    requireRange s n = { s with segA := (requireRange s n).segA, segB := (requireRange s n).segB } := by
  rw [requireRange_eq]
  split
  · rfl
  · cases nodeSegAB n <;> rfl

theorem requireRange_node {s : State} {g : Seg} {n : BitVec 6} (hAB : g ≠ .c) (h : onSeg g n = true) :
    (nodeSt (segAB (requireRange s n) g) (nodeIdx n)).state = .mustRange := by
  obtain ⟨hSeg, hNotC⟩ := nodeSegAB_of_onSeg hAB h
  rw [requireRange_eq, hNotC, hSeg, if_neg (by decide), segAB_setSegAB_self _ _ hAB, nodeSt_setNode_self]

/-! ### The age of event copies (R154) -/

theorem exec_eventDropped {s : State} {conn : BitVec 10} {c : Conn} {e : EventRec} {rest : List EventRec}
    (hConn : tget s.conns conn.toNat = some c) (hLink : (linkOf s c.node).lost = false) (hHeld : c.held = e :: rest)
    (hOld : 64 ≤ s.frames - e.made) : exec (.eventDropped conn) s = .next (noteDrop
      { s with conns := tset s.conns conn.toNat { c with held := c.held.filter fun x => decide (x.evseq ≠ e.evseq) } }
      conn.toNat e.evseq) := by
  have hOldest : oldestCopy s conn.toNat c = some e := by
    unfold oldestCopy
    dsimp only
    rw [hLink, hHeld]
    rfl
  have hAge : tooOld s e = true := decide_eq_true hOld
  refine next_congr ?_
  simp only [hConn, hOldest, hAge, if_true, hLink, Bool.false_eq_true, if_false]

/-- Settles O23: an ACK, the ends of UP slots and of RTXC, the loss of a link, the age of a copy. -/
theorem acksRetransmissionsAndLosses : Obligations.AcksRetransmissionsAndLosses := by
  refine ⟨fun s u rx hHeard hLink => ?_, fun s => ⟨fun g k node hAB hOn hSlot hJoined => ?_, fun h hHost hLink hDue => ?_⟩,
    fun s => ⟨fun node hJoined hLink hSome hSilent => ?_, fun conn c e rest => exec_eventDropped⟩⟩
  · obtain ⟨got, hAfter⟩ := linkOf_takeUnsequenced u rx
    refine ⟨_, exec_ack hHeard hLink, fun hAck => ?_, fun hNoAck => ?_, fun j hj => tget_tset_ne _ _ hj, ?_, ?_, rfl⟩
    · rw [hAfter, if_pos hAck]
      exact ⟨rfl, fun hAB => if_neg (by simpa using hAB)⟩
    · rw [hAfter, hNoAck]
      rfl
    · rw [hAfter]
    · rw [hAfter]
      split <;> rfl
  · dsimp only
    rw [exec_upSlotEnd k hAB hOn, endUpSlot_joined hSlot hJoined]
    refine ⟨fun hSilent hLink => ?_, fun hGot => ?_⟩
    · exact next_congr (congrArg (setLink _ node) ((if_neg (by simp [hSilent])).trans (restartRound_of_standing hLink)))
    · exact next_congr (congrArg (setLink _ node) (if_pos hGot))
  · refine next_congr ?_
    dsimp only
    rw [cNode_of_host hHost, hHost, hDue, restartRound_of_standing hLink]
    exact if_pos rfl
  · have hRun : exec (.linkLost node) s = .next (requireRange (linkLose (occur s blkLNK 0x110 (put32 node.toNat 6 0) 0) node) node) :=
      next_congr (if_pos ⟨hJoined, by rw [hLink]; rfl, by simpa using hSome, hSilent⟩)
    have hOutside := requireRange_outside (linkLose (occur s blkLNK 0x110 (put32 node.toNat 6 0) 0) node) node
    have hLose := linkLose_eq (occur s blkLNK 0x110 (put32 node.toNat 6 0) 0) node
    have hLinkOf : linkOf (requireRange (linkLose (occur s blkLNK 0x110 (put32 node.toNat 6 0) 0) node) node) node =
        { linkOf s node with lost := true, queue := [], unacked := (linkOf s node).unacked.filter carriesEvents, resend := [], silent := 0 } := by
      rw [hOutside]
      show linkOf (linkLose _ node) node = _
      rw [hLose, linkOf_setLink_self, linkOf_occur]
    refine ⟨_, hRun, ?_, ?_, ?_, ?_, ?_, fun j hj => ?_, fun g hAB hOn => requireRange_node hAB hOn, ?_, ?_, ?_⟩
    · rw [hOutside, hLose]; rfl
    · rw [hLinkOf]
    · rw [hLinkOf]
    · rw [hLinkOf]
    · rw [hLinkOf]
    · rw [hOutside, hLose]
      refine (tget_tset_ne _ _ hj).trans ?_
      rw [withConns, occur_links]
    · rw [hOutside, hLose]
      exact occur_mem _ _ _ _ _
    · rw [hOutside, hLose, occur_eq]; rfl
    · rw [hOutside, hLose, occur_eq]; rfl

end Sys2Proof.Machine
end

section
/-! What goes out in a DOWN slot (R117, R118, R123). -/

namespace Sys2Proof.Machine

/-! ### One packet sent -/

/-- The characters of a packet that is shown the outside. -/
def charsOf : Output → List (List Sym)
  | .packet _ _ _ _ _ _ c => c
  | .ackPkt _ _ _ c => c
  | _ => []

/-- A packet sent again, as the outside is shown it. -/
def againPacket (node : BitVec 6) (l : LinkSt) (p : TxPkt) : Output :=
  .packet node p.lseq (lackOf l) l.rxAny true p.body (charsOn (nodeSeg node) (txPacket node p.lseq (lackOf l) l.rxAny true p.body))

/-- A new packet as the outside is shown it. -/
def newPacket (node : BitVec 6) (l : LinkSt) (body : TxBody) : Output :=
  .packet node l.txNext (lackOf l) l.rxAny false body (charsOn (nodeSeg node) (txPacket node l.txNext (lackOf l) l.rxAny false body))

theorem sendNew_eq (s : State) (n : BitVec 6) (body : TxBody) (queue sent : List Queued) : sendNew s n body queue sent =
    withConns (setLink (emit s (newPacket n (linkOf s n) body)) n { linkOf s n with
      txNext := (linkOf s n).txNext + 1, unacked := (linkOf s n).unacked ++ [{ lseq := (linkOf s n).txNext, body := body, sent := cycles s }]
      queue := queue, owed := false }) (sendNew s n body queue sent).conns := by
  unfold sendNew
  dsimp only
  rw [returnCredits_eq]
  rfl

theorem sendNew_out (s : State) (n : BitVec 6) (body : TxBody) (queue sent : List Queued) :
    (sendNew s n body queue sent).out = s.out ++ [newPacket n (linkOf s n) body] := by
  rw [sendNew_eq]
  rfl

theorem linkOf_sendNew (s : State) (n : BitVec 6) (body : TxBody) (queue sent : List Queued) :
    linkOf (sendNew s n body queue sent) n = { linkOf s n with
      txNext := (linkOf s n).txNext + 1, unacked := (linkOf s n).unacked ++ [{ lseq := (linkOf s n).txNext, body := body, sent := cycles s }]
      queue := queue, owed := false } := by
  rw [sendNew_eq]
  exact linkOf_setLink_self _ _ _

/-! ### A DOWN slot and what it sends -/

/-- The packet sent, if any, occupies the slot of A or B (R66). -/
def occupySlot (s t : State) (g : Seg) (k : BitVec 6) : State :=
  if s.out.length < t.out.length then holdSlot t g k (airOf (lastChars t)) else t

theorem holdSlot_c (s : State) (k : BitVec 6) (n : Nat) : holdSlot s .c k n = s := rfl

theorem occupySlot_sent {s t : State} {o : Output} (g : Seg) (k : BitVec 6) (h : t.out = s.out ++ [o]) :
    occupySlot s t g k = holdSlot t g k (airOf (charsOf o)) := by
  have hChars : lastChars t = charsOf o := by
    unfold lastChars
    rw [h, List.getLast?_concat]
    cases o <;> rfl
  unfold occupySlot
  rw [hChars, h, if_pos (by simp)]

theorem occupySlot_silent (s : State) (g : Seg) (k : BitVec 6) : occupySlot s s g k = s := if_neg (Nat.lt_irrefl _)

/-- A DOWN slot with a host to send to sends one packet. -/
theorem exec_downSlot {s u : State} {g : Seg} {k node : BitVec 6} (h : downHost s g k = some (u, node)) :
    exec (.downSlot g k) s = .next (occupySlot u (sendOne u node (decide (g ≠ .c))) g k) := by
  unfold downHost at h
  cases g
  case c =>
    dsimp only at h
    split at h
    next hMay =>
      obtain ⟨rfl, rfl⟩ := Prod.mk.inj (Option.some.inj h)
      refine next_congr ((if_pos hMay).trans ?_)
      unfold occupySlot
      rw [holdSlot_c, ite_self]
      rfl
    · cases h
  all_goals
    dsimp only at h
    split at h
    next hSlot =>
      split at h
      next hMay =>
        obtain ⟨rfl, rfl⟩ := Prod.mk.inj (Option.some.inj h)
        simp only [Bool.and_eq_true] at hMay
        obtain ⟨⟨hOn, hBeacon⟩, hReach⟩ := hMay
        refine next_congr ((if_pos hOn).trans ?_)
        dsimp only
        rw [hSlot]
        exact if_pos (by rw [hBeacon, hReach]; rfl)
      · cases h
    · cases h

/-! ### What is sent first (R117, R123) -/

section SendOne

variable {u : State} {node : BitVec 6} (due : Bool)

theorem sendOne_again {p : TxPkt} {rest : List TxPkt} (h : (linkOf u node).resend = p :: rest) : sendOne u node due =
    setLink (emitPacket u node (linkOf u node) p.lseq true p.body) node { linkOf u node with
      resend := rest, retx := (linkOf u node).retx + 1, owed := false
      unacked := markSent (cycles u) p.lseq (linkOf u node).unacked } := by
  unfold sendOne
  dsimp only
  rw [h]
  rfl

theorem sendOne_full (h : (linkOf u node).resend = []) (hFull : 16 ≤ (linkOf u node).unacked.length) :
    sendOne u node due = sendAck u node (due && waiting u node) := by
  unfold sendOne
  dsimp only
  rw [h]
  exact if_pos hFull

variable (hNew : (linkOf u node).resend = [] ∧ (linkOf u node).unacked.length < 16)

include hNew

theorem sendOne_answer {q : Queued} {rest : List Queued} (h : takeFirst isReply (linkOf u node).queue = some (q, rest)) :
    sendOne u node due = sendQueued u node q rest (linkOf u node).queue := by
  unfold sendOne
  dsimp only
  rw [hNew.1, h]
  exact if_neg (Nat.not_le.mpr hNew.2)

/-- Without an answer that goes first, event copies are sent, then read data, then an acknowledgement that is owed. -/
theorem sendOne_noAnswer (h : takeFirst isReply (linkOf u node).queue = none) : sendOne u node due =
    if (sendEvents u node (heldConns u node)).2 then (sendEvents u node (heldConns u node)).1
    else match (linkOf (sendEvents u node (heldConns u node)).1 node).queue with
      | q :: rest => sendQueued (sendEvents u node (heldConns u node)).1 node q rest (q :: rest)
      | [] => sendAck (sendEvents u node (heldConns u node)).1 node false := by
  unfold sendOne
  dsimp only
  rw [hNew.1, h]
  exact if_neg (Nat.not_le.mpr hNew.2)

theorem sendOne_readData {q : Queued} {rest : List Queued} (h : takeFirst isReply (linkOf u node).queue = none)
    (hHeld : heldConns u node = []) (hQueue : (linkOf u node).queue = q :: rest) :
    sendOne u node due = sendNew u node (.rdata q.replay q.reply) rest [q] := by
  have hSends : sendOne u node due = sendQueued u node q rest (q :: rest) := by
    rw [sendOne_noAnswer due hNew h, hHeld]
    show (match (linkOf u node).queue with | q :: rest => _ | [] => _) = _
    rw [hQueue]
    rfl
  obtain ⟨reply, replay, credit⟩ := q
  rw [hQueue] at h
  rw [hSends]
  cases reply
  case rdata => rfl
  all_goals cases h

theorem sendOne_nothing (hHeld : heldConns u node = []) (hQueue : (linkOf u node).queue = []) :
    sendOne u node due = sendAck u node false := by
  rw [sendOne_noAnswer due hNew (by rw [hQueue]; rfl), hHeld]
  show (match (linkOf u node).queue with | q :: rest => _ | [] => _) = _
  rw [hQueue]
  rfl

end SendOne

/-! ### Event copies (R112, R123) -/

theorem dropFailing_of_good {s : State} {k : Nat} {c : Conn} (h : ∀ e ∈ c.held.take 8, copyFailing s c e = []) :
    dropFailing s k c = s := by
  unfold dropFailing
  generalize c.held.take 8 = l at h
  induction l with
  | nil => rfl
  | cons e t ih =>
    rw [List.foldl_cons]
    dsimp only
    rw [h e List.mem_cons_self, List.isEmpty_nil, if_pos rfl]
    exact ih fun x hx => h x (List.mem_cons_of_mem _ hx)

/-- The connection's first copies leave its queue for the packet. -/
def takingCopies (s : State) (k : Nat) (c : Conn) : State :=
  withConn s k { c with held := c.held.filter fun e => !(isNext (c.held.take 8) e) }

theorem sendEvents_good {s : State} {node : BitVec 6} {k : Nat} {more : List Nat} {c : Conn} (hConn : tget s.conns k = some c)
    (hSome : c.held ≠ []) (h : ∀ e ∈ c.held.take 8, copyFailing s c e = []) : sendEvents s node (k :: more) =
      (sendNew (takingCopies s k c) node (.events (BitVec.ofNat 10 k) (c.held.take 8)) (linkOf s node).queue [], true) := by
  have hAll : (c.held.take 8).filter (fun e => (copyFailing s c e).isEmpty) = c.held.take 8 :=
    List.filter_eq_self.mpr fun e he => by rw [h e he]; rfl
  have hNext : (c.held.take 8).isEmpty = false := by
    cases hHeld : c.held with
    | nil => exact absurd hHeld hSome
    | cons e t => rfl
  unfold sendEvents
  rw [hConn]
  dsimp only
  rw [hAll, hNext, dropFailing_of_good h, tmod_some _ hConn]
  rfl

/-! ### Acknowledgements (R117) -/

theorem sendAck_due {s : State} {n : BitVec 6} {due : Bool} (h : ((linkOf s n).owed || due) = true) :
    sendAck s n due = setLink (emitAck s n (linkOf s n)) n { linkOf s n with owed := false } := if_pos h

theorem sendAck_idle {s : State} {n : BitVec 6} {due : Bool} (h : ((linkOf s n).owed || due) = false) : sendAck s n due = s :=
  if_neg (by rw [h]; decide)

@[simp] theorem linkOf_holdSlot (s : State) (g : Seg) (k : BitVec 6) (n : Nat) (m : BitVec 6) :
    linkOf (holdSlot s g k n) m = linkOf s m := linkOf_setSegAB s g _ m

theorem holdSlot_eq (s : State) (g : Seg) (k : BitVec 6) (n : Nat) :
    holdSlot s g k n = { s with segA := (holdSlot s g k n).segA, segB := (holdSlot s g k n).segB } := by
  cases g <;> rfl

/-- A new packet in a DOWN slot. -/
theorem sent_new {u : State} (g : Seg) (k node : BitVec 6) (body : TxBody) (queue sent : List Queued) (v : State)
    (hOut : v.out = u.out) (hLinks : linkOf v node = linkOf u node) (hNow : cycles v = cycles u) :
    let t := occupySlot u (sendNew v node body queue sent) g k
    linkOf t node = { linkOf u node with
      txNext := (linkOf u node).txNext + 1
      unacked := (linkOf u node).unacked ++ [{ lseq := (linkOf u node).txNext, body := body, sent := cycles u }]
      queue := queue, owed := false } ∧
    t.out = u.out ++ [newPacket node (linkOf u node) body] ∧ t.conns = (sendNew v node body queue sent).conns := by
  have hSent := sendNew_out v node body queue sent
  rw [hOut, hLinks] at hSent
  dsimp only
  rw [occupySlot_sent g k hSent, linkOf_holdSlot, linkOf_sendNew, hLinks, hNow, holdSlot_eq]
  exact ⟨rfl, hSent, rfl⟩

/-- Settles O24: what a DOWN slot sends, in the order of R117 and R123. -/
theorem downSlotSendsInOrder : Obligations.DownSlotSendsInOrder := by
  intro s u g k node hDown
  have hExec := exec_downSlot hDown
  have hAcked : ∀ due, ((linkOf u node).owed || due) = true → occupySlot u (sendAck u node due) g k =
      holdSlot (setLink (emitAck u node (linkOf u node)) node { linkOf u node with owed := false }) g k
        (airOf (charsOn (nodeSeg node) (txAckPacket node (lackOf (linkOf u node)) (linkOf u node).rxAny))) := fun due hDue => by
    rw [sendAck_due hDue]
    exact occupySlot_sent (o := .ackPkt node (lackOf (linkOf u node)) (linkOf u node).rxAny
      (charsOn (nodeSeg node) (txAckPacket node (lackOf (linkOf u node)) (linkOf u node).rxAny))) g k rfl
  refine ⟨fun p rest hAgain => ?_, fun hNone hFull => ⟨fun hDue => ?_, fun hIdle hQuiet => ?_⟩, fun hNone hRoom => ?_⟩
  · rw [hExec, sendOne_again _ hAgain]
    exact next_congr (occupySlot_sent (o := againPacket node (linkOf u node) p) g k rfl)
  · rw [hExec, sendOne_full _ hNone hFull]
    refine next_congr (hAcked _ ?_)
    rcases hDue with hOwed | ⟨hAB, hWaits⟩
    · rw [hOwed]; rfl
    · rw [hWaits, decide_eq_true hAB]; simp
  · rw [hExec, sendOne_full _ hNone hFull, sendAck_idle, occupySlot_silent]
    rcases hQuiet with hC | hWaits
    · rw [hIdle, hC]; rfl
    · rw [hIdle, hWaits]; simp
  · have hNew := And.intro hNone hRoom
    refine ⟨fun q rest r n e b c v y hFirst hReply => ?_, fun q rest conn r hFirst hReply => ?_, fun j more c hFirst hHeld hConn hSome hGood => ?_,
      fun q rest hFirst hHeld hQueue => ?_, fun hHeld hQueue => ?_⟩
    · have hSends : sendOne u node (decide (g ≠ .c)) = sendNew u node (.openReply q.reply) rest [q] := by
        rw [sendOne_answer _ hNew hFirst]
        unfold sendQueued
        rw [hReply]
      obtain ⟨hLink, hOut, -⟩ := sent_new g k node (.openReply q.reply) rest [q] u rfl rfl rfl
      rw [hExec, hSends]
      exact ⟨_, rfl, by rw [hLink], by rw [hLink], by rw [hLink], hOut⟩
    · have hSends : sendOne u node (decide (g ≠ .c)) = sendNew u node
          (.resp conn q.replay (packResp conn q.replay 32 (linkOf u node).queue).1)
          (packResp conn q.replay 32 (linkOf u node).queue).2.2 (packResp conn q.replay 32 (linkOf u node).queue).2.1 := by
        rw [sendOne_answer _ hNew hFirst]
        unfold sendQueued
        rw [hReply]
      obtain ⟨hLink, hOut, -⟩ := sent_new g k node (.resp conn q.replay (packResp conn q.replay 32 (linkOf u node).queue).1)
        (packResp conn q.replay 32 (linkOf u node).queue).2.2 (packResp conn q.replay 32 (linkOf u node).queue).2.1 u rfl rfl rfl
      rw [hExec, hSends]
      exact ⟨_, rfl, by rw [hLink], by rw [hLink], hOut⟩
    · have hSends : sendOne u node (decide (g ≠ .c)) = sendNew (takingCopies u j c) node
          (.events (BitVec.ofNat 10 j) (c.held.take 8)) (linkOf u node).queue [] := by
        rw [sendOne_noAnswer _ hNew hFirst, hHeld, sendEvents_good hConn hSome hGood]
        rfl
      obtain ⟨hLink, hOut, hConns⟩ := sent_new (u := u) g k node (.events (BitVec.ofNat 10 j) (c.held.take 8)) (linkOf u node).queue []
        (takingCopies u j c) rfl rfl rfl
      rw [hExec, hSends]
      refine ⟨_, rfl, by rw [hLink], by rw [hLink], ?_, hOut⟩
      rw [hConns]
      exact tget_tset_self _ _ _
    · obtain ⟨hLink, hOut, -⟩ := sent_new g k node (.rdata q.replay q.reply) rest [q] u rfl rfl rfl
      rw [hExec, sendOne_readData _ hNew hFirst hHeld hQueue]
      exact ⟨_, rfl, by rw [hLink], by rw [hLink], hOut⟩
    · rw [hExec, sendOne_nothing _ hNew hHeld hQueue]
      refine ⟨fun hOwed => next_congr (hAcked false (by rw [hOwed]; rfl)), fun hIdle => ?_⟩
      rw [sendAck_idle (by rw [hIdle]; rfl), occupySlot_silent]

end Sys2Proof.Machine
end

section
/-! Windows, regions and extents (R32, R161-R176). -/

namespace Sys2Proof.Machine

/-! ### The selected rest state (R487) -/

/-- Selecting the rest state again touches it and what an occurrence touches. -/
theorem refreshRest_eq (s : State) : refreshRest s = { s with
    pmu := { s.pmu with rest := BitVec.ofNat 3 (selectRest s) }, recorder := (refreshRest s).recorder, hdrs := (refreshRest s).hdrs
    conns := (refreshRest s).conns, evDrop := (refreshRest s).evDrop } := by
  unfold refreshRest
  dsimp only
  split
  next hSame => rw [hSame, BitVec.ofNat_toNat, BitVec.setWidth_eq]
  · exact (occurAt_onlyNoted _ _ _ _ _ _ _).1

/-! ### Windows (R162) -/

theorem writeWindow_accepted {s : State} {d : Dom} {v : W64} (h : windowReason s d.toNat (fld v 10 0) (fld v 27 16) = 0) :
    writeWindow s d v = regStore s blkDOM (0x118 + 0x40 * d.toNat) v := by
  unfold writeWindow
  rw [h]
  rfl

theorem writeWindow_refused {s : State} {d : Dom} {v : W64} (h : windowReason s d.toNat (fld v 10 0) (fld v 27 16) ≠ 0) :
    writeWindow s d v = regSet s blkDOM 0x80
      (put d.toNat 4 0 ||| put (windowReason s d.toNat (fld v 10 0) (fld v 27 16)) 3 4) := by
  unfold writeWindow
  split
  next hAccepts => exact absurd hAccepts h
  · rfl

theorem regMask_latency (d : Dom) : regMask blkDOM (0x130 + 0x40 * d.toNat) = 0xFFFFF := by
  revert d
  decide

/-! ### Regions (R164-R170) -/

/-- A tag other than zero, or the next one after it when it is the last one, is neither zero nor the last one. -/
theorem passedTag_ne {t : BitVec 24} (ht : t ≠ 0) (last : BitVec 24) :
    (if t = last then (if t = 0xFFFFFF then 1 else t + 1) else t) ≠ 0 ∧
      (if t = last then (if t = 0xFFFFFF then 1 else t + 1) else t) ≠ last := by
  by_cases hLast : t = last
  · by_cases hTop : t = 0xFFFFFF
    · rw [if_pos hLast, if_pos hTop, ← hLast, hTop]
      decide
    · rw [if_pos hLast, if_neg hTop, ← hLast]
      bv_omega
  · rw [if_neg hLast]
    exact ⟨ht, hLast⟩

/-- An issued tag is neither zero nor the descriptor's last (R165). -/
theorem issueTag_ne (s : State) (i : Nat) : issueTag s i ≠ 0 ∧ issueTag s i ≠ tgetD s.tags i 0 := by
  unfold issueTag
  generalize tgetD s.tags i 0 = last
  generalize Config.freeTag s.freeCtr = t
  dsimp only
  refine passedTag_ne ?_ last
  by_cases hZero : t = 0
  · rw [if_pos hZero]
    decide
  · rwa [if_neg hZero]

theorem registerRegion_refused {s : State} {d : Dom} {v : W64} {r : Nat}
    (h : registerRefusal s d (bit v 3) (fld v 22 8 * 256) ((fld v 37 23 + 1) * 256) = r) (hRefused : r ≠ 0) :
    registerRegion s d v = regionResult s d 0 0 r := by
  unfold registerRegion
  dsimp only
  split
  next hAccepts => exact absurd (h.symm.trans hAccepts) hRefused
  · rw [h]

theorem registerRegion_accepted {s : State} {d : Dom} {v : W64} {i : Nat}
    (h : registerRefusal s d (bit v 3) (fld v 22 8 * 256) ((fld v 37 23 + 1) * 256) = 0) (hFree : tlowestFree s.regions 256 = some i) :
    registerRegion s d v = regionResult
      { s with
        regions := tset s.regions i { d := d, tag := issueTag s i, rd := bit v 1, wr := bit v 2, wide := bit v 3
                                      base := fld v 22 8 * 256, len := (fld v 37 23 + 1) * 256 }
        tags := tset s.tags i (issueTag s i), freeCtr := s.freeCtr + 1 } d i (issueTag s i).toNat 0 := by
  unfold registerRegion
  dsimp only
  rw [h, hFree]
  rfl

/-- Settles O30: each command of chapter 05 over windows and regions, by the branch of its write. -/
theorem windowsAndRegions : Obligations.WindowsAndRegions := by
  refine fun s w d v => ⟨fun hMay => ⟨fun hOk => ?_, fun hRefused => ?_⟩, fun hMay => ?_, fun hMay hReg => ⟨fun i hOk hFree => ?_, fun r hRefusal hRefused => ?_⟩,
    fun hMay hDereg r hRegion => ?_, fun hMay hDereg hNone => ?_, fun i r hRegion hDying hUnpinned => ?_⟩
  · exact next_congr ((guardedWrite_of_mayWrite _ _ hMay).trans (writeWindow_accepted hOk))
  · exact next_congr ((guardedWrite_of_mayWrite _ _ hMay).trans (writeWindow_refused hRefused))
  · refine ⟨_, next_congr ((guardedWrite_of_mayWrite _ _ hMay).trans (refreshRest_eq _)), ?_, regsBut_regStore s _ _ v, rfl, rfl, rfl, rfl, rfl⟩
    refine (regGet_regSet_self s _ _ _).trans ?_
    rw [regMask_latency]
  · obtain ⟨hNonzero, hNew⟩ := issueTag_ne s i
    refine ⟨issueTag s i, hNonzero, hNew, next_congr ((guardedWrite_of_mayWrite _ _ hMay).trans ?_)⟩
    rw [writeRegion, hReg]
    exact registerRegion_accepted hOk hFree
  · refine next_congr ((guardedWrite_of_mayWrite _ _ hMay).trans ?_)
    rw [writeRegion, hReg]
    exact registerRegion_refused hRefusal hRefused
  · have hExec : exec (.regionDeregister w d v) s = .next (deregisterRegion s d v {}) := by
      refine next_congr ((guardedWrite_of_mayWrite _ _ hMay).trans ?_)
      rw [writeRegion, hDereg]
      rfl
    rw [hExec]
    unfold deregisterRegion
    dsimp only
    rw [hRegion]
    dsimp only
    refine ⟨fun hOwn hLive hFree => ?_, fun hOwn hLive hPinned => ?_, fun hOwn hDying => ?_, fun hOther => ?_⟩
    · rw [if_neg (not_not_intro hOwn), hLive, hFree]
      rfl
    · rw [if_neg (not_not_intro hOwn), hLive, hPinned]
      rfl
    · rw [if_neg (not_not_intro hOwn), hDying]
      rfl
    · rw [if_pos hOther]
  · refine next_congr ((guardedWrite_of_mayWrite _ _ hMay).trans ?_)
    rw [writeRegion, hDereg]
    unfold deregisterRegion
    dsimp only
    rw [hNone]
    rfl
  · refine next_congr ?_
    rw [hRegion]
    exact if_pos (by rw [hDying, hUnpinned]; rfl)

/-! ### Extents (R172-R176) -/

theorem regsBut_cons {s t : State} {l : List Nat} {b o : Nat} (v : W64) (h : regsBut s t l) :
    regsBut s (regSet t b o v) (l ++ [regAddr b o]) := fun a ha => by
  rw [List.mem_append, not_or] at ha
  exact (regsBut_regSet t b o v a ha.2).trans (h a ha.1)

section ExtentCommand

variable {s : State} {v : W64} (hGo : bit v 11 = true)

include hGo

theorem writeExtCmd_install (hOp : fld v 10 9 = 0) : writeExtCmd s v =
    extentResult (if (installResult s (stagedExtent s)).1 = 0 then { s with extents := tset s.extents (fld v 8 0) (stagedExtent s) } else s)
      (installResult s (stagedExtent s)) := by
  unfold writeExtCmd
  rw [hGo, hOp]
  rfl

theorem writeExtCmd_remove (hOp : fld v 10 9 = 1) : writeExtCmd s v =
    extentResult { s with extents := tmod s.extents (fld v 8 0) fun x => { x with valid := false } } (0, 0) := by
  unfold writeExtCmd
  rw [hGo, hOp]
  rfl

theorem writeExtCmd_readBack (hOp : fld v 10 9 = 2) : writeExtCmd s v =
    extentResult (regSet (regSet s blkEXT 0x80 (((tget s.extents (fld v 8 0)).map extentWord0).getD 0)) blkEXT 0x88
      (((tget s.extents (fld v 8 0)).map extentWord1).getD 0)) (0, 0) := by
  unfold writeExtCmd
  dsimp only
  rw [hGo, hOp]
  cases hExtent : tget s.extents (fld v 8 0) with
  | none => rfl
  | some x => rfl

theorem writeExtCmd_invalid (hOp : fld v 10 9 = 3) : writeExtCmd s v = extentResult s (3, 0) := by
  unfold writeExtCmd
  rw [hGo, hOp]
  rfl

end ExtentCommand

theorem tget_tmod_self {α : Type} (t : Tbl α) (k : Nat) (f : α → α) : tget (tmod t k f) k = (tget t k).map f := by
  cases h : tget t k with
  | none => rw [tmod_none f h, h]; rfl
  | some a => rw [tmod_some f h, tget_tset_self]; rfl

theorem tget_tmod_ne {α : Type} (t : Tbl α) {k j : Nat} (f : α → α) (h : j ≠ k) : tget (tmod t k f) j = tget t j := by
  cases hk : tget t k with
  | none => rw [tmod_none f hk]
  | some a => rw [tmod_some f hk, tget_tset_ne _ _ h]

/-- Settles O31: the four operations of EXT.CMD. -/
theorem extentCommands : Obligations.ExtentCommands := by
  intro s w v hMay hGo
  have hWrite : guardedWrite s w blkEXT 0x90 {} (fun s => writeExtCmd s v) = writeExtCmd s v := guardedWrite_of_mayWrite _ _ hMay
  refine ⟨fun hOp j hFits => next_congr (hWrite.trans ?_), fun hOp r j hClash hRefused => next_congr (hWrite.trans ?_),
    fun hOp => ⟨_, next_congr (hWrite.trans (writeExtCmd_remove hGo hOp)), ?_⟩,
    fun hOp => ⟨_, next_congr (hWrite.trans (writeExtCmd_readBack hGo hOp)), ?_⟩,
    fun hOp => next_congr (hWrite.trans (writeExtCmd_invalid hGo hOp))⟩
  · rw [writeExtCmd_install hGo hOp, hFits]
    rfl
  · rw [writeExtCmd_install hGo hOp, hClash, if_neg hRefused]
    rfl
  · exact ⟨regGet_regSet_self _ _ _ _, tget_tmod_self _ _ _, fun j hj => tget_tmod_ne _ _ hj, rfl⟩
  · refine ⟨regGet_regSet_self _ _ _ _, ?_, ?_, rfl, regsBut_cons _ (regsBut_cons _ (regsBut_regSet _ _ _ _))⟩
    · rw [extentResult, regGet_regSet_ne _ _ (by decide), regGet_regSet_ne _ _ (by decide), regGet_regSet_self]
    · rw [extentResult, regGet_regSet_ne _ _ (by decide), regGet_regSet_self]

end Sys2Proof.Machine
end

section
/-! Rings (R182-R187, R216, R223-R225): claims and releases, enabling and disabling. -/

namespace Sys2Proof.Machine

/-! ### What a release clears -/

theorem regAddr_ne {b o p : Nat} (h : o ≠ p) : regAddr b o ≠ regAddr b p := by
  unfold regAddr
  omega

theorem clearRing_regGet (s : State) (b : Nat) {n : Nat} (hn : n < 64) (d : Dom) (ring result : Nat) {o : Nat}
    (h : o = 0x200 + 8 * n ∨ o = 0x400 + 8 * n) :
    regGet (claimResult (clearRing s b n) b d ring result) b o = regReset b o := by
  have hd : d.toNat < 16 := d.isLt
  have hErased : tget (terase (terase s.regs (regAddr b (0x200 + 8 * n))) (regAddr b (0x400 + 8 * n))) (regAddr b o) = none := by
    rcases h with rfl | rfl
    · rw [tget_terase_ne _ (regAddr_ne (by omega)), tget_terase_self]
    · exact tget_terase_self _ _
  unfold claimResult
  rw [regGet_regSet_ne _ _ (regAddr_ne (by omega))]
  unfold regGet tgetD clearRing
  rw [hErased]
  rfl

/-- CFG of a submission ring is 0x40 at reset: CLASS is 2, normal (chapter 16). -/
theorem regReset_sqCfg : ∀ n < 64, regReset blkWQS (0x400 + 8 * n) = 0x40 := by decide

/-- What a release of a submission ring leaves in CFG: its reset value, not zero (R184). -/
theorem sqCfg_released (s : State) {n : Nat} (hn : n < 64) (d : Dom) :
    sqCfg (claimResult (clearRing { s with sqs := terase s.sqs n } blkWQS n) blkWQS d n 0) n = 0x40 :=
  (clearRing_regGet _ _ hn d _ _ (.inr rfl)).trans (regReset_sqCfg n hn)

/-- At reset but for ring 3, which domain 0 has claimed. -/
def ring3Claimed : State := { State.reset with sqs := [(3, { owner := 0 })] }

/-- Refutes O32: CFG of a released submission ring is not 0. Domain 0's release of ring 3 leaves CFG at its reset value 0x40, where
the statement has 0. -/
theorem not_ringsAreClaimedAndReleased : ¬ Obligations.RingsAreClaimedAndReleased := by
  unfold Obligations.RingsAreClaimedAndReleased
  intro h
  obtain ⟨-, -, -, -, -, -, -, -, -, -, -, -, hReleased, -⟩ := h ring3Claimed 0 0x301
  obtain ⟨-, -, hCfg, -⟩ := hReleased
  exact absurd ((sqCfg_released ring3Claimed (n := 3) (by decide) 0).symm.trans hCfg) (by decide)

end Sys2Proof.Machine
end

section
/-! Enabling, disabling and pointer writes of rings (R186, R187, R223-R225). -/

namespace Sys2Proof.Machine

/-- A write that clears ENABLE of an enabled ring changes no other field of CFG (R186). -/
theorem mergedCfg_disable (b o : Nat) (old : W64) {v : W64} (h : bit v 0 = false) : mergedCfg b o old v false = old &&& ~~~ (1 : W64) := by
  have hBit : v &&& 1 = 0 := by
    ext i hi
    rcases i with _ | i
    · simpa [bit] using h
    · simp
  unfold mergedCfg
  rw [hBit]
  exact BitVec.or_zero

theorem cfgEnable_cleared (old : W64) : cfgEnable (old &&& ~~~ (1 : W64)) = false := by
  simp [cfgEnable, bit]

/-! ### Enables (R187) -/

theorem writeSqCfg_enable {s : State} {n : Nat} {v : W64} {q : Sq} (h : tget s.sqs n = some q) (hOff : cfgEnable (sqCfg s n) = false)
    (hIdle : sqIdle s n = true) (hOn : cfgEnable (mergedCfg blkWQS (0x400 + 8 * n) (sqCfg s n) v true) = true) :
    writeSqCfg s n v = regSet s blkWQS (0x400 + 8 * n)
      ((mergedCfg blkWQS (0x400 + 8 * n) (sqCfg s n) v true &&& ~~~ (put 7 3 16 ||| 1)) |||
        put (sqEnableError s q.owner (sqBase s n) (mergedCfg blkWQS (0x400 + 8 * n) (sqCfg s n) v true)) 3 16 |||
        putB (decide (sqEnableError s q.owner (sqBase s n) (mergedCfg blkWQS (0x400 + 8 * n) (sqCfg s n) v true) = 0)) 0) := by
  unfold writeSqCfg
  dsimp only
  rw [h, hOff, hIdle]
  exact if_pos (by rw [Bool.not_false, Bool.and_true, Bool.and_true]; exact hOn)

theorem writeCqCfg_enable {s : State} {n : Nat} {v : W64} {c : Cq} (h : tget s.cqs n = some c) (hOff : cfgEnable (cqCfg s n) = false)
    (hIdle : cqIdle s n = true) (hOn : cfgEnable (mergedCfg blkWQC (0x400 + 8 * n) (cqCfg s n) v true) = true) :
    writeCqCfg s n v = regSet s blkWQC (0x400 + 8 * n)
      ((mergedCfg blkWQC (0x400 + 8 * n) (cqCfg s n) v true &&& ~~~ (put 3 2 16 ||| 1)) |||
        put (cqEnableError s c.owner (cqBase s n) (mergedCfg blkWQC (0x400 + 8 * n) (cqCfg s n) v true)) 2 16 |||
        putB (decide (cqEnableError s c.owner (cqBase s n) (mergedCfg blkWQC (0x400 + 8 * n) (cqCfg s n) v true) = 0)) 0) := by
  unfold writeCqCfg
  dsimp only
  rw [h, hOff, hIdle]
  exact if_pos (by rw [Bool.not_false, Bool.and_true, Bool.and_true]; exact hOn)

/-! ### Disables (R223, R224) -/

theorem foldl_fixed_of_mem {α β : Type} {g : β → α → β} {u : β} {l : List α} (h : ∀ a ∈ l, g u a = u) : l.foldl g u = u := by
  induction l with
  | nil => rfl
  | cons a t ih =>
    rw [List.foldl_cons, h a List.mem_cons_self]
    exact ih fun x hx => h x (List.mem_cons_of_mem _ hx)

/-- The ring's entry with RING_IDLE told or not. -/
def withIdleTold (s : State) (n : Nat) (q : Sq) (told : Bool) : State := { s with sqs := tset s.sqs n { q with idleTold := told } }

theorem batchCheck_noBatch {s : State} {n : Nat} {q : Sq} (h : tget s.sqs n = some q) (hBatches : q.batches = []) :
    batchCheck s n = s := by
  unfold batchCheck
  rw [h]
  dsimp only
  rw [hBatches]
  rfl

theorem not_waiting_of_no_waitPending {s : State} {n : Nat} (h : waitPending s n = false) {e : Entry} (he : e ∈ ringEntries s n) :
    ¬ (weOpcode e.words = opWAIT ∧ (e.phase = .fetched ∨ e.phase = .running)) := fun hBoth =>
  Bool.false_ne_true (h.symm.trans (List.any_eq_true.mpr ⟨e, he, by simpa using hBoth⟩))

/-- With no batch open and no WAIT_COUNT pending, a disable only tells idleness anew. -/
theorem disableSq_quiet {s : State} {n : Nat} {q : Sq} (h : tget s.sqs n = some q) (hBatches : q.batches = [])
    (hWaits : waitPending s n = false) : disableSq s n = idleCheck (withIdleTold s n q false) n := by
  have hSame : ({ q with idleTold := false, batches := [] } : Sq) = { q with idleTold := false } := by rw [← hBatches]
  have hCheck : batchCheck (withIdleTold s n q false) n = withIdleTold s n q false :=
    batchCheck_noBatch (tget_tset_self _ _ _) hBatches
  unfold disableSq
  rw [h]
  dsimp only
  rw [hBatches, List.map_nil, hSame]
  refine (congrArg (fun u => idleCheck (batchCheck u n) n) ?_).trans (congrArg (idleCheck · n) hCheck)
  exact foldl_fixed_of_mem fun e he => if_neg (not_waiting_of_no_waitPending hWaits he)

/-- A disabled ring whose idleness is not told yet (R223). -/
theorem idleCheck_disabled {s : State} {n : Nat} {q : Sq} (hBatches : q.batches = []) (hOff : cfgEnable (sqCfg s n) = false) :
    idleCheck (withIdleTold s n q false) n =
      if sqIdle s n = true then occurRing (withIdleTold s n q true) blkWQS q.owner 0x302
        (put32 n 6 0 ||| put32 q.owner.toNat 4 8) 0
      else withIdleTold s n q false := by
  unfold idleCheck withIdleTold
  dsimp only
  rw [tget_tset_self]
  dsimp only
  rw [tset_tset, hBatches]
  by_cases hIdle : sqIdle s n = true
  · rw [if_pos hIdle]
    exact if_pos ⟨hOff, rfl, hIdle, rfl⟩
  · rw [if_neg hIdle]
    exact if_neg fun hAll => hIdle hAll.2.2.1

theorem writeSqCfg_disable {s : State} {n : Nat} {v : W64} {q : Sq} (h : tget s.sqs n = some q) (hOn : cfgEnable (sqCfg s n) = true)
    (hClear : bit v 0 = false) (hBatches : q.batches = []) (hWaits : waitPending s n = false) :
    writeSqCfg s n v = if sqIdle s n = true then
        occurRing (withIdleTold (regSet s blkWQS (0x400 + 8 * n) (sqCfg s n &&& ~~~ (1 : W64))) n q true) blkWQS q.owner 0x302
          (put32 n 6 0 ||| put32 q.owner.toNat 4 8) 0
      else withIdleTold (regSet s blkWQS (0x400 + 8 * n) (sqCfg s n &&& ~~~ (1 : W64))) n q false := by
  have hOff : cfgEnable (sqCfg (regSet s blkWQS (0x400 + 8 * n) (sqCfg s n &&& ~~~ (1 : W64))) n) = false := by
    rw [sqCfg, regGet_regSet_self, cfgEnable_cleared]
  have hDisable := (disableSq_quiet (s := regSet s blkWQS (0x400 + 8 * n) (sqCfg s n &&& ~~~ (1 : W64))) h hBatches hWaits).trans
    (idleCheck_disabled hBatches hOff)
  unfold writeSqCfg
  rw [h]
  dsimp only
  rw [hOn, Bool.not_true, Bool.false_and, mergedCfg_disable _ _ _ hClear, cfgEnable_cleared]
  exact hDisable

theorem writeCqCfg_disable {s : State} {n : Nat} {v : W64} {c : Cq} (h : tget s.cqs n = some c) (hOn : cfgEnable (cqCfg s n) = true)
    (hClear : bit v 0 = false) : writeCqCfg s n v =
      if namedByBusy s n then s else regSet s blkWQC (0x400 + 8 * n) (cqCfg s n &&& ~~~ (1 : W64)) := by
  unfold writeCqCfg
  rw [h]
  dsimp only
  rw [hOn, Bool.not_true, Bool.false_and, mergedCfg_disable _ _ _ hClear, cfgEnable_cleared]
  rfl

/-- Settles O33: enables by R187, disables by what is in flight, the pointer write of R225. -/
theorem ringsAreEnabledAndDisabled : Obligations.RingsAreEnabledAndDisabled := by
  refine fun s w n v => ⟨fun q hMay hRing => ⟨fun hOff hIdle hOn => ?_, fun hOn hClear hBatches hWaits => ⟨fun hIdle => ?_, fun hBusy => ?_⟩⟩,
    fun c hMay hRing => ⟨fun hOff hIdle hOn => ?_, fun hOn hClear => ⟨fun hNamed => ?_, fun hFree => ?_⟩⟩,
    fun hMay => ⟨fun hOff hIdle => ?_, fun hBusy => ?_⟩⟩
  · exact next_congr ((guardedWrite_of_mayWrite _ _ hMay).trans (writeSqCfg_enable hRing hOff hIdle hOn))
  · exact next_congr ((guardedWrite_of_mayWrite _ _ hMay).trans
      ((writeSqCfg_disable hRing hOn hClear hBatches hWaits).trans (if_pos hIdle)))
  · exact next_congr ((guardedWrite_of_mayWrite _ _ hMay).trans
      ((writeSqCfg_disable hRing hOn hClear hBatches hWaits).trans (if_neg (by rw [hBusy]; decide))))
  · exact next_congr ((guardedWrite_of_mayWrite _ _ hMay).trans (writeCqCfg_enable hRing hOff hIdle hOn))
  · exact next_congr ((guardedWrite_of_mayWrite _ _ hMay).trans ((writeCqCfg_disable hRing hOn hClear).trans (if_pos hNamed)))
  · exact next_congr ((guardedWrite_of_mayWrite _ _ hMay).trans
      ((writeCqCfg_disable hRing hOn hClear).trans (if_neg (by rw [hFree]; decide))))
  · exact next_congr ((guardedWrite_of_mayWrite _ _ hMay).trans (if_pos (by rw [hOff, hIdle]; rfl)))
  · refine next_congr ((guardedWrite_of_mayWrite _ _ hMay).trans (if_neg ?_))
    rcases hBusy with hOn | hBusy
    · simp [hOn]
    · simp [hBusy]

end Sys2Proof.Machine
end

section
/-! Entries in flight: reading them back, and what adds none (R201). -/

namespace Sys2Proof.Machine

/-! ### Reading entries back -/

theorem entryOf?_ref {s : State} {r : EntryRef} {e : Entry} (h : entryOf? s r = some e) : e.ref = r := by
  have := List.find?_some h
  exact of_decide_eq_true this

theorem find?_replace (l : List Entry) (e : Entry) (r : EntryRef) :
    (l.map fun x => if x.ref = e.ref then e else x).find? (fun x => decide (x.ref = r)) =
      (l.find? fun x => decide (x.ref = r)).map fun x => if x.ref = e.ref then e else x := by
  rw [List.find?_map]
  congr 2
  funext x
  by_cases hSame : x.ref = e.ref
  · simp [hSame]
  · simp [hSame]

theorem entryOf?_setEntry (s : State) (e : Entry) (r : EntryRef) :
    entryOf? (setEntry s e) r = (entryOf? s r).map fun x => if x.ref = e.ref then e else x := find?_replace s.entries e r

theorem entryOf?_setEntry_self {s : State} {r : EntryRef} {x : Entry} (h : entryOf? s r = some x) {e : Entry} (hRef : e.ref = r) :
    entryOf? (setEntry s e) r = some e := by
  rw [entryOf?_setEntry, h, Option.map_some, if_pos ((entryOf?_ref h).trans hRef.symm)]

theorem entryOf?_setEntry_ne (s : State) {e : Entry} {r : EntryRef} (h : r ≠ e.ref) : entryOf? (setEntry s e) r = entryOf? s r := by
  rw [entryOf?_setEntry]
  cases hFound : entryOf? s r with
  | none => rfl
  | some x => rw [Option.map_some, if_neg fun hSame => h ((entryOf?_ref hFound).symm.trans hSame)]

theorem entryOf?_leaveFlight_self (s : State) (r : EntryRef) : entryOf? (leaveFlight s r) r = none := by
  refine List.find?_eq_none.mpr fun e he => ?_
  have hOther := (List.mem_filter.mp he).2
  simpa using hOther

/-- The end of an entry in flight (R207). -/
theorem endEntry_eq {s : State} {r : EntryRef} {e : Entry} (h : entryOf? s r = some e) (hPhase : e.phase = .fetched ∨ e.phase = .running)
    (st : Byte) (res : W32) : endEntry s r st res = setEntry s { e with phase := .ended, status := st, result := res } := by
  unfold endEntry
  rw [h]
  refine if_neg ?_
  rcases hPhase with hPhase | hPhase <;> rw [hPhase] <;> decide

/-! ### What adds no entry -/

/-- An entry that is not in flight in `s` is not in flight in `t`. -/
def NoNewEntry (s t : State) : Prop := ∀ r, entryOf? s r = none → entryOf? t r = none

theorem NoNewEntry.refl (s : State) : NoNewEntry s s := fun _ h => h

theorem NoNewEntry.trans {s t u : State} (h : NoNewEntry s t) (k : NoNewEntry t u) : NoNewEntry s u := fun r hr => k r (h r hr)

theorem NoNewEntry.of_entries {s t : State} (h : t.entries = s.entries) : NoNewEntry s t := fun r hr => by
  unfold entryOf? at hr ⊢
  rwa [h]

/-- What adds no entry to a state with the same entries adds none. -/
theorem NoNewEntry.after {s u t : State} (h : NoNewEntry u t) (hSame : u.entries = s.entries) : NoNewEntry s t :=
  (NoNewEntry.of_entries hSame).trans h

/-- What keeps the entries after a step that adds none. -/
theorem NoNewEntry.before {s u t : State} (h : NoNewEntry s u) (hSame : t.entries = u.entries) : NoNewEntry s t :=
  h.trans (.of_entries hSame)

theorem foldl_noNewEntry {α : Type} (g : State → α → State) (hg : ∀ u a, NoNewEntry u (g u a)) (l : List α) (u : State) :
    NoNewEntry u (l.foldl g u) := by
  induction l generalizing u with
  | nil => exact .refl u
  | cons a t ih => exact (hg u a).trans (ih _)

theorem OnlyNoted.noNewEntry {s t : State} (h : OnlyNoted s t) : NoNewEntry s t := .of_entries (by rw [h.eq_noteFields]; rfl)

theorem OnlyNoted.sqs {s t : State} (h : OnlyNoted s t) : t.sqs = s.sqs := by rw [h.eq_noteFields]; rfl

section NoNew

variable (s : State)

theorem setEntry_noNewEntry (e : Entry) : NoNewEntry s (setEntry s e) := fun r hr => by
  rw [entryOf?_setEntry, hr]
  rfl

theorem leaveFlight_noNewEntry (r : EntryRef) : NoNewEntry s (leaveFlight s r) := fun _ hx =>
  List.find?_eq_none.mpr fun e he => List.find?_eq_none.mp hx e (List.mem_filter.mp he).1

theorem occur_noNewEntry (b : Nat) (c : BitVec 12) (p0 p1 : W32) : NoNewEntry s (occur s b c p0 p1) :=
  (occurAt_onlyNoted s _ _ b c p0 p1).noNewEntry

theorem occurRing_noNewEntry (b : Nat) (d : Dom) (c : BitVec 12) (p0 p1 : W32) : NoNewEntry s (occurRing s b d c p0 p1) :=
  (occurRing_onlyNoted s b d c p0 p1).noNewEntry

theorem copyTo_noNewEntry (kind : Byte) (b : Nat) (c : BitVec 12) (p0 p1 : W32) (l : List Nat) :
    NoNewEntry s (copyTo s kind b c p0 p1 l) := (copyTo_onlyNoted s kind b c p0 p1 l).noNewEntry

theorem violate_noNewEntry (d : Dom) (v : Viol) (o : Origin) : NoNewEntry s (violate s d v o) :=
  (occur_noNewEntry _ blkDOM 0x206 _ _).after rfl

theorem noteFailing_noNewEntry (kind : Nat) (l : List Nat) : NoNewEntry s (noteFailing s kind l) :=
  foldl_noNewEntry (fun u w => noteParity u kind w (failMask l w))
    (fun _ _ => (occur_noNewEntry _ blkBUF 0x801 _ _).after rfl) _ s

theorem memWrite_noNewEntry (a : Nat) (l : List Byte) : NoNewEntry s (memWrite s a l) := .of_entries (by rw [memWrite_eq])

theorem endEntry_noNewEntry (r : EntryRef) (st : Byte) (res : W32) : NoNewEntry s (endEntry s r st res) := by
  unfold endEntry
  split
  · exact .refl s
  · split
    · exact .refl s
    · exact setEntry_noNewEntry s _

theorem idleCheck_noNewEntry (n : Nat) : NoNewEntry s (idleCheck s n) := by
  unfold idleCheck
  split
  · exact .refl s
  · split
    · exact (occurRing_noNewEntry _ _ _ _ _ _).after rfl
    · exact .refl s

theorem testWaits_noNewEntry (n : Nat) : NoNewEntry s (testWaits s n) := by
  refine foldl_noNewEntry _ (fun u e => ?_) _ s
  dsimp only
  split
  · exact .refl u
  · split
    · exact (endEntry_noNewEntry _ _ _ _).after rfl
    · exact .refl u

theorem countGuarantee_noNewEntry (x : Compl) (e : Entry) : NoNewEntry s (countGuarantee s x e) := by
  unfold countGuarantee
  dsimp only
  split
  · exact .refl s
  · split
    · exact (occur_noNewEntry _ _ _ _ _).after rfl
    · exact .of_entries rfl

theorem ite_noNewEntry (p : Prop) [Decidable p] {t u : State} (ht : NoNewEntry s t) (hu : NoNewEntry s u) :
    NoNewEntry s (if p then t else u) := by
  split
  · exact ht
  · exact hu

theorem complWritten_noNewEntry (q : Nat) (c : Cq) (x : Compl) : NoNewEntry s (complWritten s q c x) := by
  unfold complWritten
  dsimp only
  refine NoNewEntry.trans ?_ ((testWaits_noNewEntry _ _).trans (idleCheck_noNewEntry _ _))
  cases x.ref with
  | none =>
    exact (ite_noNewEntry _ _ (copyTo_noNewEntry _ _ _ _ _ _ _) (.refl _)).after rfl
  | some r =>
    refine NoNewEntry.trans ?_ (leaveFlight_noNewEntry _ r)
    refine NoNewEntry.trans ?_ (ite_noNewEntry _ _ (copyTo_noNewEntry _ _ _ _ _ _ _) (.refl _))
    dsimp only
    split
    · exact .of_entries rfl
    · exact (countGuarantee_noNewEntry _ _ _).after rfl

theorem noteFull_noNewEntry (q : Nat) (c : Cq) (p : Bool) : NoNewEntry s (noteFull s q c p) := by
  unfold noteFull
  split
  · exact .refl s
  · exact (occurRing_noNewEntry _ _ _ _ _ _).after rfl

theorem writeFirst_noNewEntry (q : Nat) : NoNewEntry s (writeFirst s q).1 := by
  unfold writeFirst
  cases tget s.cqs q with
  | none => exact .refl s
  | some c =>
    dsimp only
    cases c.held with
    | nil => exact .refl s
    | cons x l =>
      dsimp only
      split
      · exact complWritten_noNewEntry _ _ _ _
      · split
        · exact (violate_noNewEntry _ _ _ _).trans (complWritten_noNewEntry _ _ _ _)
        · split
          · exact (noteFailing_noNewEntry _ _ _).trans (noteFull_noNewEntry _ _ _ _)
          · split
            · exact noteFull_noNewEntry _ _ _ _
            · exact ((memWrite_noNewEntry _ _ _).trans (memWrite_noNewEntry _ _ _)).trans (complWritten_noNewEntry _ _ _ _)

theorem drainCq_noNewEntry (q k : Nat) : NoNewEntry s (drainCq s q k) := by
  induction k generalizing s with
  | zero => exact .refl s
  | succ k ih =>
    have hFirst := writeFirst_noNewEntry s q
    unfold drainCq
    split
    next u h => rw [h] at hFirst; exact hFirst.trans (ih u)
    next u h =>
      rw [h] at hFirst
      split
      · exact hFirst
      · exact hFirst.trans (ite_noNewEntry _ _ (.of_entries rfl) (.refl _))

theorem retryCq_noNewEntry (q : Nat) : NoNewEntry s (retryCq s q) := by
  unfold retryCq
  split
  · exact .refl s
  · exact drainCq_noNewEntry s q _

theorem readyCompl_noNewEntry (x : Compl) : NoNewEntry s (readyCompl s x) := by
  unfold readyCompl
  dsimp only
  split
  · exact .of_entries rfl
  · exact (retryCq_noNewEntry _ _).after rfl

theorem batchCheck_noNewEntry (n : Nat) : NoNewEntry s (batchCheck s n) := by
  unfold batchCheck
  split
  · exact .refl s
  · split
    · exact .refl s
    · exact (readyCompl_noNewEntry _ _).after rfl

theorem completeEntry_noNewEntry (e : Entry) : NoNewEntry s (completeEntry s e) := by
  unfold completeEntry
  dsimp only
  split
  · exact (setEntry_noNewEntry s _).trans (readyCompl_noNewEntry _ _)
  · split
    · refine NoNewEntry.trans ?_ ((batchCheck_noNewEntry _ _).trans (idleCheck_noNewEntry _ _))
      exact (leaveFlight_noNewEntry s _).before rfl
    · refine NoNewEntry.trans ?_ ((readyCompl_noNewEntry _ _).trans (batchCheck_noNewEntry _ _))
      exact (setEntry_noNewEntry _ _).after rfl

theorem completeAll_noNewEntry : NoNewEntry s (completeAll s) := foldl_noNewEntry _ (fun u e => completeEntry_noNewEntry u e) _ s

theorem conclude_noNewEntry (r : EntryRef) : NoNewEntry s (conclude s r) := by
  unfold conclude
  cases entryOf? s r with
  | none => exact .refl s
  | some e =>
    dsimp only
    split
    · exact .refl s
    · split
      · exact .refl s
      · exact (ite_noNewEntry s _ (occur_noNewEntry _ _ _ _ _) (.refl s)).trans (endEntry_noNewEntry _ _ _ _)

theorem abortEntry_noNewEntry (e : Entry) (st : Byte) : NoNewEntry s (abortEntry s e st) := by
  unfold abortEntry
  dsimp only
  split
  · exact .refl s
  · split
    · split
      · exact (setEntry_noNewEntry s _).trans (endEntry_noNewEntry _ _ _ _)
      · exact (setEntry_noNewEntry s _).trans (conclude_noNewEntry _ _)
    · exact endEntry_noNewEntry _ _ _ _

theorem abortOp_noNewEntry (o : ArrayOp) (st : Byte) : NoNewEntry s (abortOp s o st) := by
  unfold abortOp
  cases o.owner with
  | none => exact .refl s
  | some r =>
    dsimp only
    cases entryOf? s r.ref with
    | none => exact .refl s
    | some e =>
      dsimp only
      split
      · exact (setEntry_noNewEntry s _).trans (conclude_noNewEntry _ _)
      · exact abortEntry_noNewEntry _ _ _

theorem abortChannel_noNewEntry (c : Nat) (st : Byte) : NoNewEntry s (abortChannel s c st) :=
  foldl_noNewEntry _ (fun u _ => foldl_noNewEntry _ (fun v o => abortOp_noNewEntry v o st) _ u) _ s

theorem loseEntry_noNewEntry (e : Entry) : NoNewEntry s (loseEntry s e) := by
  unfold loseEntry
  dsimp only
  refine NoNewEntry.trans ?_ ((batchCheck_noNewEntry _ _).trans (idleCheck_noNewEntry _ _))
  exact (leaveFlight_noNewEntry s _).before rfl

theorem abortAll_noNewEntry : NoNewEntry s (abortAll s) := by
  unfold abortAll
  dsimp only
  refine (foldl_noNewEntry _ loseEntry_noNewEntry _ s).trans (foldl_noNewEntry _ (fun u e => ?_) _ _)
  split
  · exact .refl u
  · exact abortEntry_noNewEntry _ _ _

theorem dropGuarantees_noNewEntry : NoNewEntry s (dropGuarantees s) := fun r hr =>
  List.find?_eq_none.mpr fun e he => by
    obtain ⟨x, hx, rfl⟩ := List.mem_map.mp he
    exact List.find?_eq_none.mp hr x hx

theorem stopChannel_entries (c : Nat) : (stopChannel s c).entries = s.entries := by
  unfold stopChannel
  dsimp only
  split <;> split <;> (try split) <;> rfl

theorem stopChannel_noNewEntry (c : Nat) : NoNewEntry s (stopChannel s c) := .of_entries (stopChannel_entries s c)

theorem dropSuspended_noNewEntry : NoNewEntry s (dropSuspended s) := by
  unfold dropSuspended
  refine foldl_noNewEntry _ (fun u c => foldl_noNewEntry _ (fun v e => ?_) _ u) _ s
  split
  · exact .refl v
  next o _ => exact (abortOp_noNewEntry v o stABORTED).before rfl

theorem openFinish_noNewEntry : NoNewEntry s (openFinish s) := by
  have hStopped : NoNewEntry s ((List.range 8).foldl (fun s c => if busyLuns s c = 0 then stopChannel s c else s) s) :=
    foldl_noNewEntry _ (fun u c => ite_noNewEntry u _ (stopChannel_noNewEntry u c) (.refl u)) _ s
  unfold openFinish
  generalize (List.range 8).foldl (fun s c => if busyLuns s c = 0 then stopChannel s c else s) s = u at hStopped ⊢
  exact hStopped.before rfl

theorem closeFinish_noNewEntry : NoNewEntry s (closeFinish s) := by
  have hStopped : NoNewEntry s ((List.range 8).foldl stopChannel (abortAll s)) :=
    (abortAll_noNewEntry s).trans (foldl_noNewEntry _ stopChannel_noNewEntry _ _)
  unfold closeFinish
  dsimp only
  generalize (List.range 8).foldl stopChannel (abortAll s) = u at hStopped ⊢
  exact ite_noNewEntry s _ (hStopped.before rfl) (hStopped.trans ((completeAll_noNewEntry _).after rfl))

theorem stopFlash_noNewEntry (l : List Nat) (w : Bool) : NoNewEntry s (stopFlash s l w) := by
  unfold stopFlash
  dsimp only
  refine ((foldl_noNewEntry _ (fun u c => ?_) l s).trans (dropSuspended_noNewEntry _)).trans
    (ite_noNewEntry _ _ (openFinish_noNewEntry _) (closeFinish_noNewEntry _))
  exact (abortChannel_noNewEntry u c _).trans (stopChannel_noNewEntry _ c)

theorem harmlessEnter_noNewEntry (cause sub : Nat) (reading : W32) : NoNewEntry s (harmlessEnter s cause sub reading) := by
  unfold harmlessEnter
  dsimp only
  exact ((occur_noNewEntry s _ _ _ _).before rfl).trans (dropGuarantees_noNewEntry _)

theorem machineCheck_noNewEntry (blk : Nat) (p0 p1 : W32) (chan : Option Nat) (parity : Bool) :
    NoNewEntry s (machineCheck s blk p0 p1 chan parity) := by
  unfold machineCheck
  dsimp only
  have hEntered : NoNewEntry s (harmlessEnter (occur (if parity then occur s blk 0x601 p0 p1 else s) blk 0x602 p0 p1) (b2n parity)
      (chan.getD 0) 0) := ((ite_noNewEntry s _ (occur_noNewEntry s _ _ _ _) (.refl s)).trans (occur_noNewEntry _ _ _ _ _)).trans
    (harmlessEnter_noNewEntry _ _ _ _)
  cases chan with
  | none => exact hEntered.trans (stopFlash_noNewEntry _ _ _)
  | some c =>
    exact hEntered.trans (((abortChannel_noNewEntry _ c _).trans (stopChannel_noNewEntry _ c)).trans (stopFlash_noNewEntry _ _ _))

end NoNew

end Sys2Proof.Machine
end

section
/-! The ends of NOP, WAIT_COUNT and expired entries, and an entry whose slot fails parity (R191, R202, R216-R218, R247). -/

namespace Sys2Proof.Machine

/-! ### The harmless state lasts through the stop of the flash (R504, R505) -/

theorem outsideFlash_harmless {s t : State} (h : outsideFlash t = outsideFlash s) : t.pmu = s.pmu := (congrArg State.pmu h :)

/-- The state without queues, memory and flash, and without the finish window of R505. -/
def outsideFinish (s : State) : State := outsideFlash { s with pmu := { s.pmu with finish := false, finishAt := 0 } }

theorem outsideFinish_of_outsideFlash {s t : State} (h : outsideFlash t = outsideFlash s) : outsideFinish t = outsideFinish s :=
  (congrArg (fun u : State => { u with pmu := { u.pmu with finish := false, finishAt := 0 } }) h :)

theorem outsideFinish_openFinish (s : State) : outsideFinish (openFinish s) = outsideFinish s := by
  have hFold : outsideFlash ((List.range 8).foldl (fun s c => if busyLuns s c = 0 then stopChannel s c else s) s) = outsideFlash s :=
    foldl_kept outsideFlash _ (fun u c => by split; exact outsideFlash_stopChannel u c; rfl) _ s
  have hStopped := outsideFinish_of_outsideFlash hFold
  unfold openFinish
  generalize (List.range 8).foldl (fun s c => if busyLuns s c = 0 then stopChannel s c else s) s = u at hStopped ⊢
  exact hStopped

theorem outsideFinish_closeFinish (s : State) : outsideFinish (closeFinish s) = outsideFinish s := by
  have hFold : outsideFlash ((List.range 8).foldl stopChannel (abortAll s)) = outsideFlash s :=
    (foldl_kept outsideFlash _ outsideFlash_stopChannel _ _).trans (outsideFlash_abortAll s)
  have hStopped := outsideFinish_of_outsideFlash hFold
  unfold closeFinish
  dsimp only
  generalize (List.range 8).foldl stopChannel (abortAll s) = u at hStopped ⊢
  split
  · exact hStopped
  · exact (outsideFinish_of_outsideFlash (outsideFlash_completeAll _)).trans hStopped

theorem outsideFinish_stopFlash (s : State) (l : List Nat) (w : Bool) : outsideFinish (stopFlash s l w) = outsideFinish s := by
  have hStopped := outsideFinish_of_outsideFlash ((outsideFlash_dropSuspended _).trans (outsideFlash_stopAborting s l stABORTED))
  unfold stopFlash
  dsimp only
  split
  · exact (outsideFinish_openFinish _).trans hStopped
  · exact (outsideFinish_closeFinish _).trans hStopped

theorem stopFlash_harmless (s : State) (l : List Nat) (w : Bool) : (stopFlash s l w).pmu.harmless = s.pmu.harmless :=
  (congrArg (fun u : State => u.pmu.harmless) (outsideFinish_stopFlash s l w) :)

/-- The harmless state entered for a machine check, before the flash stops (R356, R505). -/
def machineChecked (s : State) (blk : Nat) (p0 p1 : W32) (chan : Option Nat) (parity : Bool) : State :=
  harmlessEnter (occur (if parity then occur s blk 0x601 p0 p1 else s) blk 0x602 p0 p1) (b2n parity) (chan.getD 0) 0

theorem machineCheck_none (s : State) (blk : Nat) (p0 p1 : W32) (parity : Bool) :
    machineCheck s blk p0 p1 none parity = stopFlash (machineChecked s blk p0 p1 none parity) [] true := rfl

theorem machineCheck_some (s : State) (blk : Nat) (p0 p1 : W32) (c : Nat) (parity : Bool) : machineCheck s blk p0 p1 (some c) parity =
    stopFlash (stopChannel (abortChannel (machineChecked s blk p0 p1 (some c) parity) c stMCHECK) c) [] true := rfl

theorem machineCheck_harmless (s : State) (blk : Nat) (p0 p1 : W32) (chan : Option Nat) (parity : Bool) :
    (machineCheck s blk p0 p1 chan parity).pmu.harmless = true := by
  have hEntered : (machineChecked s blk p0 p1 chan parity).pmu.harmless = true := harmlessEnter_harmless _ _ _ _
  cases chan with
  | none => rw [machineCheck_none, stopFlash_harmless, hEntered]
  | some c =>
    rw [machineCheck_some, stopFlash_harmless,
      outsideFlash_harmless ((outsideFlash_stopChannel _ c).trans (outsideFlash_abortChannel _ c stMCHECK)), hEntered]

/-! ### A slot that fails parity (R202) -/

/-- The entry leaves flight and nothing puts it back. -/
theorem entryOf?_entryStoreFails (s : State) (e : Entry) : entryOf? (entryStoreFails s e) e.ref = none := by
  have hGone : entryOf? (loseEntry s e) e.ref = none := by
    unfold loseEntry
    dsimp only
    refine ((batchCheck_noNewEntry _ _).trans (idleCheck_noNewEntry _ _)) e.ref ?_
    exact entryOf?_leaveFlight_self s e.ref
  unfold entryStoreFails
  exact machineCheck_noNewEntry _ _ _ _ _ _ e.ref hGone

theorem entryStoreFails_harmless (s : State) (e : Entry) : (entryStoreFails s e).pmu.harmless = true := by
  unfold entryStoreFails
  exact machineCheck_harmless _ _ _ _ _ _

section Slot

variable {s : State} {r : EntryRef} {e : Entry} (h : entryOf? s r = some e)

include h

theorem withSlot_bad (hBad : slotBad e = true) (f : State) : withSlot s r f = entryStoreFails s e := by
  unfold withSlot
  rw [h]
  exact if_pos hBad

theorem withSlot_good (hGood : slotBad e = false) (f : State) : withSlot s r f = f := by
  unfold withSlot
  rw [h]
  exact if_neg (by rw [hGood]; decide)

end Slot

/-! ### WAIT_COUNT (R216-R218) -/

section Wait

variable {s : State} {r : EntryRef} {e : Entry} (h : entryOf? s r = some e) (hGood : slotBad e = false)

include h hGood

theorem exec_waitCount (hFresh : freshEntry s r opWAIT = some e) : exec (.waitCount r) s = .next (
    match tget s.sqs (fld (ew e.words 1) 5 0) with
    | none => endEntry (violate s e.d { kind := 2, p1 := BitVec.ofNat 32 (regAddr blkWQS (0xA00 + 8 * fld (ew e.words 1) 5 0)) }
        { ring := r.sq }) r stOK 0
    | some q =>
      if q.owner ≠ e.d then
        endEntry (violate s e.d { kind := 2, p1 := BitVec.ofNat 32 (regAddr blkWQS (0xA00 + 8 * fld (ew e.words 1) 5 0)) }
          { ring := r.sq }) r stOK 0
      else if waitMet q.done (BitVec.ofNat 32 (fld (ew e.words 1) 63 32)) then endEntry s r stOK q.done
      else { (setEntry s { e with phase := .running }) with
        sqs := tmod s.sqs r.sq.toNat fun x =>
          { x with wait := some ⟨r.count, BitVec.ofNat 6 (fld (ew e.words 1) 5 0), BitVec.ofNat 32 (fld (ew e.words 1) 63 32)⟩ } }) := by
  refine next_congr ((withSlot_good h hGood _).trans ?_)
  rw [hFresh]
  rfl

/-- The TIMEOUT of a WAIT_COUNT that still waits. -/
theorem exec_waitTimeout {q : Sq} {x : Wait} (hRing : tget s.sqs r.sq.toNat = some q) (hWait : q.wait = some x) (hCount : x.count = r.count)
    (hPhase : e.phase = .running) (hLimit : fld (ew e.words 2) 15 0 ≠ 0) (hOver : e.fetchedAt + fld (ew e.words 2) 15 0 ≤ s.frames) :
    exec (.waitTimeout r) s = .next (endWait
      (occurRing s blkWQS q.owner 0x303 (put32 r.sq.toNat 6 0 ||| put32 q.owner.toNat 4 8) (put32 e.cid.toNat 16 0)) r.sq.toNat q x stTIMEOUT) := by
  refine next_congr ((withSlot_good h hGood _).trans ?_)
  rw [h, hRing]
  dsimp only
  rw [hWait]
  dsimp only
  rw [if_pos ⟨hCount, hPhase, hLimit, hOver⟩, Option.getD_some]

theorem exec_entryExpiry {f : Nat} (hExpires : e.expiresAt = some f) (hOver : f ≤ s.frames) (hFresh : e.begun = false)
    (hPhase : e.phase = .fetched ∨ e.phase = .running) : exec (.entryExpiry r) s = .next (endEntry s r stSTALE 0) := by
  refine next_congr ((withSlot_good h hGood _).trans ?_)
  rw [h]
  dsimp only
  rw [hExpires]
  exact if_pos ⟨hOver, by rw [notStarted, hFresh]; rfl, hPhase⟩

end Wait

/-- Settles O35: the end of an entry by its opcode, and the entry whose slot fails parity. -/
theorem entriesOfTheQueuesEnd : Obligations.EntriesOfTheQueuesEnd := by
  refine ⟨fun s r e st res h hPhase => ?_, fun s r e h => ⟨fun i hBad hWork => ?_, fun hGood hFresh => ?_, fun hGood hFresh => ⟨fun q hRing hOwn hMet => ?_,
    fun q hRing hOwn hUnmet => ?_, fun hForeign => ?_⟩, fun hGood q x hRing hWait hCount hPhase hLimit hOver => ?_,
    fun hGood f hExpires hOver hFresh hPhase => exec_entryExpiry h hGood hExpires hOver hFresh hPhase⟩⟩
  · rw [endEntry_eq h hPhase]
    have hRef := entryOf?_ref h
    exact ⟨entryOf?_setEntry_self h hRef, fun x hx => entryOf?_setEntry_ne s fun hSame => hx (hSame.trans hRef), rfl⟩
  · refine ⟨?_, entryOf?_ref h ▸ entryOf?_entryStoreFails s e, entryStoreFails_harmless s e⟩
    rcases hWork with rfl | rfl | rfl | rfl | rfl <;> exact next_congr (withSlot_bad h hBad _)
  · refine next_congr ((withSlot_good h hGood _).trans ?_)
    rw [hFresh]
    rfl
  · rw [exec_waitCount h hGood hFresh, hRing]
    exact next_congr ((if_neg (not_not_intro hOwn)).trans (if_pos hMet))
  · rw [exec_waitCount h hGood hFresh, hRing]
    exact next_congr ((if_neg (not_not_intro hOwn)).trans (if_neg (by rw [hUnmet]; decide)))
  · rw [exec_waitCount h hGood hFresh]
    refine next_congr ?_
    cases hRing : tget s.sqs (fld (ew e.words 1) 5 0) with
    | none => rfl
    | some q =>
      rw [hRing] at hForeign
      exact if_pos (by simpa using hForeign)
  · rw [exec_waitTimeout h hGood hRing hWait hCount hPhase hLimit hOver]
    refine next_congr ?_
    have hRef : (⟨BitVec.ofNat 6 r.sq.toNat, x.count⟩ : EntryRef) = r := by rw [hCount, BitVec.ofNat_toNat, BitVec.setWidth_eq]
    unfold endWait watchedDone
    rw [hRef, (occurRing_onlyNoted s _ _ _ _ _).sqs]
    rfl

end Sys2Proof.Machine
end

section
/-! ENTRY_FETCH (R192, R194, R200, R203). -/

namespace Sys2Proof.Machine

/-! ### What the checks of an entry read -/

/-- The state with an entry taken: memory, rings, the class's turn and the entries in flight are other. -/
def withTaken (s : State) (m : List Host.Cell) (b : List Nat) (q : Tbl Sq) (f : Tbl Nat) (e : List Entry) : State :=
  { s with mem := m, badMem := b, sqs := q, fetchLast := f, entries := e }

section Checks

variable (s : State) (m : List Host.Cell) (b : List Nat) (q : Tbl Sq) (f : Tbl Nat) (e : List Entry)

theorem formatOk_withTaken (d : Dom) (ws : List W64) : formatOk (withTaken s m b q f e) d ws = formatOk s d ws := rfl

theorem areaViolation_withTaken (d : Dom) (l : List (W32 × Nat × Nat × Bool × Bool)) :
    areaViolation (withTaken s m b q f e) d l = areaViolation s d l := by
  induction l with
  | nil => rfl
  | cons x t ih =>
    unfold areaViolation
    rw [ih]
    rfl

theorem flashViolation_withTaken (d : Dom) (ws : List W64) : flashViolation (withTaken s m b q f e) d ws = flashViolation s d ws := rfl

end Checks

/-! ### The fetch (R192, R201) -/

/-- The judgement of an entry whose bytes read well: OWN, format, then its rights (R194). -/
def judgeFetched (u : State) (e : Entry) : State :=
  if !(weOwn e.words) then rejectEntry u e 1 else if !(formatOk u e.d e.words) then rejectEntry u e 4 else admitEntry u e

/-- The part with the entry of count HEAD in flight and its OWN bit cleared. -/
def takenFrom (s : State) (n a : Nat) (q : Sq) (f : Tbl Nat) (e : Entry) : State :=
  withTaken s (tset s.mem a (memGet s a &&& 0xFE)) (s.badMem.erase a) (tset s.sqs n q) f (s.entries ++ [e])

/-- The entry that a fetch of well-read words makes. -/
def fetchedEntry (s : State) (n : Nat) (q : Sq) (ws : List W64) : Entry :=
  { ref := ⟨BitVec.ofNat 6 n, q.head⟩, d := q.owner, cls := cfgClass (sqCfg s n), words := ws, receipt := receiptOf s q q.head
    fetchedAt := s.frames, cid := weCid ws, batch := (joinBatch q ws (weCid ws)).2, guaranteed := q.sureCounts.contains q.head
    expiresAt := if isFlashOp ws && decide (weExpiry ws ≠ 0) then some (receiptOf s q q.head / 400000 + weExpiry ws) else none }

/-- The ring after the fetch. -/
def fetchedRing (q : Sq) (ws : List W64) : Sq :=
  { (joinBatch q ws (weCid ws)).1 with
    head := q.head + 1
    sureCounts := (joinBatch q ws (weCid ws)).1.sureCounts.filter fun i => decide (i ≠ q.head)
    receipts := (joinBatch q ws (weCid ws)).1.receipts.filter fun r =>
      decide ((r.1 - (q.head + 1)).toNat ≠ 0) && decide ((r.1 - (q.head + 1)).toNat < 32768) }

theorem fetchEntry_eq {s : State} {n a : Nat} {q : Sq}
    (hAddr : slotAddr s (sqBase s n) (64 * (q.head.toNat % ringSize (sqCfg s n))) = some a) (hEnd : a + 64 ≤ 2 ^ 23)
    (hLive : retiredIn s a 64 = none) (hReads : failing s a 64 = []) :
    let ws := wordsOf 8 (memRead s a 64)
    fetchEntry s n q = judgeFetched (takenFrom s n a (fetchedRing q ws) (tset s.fetchLast (cfgClass (sqCfg s n)) n) (fetchedEntry s n q ws))
      (fetchedEntry s n q ws) := by
  have hSet : memSet (noteFailing s 2 []) a (byteAt (memRead s a 64) 0 &&& 0xFE) =
      { s with mem := tset s.mem a (memGet s a &&& 0xFE), badMem := s.badMem.erase a } := if_pos (show a < 2 ^ 23 by omega)
  unfold fetchEntry
  simp only [hAddr, hLive, hReads, Option.isSome_none, Option.isSome_some, Option.isNone_none, Option.getD_some, Bool.false_eq_true,
    if_false, Bool.and_self, if_true, hSet, List.any_nil, Bool.false_and, List.isEmpty_nil, Bool.not_true]
  rfl

/-! ### The entry in flight -/

theorem entryOf?_of_entries {s t : State} (h : t.entries = s.entries) (r : EntryRef) : entryOf? t r = entryOf? s r := by
  unfold entryOf?
  rw [h]

theorem OnlyNoted.entries {s t : State} (h : OnlyNoted s t) : t.entries = s.entries := by rw [h.eq_noteFields]; rfl

theorem entryOf?_takenFrom {s : State} {n a : Nat} {q : Sq} {f : Tbl Nat} {e : Entry} (h : entryOf? s e.ref = none) :
    entryOf? (takenFrom s n a q f e) e.ref = some e := by
  have hAppend : entryOf? (takenFrom s n a q f e) e.ref =
      (entryOf? s e.ref).or ([e].find? fun x => decide (x.ref = e.ref)) := List.find?_append
  rw [hAppend, h]
  simp

section InFlight

variable {u : State} {e : Entry} (h : entryOf? u e.ref = some e) (hPhase : e.phase = .fetched)

include h hPhase

/-- A rejected entry ends BAD_DESCRIPTOR with the bits of its check (R194). -/
theorem rejectEntry_spec (bits : Nat) : entryOf? (rejectEntry u e bits) e.ref = some
      { e with phase := .ended, status := stBAD_DESCRIPTOR, result := BitVec.ofNat 32 bits } ∧ (rejectEntry u e bits).sqs = u.sqs := by
  have hEnd := endEntry_eq h (.inl hPhase) stBAD_DESCRIPTOR (BitVec.ofNat 32 bits)
  unfold rejectEntry
  rw [hEnd]
  have hNoted := occurRing_onlyNoted (setEntry u { e with phase := .ended, status := stBAD_DESCRIPTOR, result := BitVec.ofNat 32 bits })
    blkWQS e.d 0x304 (put32 e.ref.sq.toNat 6 0 ||| put32 e.d.toNat 4 8 ||| put32 bits 3 16) (put32 e.cid.toNat 16 0)
  refine ⟨?_, hNoted.sqs⟩
  rw [entryOf?_of_entries hNoted.entries]
  exact entryOf?_setEntry_self h rfl

end InFlight

theorem legStatus_legsOf {ws : List W64} (hOp : weOpcode ws ≠ opMIRROR) :
    legStatus ((legsOf ws false false).getD 0 { lun := 0 }) = none := by
  unfold legsOf
  dsimp only
  rw [if_neg hOp]
  split
  · rfl
  · split <;> rfl

/-- Nothing of a fresh entry has run: it has no final status yet. -/
theorem finalStatus_fresh {e : Entry} (hPlanes : e.planes = []) (hOp : weOpcode e.words ≠ opMIRROR) (hLeg : legStatus (leg0 e) = none) :
    finalStatus e = none := by
  unfold finalStatus
  simp only [hPlanes, List.isEmpty_nil, Bool.not_true, Bool.false_and, Bool.false_eq_true, if_false, Bool.not_false, if_true, hLeg,
    if_neg hOp, ite_self]

theorem conclude_unfinished {u : State} {r : EntryRef} {e : Entry} (h : entryOf? u r = some e) (hNone : finalStatus e = none) :
    conclude u r = u := by
  unfold conclude
  rw [h]
  dsimp only
  rw [hNone]
  exact ite_self _

/-- An entry other than a MIRROR_PROGRAM that passes checks 4 and 5 stays in flight, fetched (R194, R309). -/
theorem admitEntry_admitted {u : State} {e : Entry} (h : entryOf? u e.ref = some e) (hPlanes : e.planes = [])
    (hOp : weOpcode e.words ≠ opMIRROR) (hArea : areaViolation u e.d (areasOf e.words) = none) (hFlash : flashViolation u e.d e.words = none)
    (hBase : baselineLimited u e.words = false) : ∃ l k g x w, admitEntry u e =
      setEntry u { e with legs := l, key := k, keyGen := g, extents := x, guaranteed := w } := by
  unfold admitEntry
  simp only [hArea, hFlash, if_neg hOp, hBase, Option.isSome_none, Bool.false_and, Bool.false_eq_true, if_false]
  refine ⟨_, _, _, _, _, conclude_unfinished (entryOf?_setEntry_self h rfl) (finalStatus_fresh hPlanes hOp ?_)⟩
  exact legStatus_legsOf hOp

/-! ### The judgement of a fetch (R194) -/

section Judged

variable {u : State} {e : Entry}

theorem judgeFetched_unowned (hOwn : weOwn e.words = false) : judgeFetched u e = rejectEntry u e 1 := if_pos (by rw [hOwn]; rfl)

theorem judgeFetched_badFormat (hOwn : weOwn e.words = true) (hFormat : formatOk u e.d e.words = false) :
    judgeFetched u e = rejectEntry u e 4 := by
  unfold judgeFetched
  rw [hOwn, hFormat]
  rfl

theorem judgeFetched_passes (hOwn : weOwn e.words = true) (hFormat : formatOk u e.d e.words = true) :
    judgeFetched u e = admitEntry u e := by
  unfold judgeFetched
  rw [hOwn, hFormat]
  rfl

end Judged

theorem exec_entryFetch {s : State} {n : BitVec 6} {q : Sq} (h : tget s.sqs n.toNat = some q) :
    exec (.entryFetch n) s = .next (if !(fetchHeld s) && decide (nextRing s = some n.toNat) then fetchEntry s n.toNat q else s) := by
  refine next_congr ?_
  rw [h]

section TakenFrom

variable (s : State) (n a : Nat) (r : Sq) (f : Tbl Nat) (e : Entry) (d : Dom) (ws : List W64)

theorem formatOk_takenFrom : formatOk (takenFrom s n a r f e) d ws = formatOk s d ws := rfl

theorem areaViolation_takenFrom : areaViolation (takenFrom s n a r f e) d (areasOf ws) = areaViolation s d (areasOf ws) :=
  areaViolation_withTaken _ _ _ _ _ _ _ _

theorem flashViolation_takenFrom : flashViolation (takenFrom s n a r f e) d ws = flashViolation s d ws := rfl

theorem baselineLimited_takenFrom : baselineLimited (takenFrom s n a r f e) ws = baselineLimited s ws := rfl

end TakenFrom

/-- Settles O34: the entry of count HEAD is taken, its OWN bit cleared, and judged by R194. -/
theorem entriesAreFetchedInTurn : Obligations.EntriesAreFetchedInTurn := by
  refine fun s n q a hRing => ⟨fun hNot => ?_, fun hHeld hTurn hAddr hEnd hLive hReads hFresh => ?_⟩
  · rw [exec_entryFetch hRing]
    refine next_congr (if_neg ?_)
    rcases hNot with hHeld | hTurn
    · simp [hHeld]
    · simp [hTurn]
  · have hExec : exec (.entryFetch n) s = .next (fetchEntry s n.toNat q) := by
      rw [exec_entryFetch hRing]
      exact next_congr (if_pos (by simp [hHeld, hTurn]))
    rw [hExec, fetchEntry_eq hAddr hEnd hLive hReads]
    dsimp only
    generalize wordsOf 8 (memRead s a 64) = ws
    have hRef : (fetchedEntry s n.toNat q ws).ref = ⟨n, q.head⟩ := by
      show (⟨BitVec.ofNat 6 n.toNat, q.head⟩ : EntryRef) = _
      rw [BitVec.ofNat_toNat, BitVec.setWidth_eq]
    have hMade : (fetchedEntry s n.toNat q ws).d = q.owner ∧ (fetchedEntry s n.toNat q ws).words = ws ∧
        (fetchedEntry s n.toNat q ws).phase = .fetched ∧ (fetchedEntry s n.toNat q ws).begun = false ∧
        (fetchedEntry s n.toNat q ws).planes = [] := ⟨rfl, rfl, rfl, rfl, rfl⟩
    have hHead : (fetchedRing q ws).head = q.head + 1 := rfl
    generalize fetchedEntry s n.toNat q ws = e at hRef hMade ⊢
    generalize fetchedRing q ws = r at hHead ⊢
    generalize tset s.fetchLast (cfgClass (sqCfg s n.toNat)) n.toNat = f
    obtain ⟨hDom, rfl, hPhase, hBegun, hPlanes⟩ := hMade
    have hTaken : entryOf? (takenFrom s n.toNat a r f e) e.ref = some e := entryOf?_takenFrom (by rw [hRef]; exact hFresh)
    have hRings : (tget (takenFrom s n.toNat a r f e).sqs n.toNat).map (·.head) = some (q.head + 1) := by
      rw [← hHead]
      exact congrArg _ (tget_tset_self _ _ _)
    refine ⟨fun hOwn => ?_, fun hOwn hFormat => ?_, fun hOwn hFormat hOp hArea hFlash hBase => ?_⟩
    · obtain ⟨hEntry, hSqs⟩ := rejectEntry_spec hTaken hPhase 1
      rw [hRef] at hEntry
      exact ⟨_, _, next_congr (judgeFetched_unowned hOwn), hEntry, rfl, hDom, rfl, rfl, rfl, hSqs ▸ hRings⟩
    · obtain ⟨hEntry, hSqs⟩ := rejectEntry_spec hTaken hPhase 4
      rw [hRef] at hEntry
      rw [← hDom, ← formatOk_takenFrom s n.toNat a r f e] at hFormat
      exact ⟨_, _, next_congr (judgeFetched_badFormat hOwn hFormat), hEntry, rfl, rfl, rfl, rfl, hSqs ▸ hRings⟩
    · rw [← hDom] at hFormat hArea hFlash
      rw [← formatOk_takenFrom s n.toNat a r f e] at hFormat
      rw [← areaViolation_takenFrom s n.toNat a r f e] at hArea
      rw [← flashViolation_takenFrom s n.toNat a r f e] at hFlash
      rw [← baselineLimited_takenFrom s n.toNat a r f e] at hBase
      obtain ⟨l, k, g, x, w, hAdmit⟩ := admitEntry_admitted hTaken hPlanes hOp hArea hFlash hBase
      have hFound : entryOf? (takenFrom s n.toNat a r f e) ⟨n, q.head⟩ = some e := hRef ▸ hTaken
      have hEntry := entryOf?_setEntry_self hFound (e := { e with legs := l, key := k, keyGen := g, extents := x, guaranteed := w }) hRef
      exact ⟨_, _, next_congr ((judgeFetched_passes hOwn hFormat).trans hAdmit), hEntry, rfl, hDom, hPhase, hBegun, hRings,
        tgetD_tset_self _ _ _ _, fun y hy => tgetD_tset_ne _ _ _ hy, rfl, rfl, rfl, rfl⟩

end Sys2Proof.Machine
end

section
/-! Completions (R205, R207, R208): what is written, and to which ring. -/

namespace Sys2Proof.Machine

/-! ### Reading memory -/

theorem memRead_add (s : State) (a m n : Nat) : memRead s a (m + n) = memRead s a m ++ memRead s (a + m) n := by
  induction m generalizing a with
  | zero => rw [Nat.zero_add]; rfl
  | succ m ih =>
    have hNext : a + 1 + m = a + (m + 1) := by omega
    rw [Nat.succ_add, memRead, memRead, ih, hNext]
    rfl

theorem memRead_memWrite_after (s : State) {a x : Nat} (n : Nat) (l : List Byte) (h : a + l.length ≤ x) :
    memRead (memWrite s a l) x n = memRead s x n := by
  induction n generalizing x with
  | zero => rfl
  | succ n ih => rw [memRead, memRead, memGet_memWrite_after s l h, ih (by omega)]

theorem memGet_congr {s t : State} (hMem : t.mem = s.mem) (hPowers : t.powers = s.powers) (a : Nat) : memGet t a = memGet s a := by
  unfold memGet
  rw [hMem, hPowers]

theorem memRead_congr {s t : State} (hMem : t.mem = s.mem) (hPowers : t.powers = s.powers) (a n : Nat) : memRead t a n = memRead s a n := by
  induction n generalizing a with
  | zero => rfl
  | succ n ih => rw [memRead, memRead, memGet_congr hMem hPowers, ih]

/-! ### What follows a completion leaves memory and completion rings alone -/

/-- Memory, its power-up contents and the completion rings. -/
def memCqs (s : State) : List Host.Cell × Nat × Tbl Cq := (s.mem, s.powers, s.cqs)

theorem OnlyNoted.memCqs {s t : State} (h : OnlyNoted s t) : memCqs t = memCqs s := by rw [h.eq_noteFields]; rfl

section MemCqs

variable (s : State)

theorem memCqs_occur (b : Nat) (c : BitVec 12) (p0 p1 : W32) : memCqs (occur s b c p0 p1) = memCqs s :=
  (occurAt_onlyNoted s _ _ b c p0 p1).memCqs

theorem memCqs_occurRing (b : Nat) (d : Dom) (c : BitVec 12) (p0 p1 : W32) : memCqs (occurRing s b d c p0 p1) = memCqs s :=
  (occurRing_onlyNoted s b d c p0 p1).memCqs

theorem memCqs_copyTo (kind : Byte) (b : Nat) (c : BitVec 12) (p0 p1 : W32) (l : List Nat) :
    memCqs (copyTo s kind b c p0 p1 l) = memCqs s := (copyTo_onlyNoted s kind b c p0 p1 l).memCqs

theorem memCqs_endEntry (r : EntryRef) (st : Byte) (res : W32) : memCqs (endEntry s r st res) = memCqs s := by
  unfold endEntry
  split
  · rfl
  · split <;> rfl

theorem memCqs_idleCheck (n : Nat) : memCqs (idleCheck s n) = memCqs s := by
  unfold idleCheck
  split
  · rfl
  · split
    · exact memCqs_occurRing _ _ _ _ _ _
    · rfl

theorem memCqs_testWaits (n : Nat) : memCqs (testWaits s n) = memCqs s := by
  refine foldl_kept memCqs _ (fun u e => ?_) _ s
  dsimp only
  split
  · rfl
  · split
    · exact memCqs_endEntry _ _ _ _
    · rfl

theorem memCqs_countGuarantee (x : Compl) (e : Entry) : memCqs (countGuarantee s x e) = memCqs s := by
  unfold countGuarantee
  dsimp only
  split
  · rfl
  · split
    · exact memCqs_occur _ _ _ _ _
    · rfl

/-- A written completion advances TAIL; memory and the other completion rings stay. -/
theorem memCqs_complWritten (q : Nat) (c : Cq) (x : Compl) : memCqs (complWritten s q c x) =
    (s.mem, s.powers, tset s.cqs q { c with tail := c.tail + 1, held := c.held.tail }) := by
  unfold complWritten
  cases x.ref with
  | none =>
    dsimp only
    rw [memCqs_idleCheck, memCqs_testWaits, apply_ite memCqs, memCqs_copyTo, ite_self]
    rfl
  | some r =>
    dsimp only
    rw [memCqs_idleCheck, memCqs_testWaits]
    show memCqs (ite _ _ _) = _
    rw [apply_ite memCqs, memCqs_copyTo, ite_self]
    split
    · rfl
    · exact memCqs_countGuarantee _ _ _

end MemCqs

/-- The entry of a written completion leaves flight (R201). -/
theorem entryOf?_complWritten (s : State) (q : Nat) (c : Cq) {x : Compl} {r : EntryRef} (h : x.ref = some r) :
    entryOf? (complWritten s q c x) r = none := by
  unfold complWritten
  rw [h]
  exact ((testWaits_noNewEntry _ _).trans (idleCheck_noNewEntry _ _)) r (entryOf?_leaveFlight_self _ r)

/-! ### Draining a ring (R208) -/

section Drain

variable {s u : State} {q : Nat} (k : Nat)

theorem drainCq_step (h : writeFirst s q = (u, true)) : drainCq s q (k + 1) = drainCq u q k := by
  rw [drainCq, h]

theorem drainCq_stopped {c : Cq} (h : writeFirst s q = (u, false)) (hRing : tget u.cqs q = some c) : drainCq s q (k + 1) =
    if c.held.isEmpty then { u with cqs := tset u.cqs q { c with full := false } } else u := by
  rw [drainCq, h]
  dsimp only
  rw [hRing]

end Drain

theorem writeFirst_none {s : State} {q : Nat} {c : Cq} (h : tget s.cqs q = some c) (hHeld : c.held = []) :
    writeFirst s q = (s, false) := by
  unfold writeFirst
  simp only [h, hHeld]

/-! ### The one completion a ring holds -/

section OneHeld

variable {s : State} {q a : Nat} {c : Cq} {x : Compl} (hRing : tget s.cqs q = some c) (hHeld : c.held = [x])
  (hAddr : slotAddr s (cqBase s q) (32 * (c.tail.toNat % ringSize (cqCfg s q))) = some a)
  (hLive : retiredIn s a 32 = none) (hParity : parityBad s a = false)

include hRing hHeld hAddr hLive hParity

/-- Into a free slot the four words go, the first last (R207). -/
theorem writeFirst_free (hFree : (memGet s a).getLsbD 0 = false) : writeFirst s q =
    (complWritten (memWrite (memWrite s (a + 8) (bytesOf ((complWords s x c.owner).drop 1))) a (bytesOf ((complWords s x c.owner).take 1)))
      q c x, true) := by
  unfold writeFirst
  simp only [hRing, hHeld, hAddr, hLive, hParity, hFree, Bool.false_eq_true, if_false]

theorem writeFirst_owned (hOwned : (memGet s a).getLsbD 0 = true) : writeFirst s q = (noteFull s q c false, false) := by
  unfold writeFirst
  simp only [hRing, hHeld, hAddr, hLive, hParity, hOwned, Bool.false_eq_true, if_false, if_true]

theorem retryCq_owned (hOwned : (memGet s a).getLsbD 0 = true) (hFull : c.full = false) : retryCq s q =
    occurRing { s with cqs := tset s.cqs q { c with full := true } } blkWQC c.owner 0x305 (put32 q 6 0 ||| put32 c.owner.toNat 4 8) 0 := by
  have hNote : noteFull s q c false = occurRing { s with cqs := tset s.cqs q { c with full := true } } blkWQC c.owner 0x305
      (put32 q 6 0 ||| put32 c.owner.toNat 4 8) 0 := by
    unfold noteFull
    rw [hFull]
    refine (if_neg (by decide)).trans ?_
    congr 1
    exact BitVec.or_zero
  have hRings := congrArg (fun m => m.2.2) (memCqs_occurRing { s with cqs := tset s.cqs q { c with full := true } } blkWQC c.owner 0x305
    (put32 q 6 0 ||| put32 c.owner.toNat 4 8) 0)
  have hStopped := writeFirst_owned hRing hHeld hAddr hLive hParity hOwned
  rw [hNote] at hStopped
  unfold retryCq
  rw [hRing]
  refine (drainCq_stopped (c := { c with full := true }) _ hStopped ((congrArg (tget · q) hRings).trans (tget_tset_self _ _ _))).trans ?_
  dsimp only
  rw [hHeld]
  rfl

/-- What a completion written to a free slot leaves (R207). -/
theorem retryCq_free (hEnd : a + 32 ≤ 2 ^ 23) (hFree : (memGet s a).getLsbD 0 = false) :
    memRead (retryCq s q) a 32 = bytesOf (complWords s x c.owner) ∧
    (∀ y, y < a ∨ a + 32 ≤ y → memGet (retryCq s q) y = memGet s y) ∧
    (retryCq s q).cqs = tset s.cqs q { c with tail := c.tail + 1, held := [], full := false } ∧
    ∀ r, x.ref = some r → entryOf? (retryCq s q) r = none := by
  have hFirst := writeFirst_free hRing hHeld hAddr hLive hParity hFree
  have hLow : (bytesOf ((complWords s x c.owner).take 1)).length = 8 := bytesOf_length _
  have hHigh : (bytesOf ((complWords s x c.owner).drop 1)).length = 24 := bytesOf_length _
  have hAll : bytesOf (complWords s x c.owner) = bytesOf ((complWords s x c.owner).take 1) ++ bytesOf ((complWords s x c.owner).drop 1) := by
    unfold bytesOf
    rw [← List.flatMap_append, List.take_append_drop]
  generalize bytesOf ((complWords s x c.owner).take 1) = low at hFirst hLow hAll
  generalize bytesOf ((complWords s x c.owner).drop 1) = high at hFirst hHigh hAll
  generalize hStored : memWrite (memWrite s (a + 8) high) a low = m at hFirst
  have hWritten := memCqs_complWritten m q c x
  generalize hu : complWritten m q c x = u at hFirst hWritten
  have hCqs : m.cqs = s.cqs := by rw [← hStored, memWrite_eq, memWrite_eq]
  have hCqsU : u.cqs = tset s.cqs q { c with tail := c.tail + 1, held := [] } := by
    refine (congrArg (fun m => m.2.2) hWritten).trans ?_
    rw [hCqs, hHeld]
    rfl
  have hRingU : tget u.cqs q = some { c with tail := c.tail + 1, held := [] } := by
    rw [hCqsU]
    exact tget_tset_self _ _ _
  have hRetry : retryCq s q = { u with cqs := tset u.cqs q { c with tail := c.tail + 1, held := [], full := false } } := by
    unfold retryCq
    rw [hRing]
    dsimp only
    rw [hHeld]
    refine (drainCq_step 1 hFirst).trans ((drainCq_stopped 0 (writeFirst_none hRingU rfl) hRingU).trans ?_)
    rfl
  have hMem : (retryCq s q).mem = m.mem := by
    rw [hRetry]
    exact congrArg Prod.fst hWritten
  have hPowers : (retryCq s q).powers = m.powers := by
    rw [hRetry]
    exact congrArg (fun m => m.2.1) hWritten
  refine ⟨?_, fun y hy => ?_, ?_, fun r hr => ?_⟩
  · have hLowRead : memRead m a 8 = low := by
      rw [← hLow, ← hStored]
      exact memRead_memWrite _ _ _ (by omega)
    have hHighRead : memRead m (a + 8) 24 = high := by
      rw [← hStored, memRead_memWrite_after _ _ _ (by omega), ← hHigh]
      exact memRead_memWrite _ _ _ (by omega)
    rw [memRead_congr hMem hPowers, show 32 = 8 + 24 from rfl, memRead_add, hLowRead, hHighRead, hAll]
  · rw [memGet_congr hMem hPowers, ← hStored]
    rcases hy with hy | hy
    · rw [memGet_memWrite_before _ _ hy, memGet_memWrite_before _ _ (by omega)]
    · rw [memGet_memWrite_after _ _ (by omega), memGet_memWrite_after _ _ (by omega)]
  · rw [hRetry]
    exact (congrArg (tset · q _) hCqsU).trans (tset_tset _ _ _ _)
  · rw [hRetry]
    exact (entryOf?_of_entries rfl r).trans (hu ▸ entryOf?_complWritten m q c hr)

end OneHeld

theorem readyCompl_alone {u : State} {x : Compl} {c : Cq} (hRing : tget u.cqs (cfgCq (sqCfg u x.sq.toNat)) = some c) (hHeld : c.held = [])
    (hOpen : complBlocked u = false) : readyCompl u x = retryCq
      { u with cqs := tset u.cqs (cfgCq (sqCfg u x.sq.toNat)) { c with held := [x] } } (cfgCq (sqCfg u x.sq.toNat)) := by
  unfold readyCompl
  dsimp only
  rw [tmod_some _ hRing, hHeld, List.nil_append]
  exact if_neg fun hBlocked => Bool.false_ne_true (hOpen.symm.trans hBlocked)

/-- The part with a completion waiting in its ring. -/
def withHeld (s : State) (e : Entry) (q : Nat) (c : Cq) : State :=
  { (setEntry s { guaranteeEnds s e with phase := .held }) with
    cqs := tset s.cqs q { c with held := [complOf (guaranteeEnds s e)] } }

/-- The completion of an entry that stands alone goes to its ring, which is then drained (R205, R208). -/
theorem exec_completion {s : State} {r : EntryRef} {e : Entry} {c : Cq} (h : entryOf? s r = some e) (hPhase : e.phase = .ended)
    (hStore : e.storeBad = false) (hBatch : e.batch = 0) (hRing : tget s.cqs (cfgCq (sqCfg s r.sq.toNat)) = some c) (hHeld : c.held = [])
    (hOpen : complBlocked s = false) :
    exec (.completion r) s = .next (retryCq (withHeld s e (cfgCq (sqCfg s r.sq.toNat)) c) (cfgCq (sqCfg s r.sq.toNat))) := by
  have hSlot : slotBad e = false := by rw [slotBad, hStore]; rfl
  refine next_congr ((withSlot_good h hSlot _).trans ?_)
  rw [h]
  dsimp only
  rw [if_pos ⟨hPhase, hOpen⟩]
  rw [← entryOf?_ref h] at hRing ⊢
  unfold completeEntry
  dsimp only
  exact (if_pos (show (guaranteeEnds s e).batch = 0 from hBatch)).trans (readyCompl_alone (x := complOf (guaranteeEnds s e)) hRing hHeld hOpen)

/-- Settles O36: a completion that comes and one that a poke finds, into a free slot and into one still owned. -/
theorem completionsAreWritten : Obligations.CompletionsAreWritten := by
  refine fun s q a c hRing hOpen hAddr hEnd hLive hParity => ⟨fun r e hEntry hPhase hStore hBatch hQueue hNone => ?_,
    fun w n v x hn hMay hHeld hFree => ?_⟩
  · subst hQueue
    have hRef := entryOf?_ref hEntry
    rw [exec_completion hEntry hPhase hStore hBatch hRing hNone hOpen]
    have hRingU : tget (withHeld s e (cfgCq (sqCfg s r.sq.toNat)) c).cqs (cfgCq (sqCfg s r.sq.toNat)) =
        some { c with held := [complOf (guaranteeEnds s e)] } := tget_tset_self _ _ _
    refine ⟨fun hFree => ?_, fun hOwned hFull => ?_⟩
    · obtain ⟨hRead, hOther, hCqs, hGone⟩ := retryCq_free hRingU rfl hAddr hLive hParity hEnd hFree
      have hOutside := outsideQueues_retryCq (withHeld s e (cfgCq (sqCfg s r.sq.toNat)) c) (cfgCq (sqCfg s r.sq.toNat))
      refine ⟨_, rfl, hRead, hOther, ?_, fun j hj => ?_, hGone r (congrArg some hRef),
        (congrArg State.regs hOutside :), (congrArg State.regions hOutside :)⟩
      · rw [hCqs, tget_tset_self, ← hNone]
      · rw [hCqs, tget_tset_ne _ _ hj]
        exact tget_tset_ne _ _ hj
    · refine next_congr ((retryCq_owned hRingU rfl hAddr hLive hParity hOwned hFull).trans ?_)
      unfold withHeld
      rw [tset_tset]
  · subst hn
    have hExec : exec (.cqPoke w n v) s = .next (retryCq s n.toNat) := by
      refine next_congr ((guardedWrite_of_mayWrite _ _ hMay).trans (if_neg ?_))
      rw [hOpen]
      decide
    obtain ⟨hRead, hOther, hCqs, -⟩ := retryCq_free hRing hHeld hAddr hLive hParity hEnd hFree
    exact ⟨_, hExec, hRead, hOther, by rw [hCqs, tget_tset_self]⟩

end Sys2Proof.Machine
end

section
/-! Keys and fuses (R307-R310, R375, R376) and the retirement of pages (R442-R445). -/

namespace Sys2Proof.Machine

/-! ### Registers that a command clears -/

theorem regAddr_inj {b o p : Nat} : regAddr b o = regAddr b p ↔ o = p :=
  ⟨fun h => Decidable.byContradiction fun hne => regAddr_ne hne h, fun h => h ▸ rfl⟩

theorem regGet_regSet (s : State) (b o p : Nat) (v : W64) :
    regGet (regSet s b o v) b p = if p = o then v else regGet s b p := by
  by_cases h : p = o
  · rw [if_pos h, h, regGet_regSet_self]
  · rw [if_neg h, regGet_regSet_ne s v (regAddr_ne h)]

/-- Registers cleared one after the other. -/
theorem regGet_cleared (s : State) (b p : Nat) (f : Nat → Nat) (l : List Nat) :
    regGet (l.foldl (fun s i => regSet s b (f i) 0) s) b p = if ∃ i ∈ l, p = f i then 0 else regGet s b p := by
  induction l generalizing s with
  | nil => simp
  | cons i t ih =>
    rw [List.foldl_cons, ih, regGet_regSet]
    by_cases hTail : ∃ j ∈ t, p = f j
    · simp [hTail]
    · simp [hTail]

theorem stored_eq (s : State) (b : Nat) (f : Nat → Nat) (v : Nat → W64) (l : List Nat) :
    ∃ r, l.foldl (fun s i => regSet s b (f i) (v i)) s = { s with regs := r } := by
  induction l generalizing s with
  | nil => exact ⟨s.regs, rfl⟩
  | cons i t ih => exact ih (regSet s b (f i) (v i))

/-- The registers stand through an occurrence. -/
theorem occur_regs (s : State) (b : Nat) (c : BitVec 12) (p0 p1 : W32) : (occur s b c p0 p1).regs = s.regs := by
  rw [occur_eq]; rfl

theorem regGet_occur (s : State) (b : Nat) (c : BitVec 12) (p0 p1 : W32) (a o : Nat) :
    regGet (occur s b c p0 p1) a o = regGet s a o := by
  rw [occur_eq]; rfl

/-! ### The staging area of keys (R308) -/

section Keys

variable (s : State) (d : Dom)

theorem clearStage_eq : ∃ r, clearStage s d = { s with regs := r } := stored_eq s blkXTS _ (fun _ => 0) _

theorem stageWord_clearStage {i : Nat} (hi : i < 8) : stageWord (clearStage s d) d i = 0 := by
  unfold stageWord clearStage
  rw [regGet_cleared, if_pos ⟨i, List.mem_range.mpr hi, rfl⟩]

theorem regGet_clearStage_result : regGet (clearStage s d) blkXTS (0x280 + 8 * d.toNat) = regGet s blkXTS (0x280 + 8 * d.toNat) := by
  unfold clearStage
  rw [regGet_cleared, if_neg]
  rintro ⟨i, _, h⟩
  have := d.isLt
  omega

theorem stageWord_keyResult (slot result i : Nat) : stageWord (keyResult s d slot result) d i = stageWord s d i := by
  have := d.isLt
  unfold stageWord keyResult
  rw [regGet_regSet, if_neg (by omega)]

theorem regGet_keyResult (slot result : Nat) : regGet (keyResult s d slot result) blkXTS (0x280 + 8 * d.toNat) =
    put slot 5 0 ||| put result 3 5 ||| put (fld (regGet s blkXTS (0x280 + 8 * d.toNat)) 63 48 + 1) 16 48 := regGet_regSet_self _ _ _ _

theorem keySlot_clearStage (k : Nat) : keySlot (clearStage s d) k = keySlot s k := by
  obtain ⟨r, h⟩ := clearStage_eq s d
  rw [h]; rfl

theorem slotRetiring_clearStage (k : Nat) : slotRetiring (clearStage s d) k = slotRetiring s k := by
  obtain ⟨r, h⟩ := clearStage_eq s d
  rw [h]; rfl

theorem keySlot_occur (b : Nat) (c : BitVec 12) (p0 p1 : W32) (k : Nat) : keySlot (occur s b c p0 p1) k = keySlot s k := by
  rw [occur_eq]; rfl

theorem regGet_setKeySlot (k : Nat) (v : KeySlot) (b o : Nat) : regGet (setKeySlot s k v) b o = regGet s b o := rfl

/-- A slot written, recorded, answered: what the commands of R308 and R309 leave after the staging area is cleared. -/
def keyWritten (k : Nat) (v : KeySlot) (c : BitVec 12) : State :=
  keyResult (occur (setKeySlot (clearStage s d) k v) blkXTS c (put32 k 5 0 ||| put32 d.toNat 4 8) 0) d k 0

theorem keySlot_keyWritten_self (k : Nat) (v : KeySlot) (c : BitVec 12) : keySlot (keyWritten s d k v c) k = v :=
  (keySlot_occur _ _ _ _ _ k).trans (keySlot_setKeySlot_self _ k v)

theorem keySlot_keyWritten_ne {k j : Nat} (v : KeySlot) (c : BitVec 12) (h : j ≠ k) :
    keySlot (keyWritten s d k v c) j = keySlot s j :=
  (keySlot_occur _ _ _ _ _ j).trans ((keySlot_setKeySlot_ne _ v h).trans (keySlot_clearStage s d j))

theorem keyWritten_mem_entries (k : Nat) (v : KeySlot) (c : BitVec 12) :
    (keyWritten s d k v c).mem = s.mem ∧ (keyWritten s d k v c).entries = s.entries := by
  obtain ⟨r, h⟩ := clearStage_eq s d
  unfold keyWritten keyResult
  rw [h, occur_eq]
  exact ⟨rfl, rfl⟩

theorem stageWord_keyWritten (k : Nat) (v : KeySlot) (c : BitVec 12) {i : Nat} (hi : i < 8) :
    stageWord (keyWritten s d k v c) d i = 0 := by
  unfold keyWritten
  rw [stageWord_keyResult, stageWord, regGet_occur]
  exact stageWord_clearStage s d hi

theorem keyResult_keyWritten (k : Nat) (v : KeySlot) (c : BitVec 12) :
    regGet (keyWritten s d k v c) blkXTS (0x280 + 8 * d.toNat) =
      put k 5 0 ||| put (fld (regGet s blkXTS (0x280 + 8 * d.toNat)) 63 48 + 1) 16 48 := by
  have hStood := (regGet_setKeySlot (clearStage s d) k v blkXTS (0x280 + 8 * d.toNat)).trans (regGet_clearStage_result s d)
  have hNone : put 0 3 5 = 0#64 := rfl
  unfold keyWritten
  rw [regGet_keyResult, regGet_occur, hStood, hNone, BitVec.or_zero]

end Keys

section KeyCommand

variable {s : State} {d : Dom} {v : W64} (og : Origin)

theorem writeKeyCmd_notOwn (hGo : bit v 7 = true)
    (h : ((keySlot s (fld v 4 0)).assigned && decide ((keySlot s (fld v 4 0)).d = d)) = false) :
    writeKeyCmd s d v og = violate (keySeqOnly (clearStage s d) d) d
      { kind := 1, p1 := BitVec.ofNat 32 (regAddr blkXTS (0x200 + 8 * d.toNat)) } og := by
  unfold writeKeyCmd
  simp only [hGo, keySlot_clearStage, h, Bool.not_true, Bool.not_false, Bool.false_eq_true, if_false, if_true]

theorem writeKeyCmd_load (hGo : bit v 7 = true) (hAssigned : (keySlot s (fld v 4 0)).assigned = true)
    (hDom : (keySlot s (fld v 4 0)).d = d) (hLoad : bit v 5 = false) (hFree : slotRetiring s (fld v 4 0) = false)
    (hDiffer : (stagedKey s d).take 32 ≠ (stagedKey s d).drop 32) :
    writeKeyCmd s d v og = keyWritten s d (fld v 4 0) { keySlot s (fld v 4 0) with
      key := some (stagedKey s d), gen := (keySlot s (fld v 4 0)).gen + 1, loads := (keySlot s (fld v 4 0)).loads + 1 } 0x504 := by
  unfold writeKeyCmd
  simp only [hGo, keySlot_clearStage, hAssigned, hDom, slotRetiring_clearStage, hFree, hLoad, hDiffer, Bool.not_true, decide_true, Bool.and_self,
    Bool.false_eq_true, if_false]
  rfl

theorem writeKeyCmd_zero (hGo : bit v 7 = true) (hAssigned : (keySlot s (fld v 4 0)).assigned = true)
    (hDom : (keySlot s (fld v 4 0)).d = d) (hZero : bit v 5 = true) (hFree : slotRetiring s (fld v 4 0) = false) :
    writeKeyCmd s d v og = keyWritten s d (fld v 4 0) (zeroSlot (keySlot s (fld v 4 0))) 0x505 := by
  unfold writeKeyCmd
  simp only [hGo, keySlot_clearStage, hAssigned, hDom, slotRetiring_clearStage, hFree, hZero, Bool.not_true, decide_true, Bool.and_self, Bool.false_eq_true, if_false,
    if_true]
  rfl

end KeyCommand

/-- A slot given another domain, or another state of assignment, is emptied. -/
theorem writeSlot_changed {s : State} {k : Nat} {v : W64}
    (h : BitVec.ofNat 4 (fld v 3 0) ≠ (keySlot s k).d ∨ bit v 4 ≠ (keySlot s k).assigned) :
    (keySlot (writeSlot s k v) k).key = none ∧ (keySlot (writeSlot s k v) k).d = BitVec.ofNat 4 (fld v 3 0) ∧
      (keySlot (writeSlot s k v) k).assigned = bit v 4 ∧ (∀ j, j ≠ k → keySlot (writeSlot s k v) j = keySlot s j) ∧
      (writeSlot s k v).mem = s.mem := by
  have hChanged : ¬ (BitVec.ofNat 4 (fld v 3 0) = (keySlot s k).d ∧ bit v 4 = (keySlot s k).assigned) := by
    rintro ⟨hDom, hBit⟩
    exact h.elim (· hDom) (· hBit)
  unfold writeSlot
  rw [if_neg hChanged]
  split
  · simp only [keySlot_occur, keySlot_setKeySlot_self]
    refine ⟨rfl, trivial, trivial, fun j hj => keySlot_setKeySlot_ne s _ hj, ?_⟩
    rw [occur_eq]; rfl
  · simp only [keySlot_setKeySlot_self]
    exact ⟨rfl, trivial, trivial, fun j hj => keySlot_setKeySlot_ne s _ hj, rfl⟩

/-- Settles O43: a command of R308 or R309 writes its slot, the recorder and the result after clearing the staging area. -/
theorem keysFollowTheirSlots : Obligations.KeysFollowTheirSlots := by
  unfold Obligations.KeysFollowTheirSlots
  intro s w d v
  refine ⟨fun hMay hGo => ⟨fun hNot => ?_, fun hAssigned hDom hLoad hFree hDiffer => ?_, fun hAssigned hDom hZero hFree => ?_⟩,
    fun k hMay => ⟨fun hDom hBit => ?_, fun hChanged => ?_⟩⟩
  · exact next_congr ((guardedWrite_of_mayWrite {} _ hMay).trans (writeKeyCmd_notOwn {} hGo hNot))
  · refine ⟨_, next_congr ((guardedWrite_of_mayWrite {} _ hMay).trans (writeKeyCmd_load {} hGo hAssigned hDom hLoad hFree hDiffer)), ?_⟩
    obtain ⟨hMem, hEntries⟩ := keyWritten_mem_entries s d (fld v 4 0) { keySlot s (fld v 4 0) with
      key := some (stagedKey s d), gen := (keySlot s (fld v 4 0)).gen + 1, loads := (keySlot s (fld v 4 0)).loads + 1 } 0x504
    have hSlot := keySlot_keyWritten_self s d (fld v 4 0) { keySlot s (fld v 4 0) with
      key := some (stagedKey s d), gen := (keySlot s (fld v 4 0)).gen + 1, loads := (keySlot s (fld v 4 0)).loads + 1 } 0x504
    exact ⟨congrArg KeySlot.key hSlot, congrArg KeySlot.loads hSlot, fun j hj => keySlot_keyWritten_ne s d _ _ hj, hMem, hEntries, keyResult_keyWritten s d _ _ _,
      fun i hi => stageWord_keyWritten s d _ _ _ hi⟩
  · refine ⟨_, next_congr ((guardedWrite_of_mayWrite {} _ hMay).trans (writeKeyCmd_zero {} hGo hAssigned hDom hZero hFree)), ?_⟩
    obtain ⟨hMem, hEntries⟩ := keyWritten_mem_entries s d (fld v 4 0) (zeroSlot (keySlot s (fld v 4 0))) 0x505
    have hSlot := keySlot_keyWritten_self s d (fld v 4 0) (zeroSlot (keySlot s (fld v 4 0))) 0x505
    exact ⟨congrArg KeySlot.key hSlot, (congrArg KeySlot.d hSlot).trans hDom, fun j hj => keySlot_keyWritten_ne s d _ _ hj, hMem, hEntries⟩
  · exact next_congr ((guardedWrite_of_mayWrite {} _ hMay).trans (if_pos ⟨hDom, hBit⟩))
  · exact ⟨_, next_congr (guardedWrite_of_mayWrite {} _ hMay), writeSlot_changed hChanged⟩

/-! ### Fuses (R375, R376) -/

section Fuses

variable {s : State} {v : W64}

/-- The staging area cleared and the command answered in FUS.PRES. -/
def fuseAnswered (s : State) (field result : Nat) : State := fuseResult (clearFuseStage s) field result

theorem fuseAnswered_eq (s : State) (field result : Nat) :
    fuseAnswered s field result = { s with regs := (fuseAnswered s field result).regs } := by
  obtain ⟨r, h⟩ : ∃ r, clearFuseStage s = { s with regs := r } := stored_eq s blkFUS _ (fun _ => 0) _
  unfold fuseAnswered
  rw [h]; rfl

theorem fuseAnswered_fus (s : State) (field result : Nat) : (fuseAnswered s field result).fus = s.fus :=
  (congrArg State.fus (fuseAnswered_eq s field result) :)

theorem withFus_eq {s t : State} (f : Fus) (h : t = { s with regs := t.regs }) :
    { t with fus := f } = { s with fus := f, regs := t.regs } :=
  congrArg (fun u : State => { u with fus := f }) h

theorem regGet_withFus (s : State) (f : Fus) (b o : Nat) : regGet { s with fus := f } b o = regGet s b o := rfl

theorem regGet_fuseAnswered_stage (s : State) (field result : Nat) {k : Nat} (hk : k < 4) :
    regGet (fuseAnswered s field result) blkFUS (0x100 + 8 * k) = 0 := by
  unfold fuseAnswered fuseResult clearFuseStage oPRES
  rw [regGet_regSet, if_neg (by omega), regGet_cleared, if_pos ⟨k, List.mem_range.mpr hk, rfl⟩]

theorem regGet_fuseAnswered_result (s : State) (field result : Nat) : regGet (fuseAnswered s field result) blkFUS 0x128 =
    put result 3 0 ||| put field 4 4 ||| put (fld (regGet s blkFUS 0x128) 63 48 + 1) 16 48 := by
  have hStood : regGet (clearFuseStage s) blkFUS 0x128 = regGet s blkFUS 0x128 := by
    unfold clearFuseStage
    rw [regGet_cleared, if_neg]
    rintro ⟨i, hi, h⟩
    have := List.mem_range.mp hi
    omega
  unfold fuseAnswered fuseResult oPRES
  rw [regGet_regSet_self, hStood]

theorem writeFuseCmd_accepted (hIdle : s.fus.busy = none) (hGo : bit v 15 = true)
    (h : fuseCondition s (fld v 3 0) (fld v 14 8) (fuseStage s) = 0) :
    writeFuseCmd s v = { fuseAnswered s (fld v 3 0) 0 with
      fus := { s.fus with busy := some (BitVec.ofNat 4 (fld v 3 0), BitVec.ofNat 7 (fld v 14 8), fuseStage s) } } := by
  unfold writeFuseCmd
  simp only [hIdle, hGo, h, Option.isSome_none, Bool.not_true, Bool.or_self, Bool.false_eq_true, if_false, if_true]
  rfl

theorem writeFuseCmd_refused (hIdle : s.fus.busy = none) (hGo : bit v 15 = true)
    (h : fuseCondition s (fld v 3 0) (fld v 14 8) (fuseStage s) ≠ 0) :
    writeFuseCmd s v = occur (fuseAnswered s (fld v 3 0) (fuseCondition s (fld v 3 0) (fld v 14 8) (fuseStage s))) blkFUS 0xF07
      (put32 (fld v 3 0) 4 0 ||| put32 (fuseCondition s (fld v 3 0) (fld v 14 8) (fuseStage s)) 3 4) 0 := by
  unfold writeFuseCmd
  simp only [hIdle, hGo, h, Option.isSome_none, Bool.not_true, Bool.or_self, Bool.false_eq_true, if_false]
  rfl

/-- The commands that write FUS.PCMD are one write. -/
theorem exec_fuseCommand {w : Dom} {i : Instr}
    (h : i = .fuseKeyHash w v ∨ i = .fuseImageKey w v ∨ i = .fuseFleetKey w v ∨ i = .fuseRevoke w v ∨ i = .fuseCounterAdvance w v ∨
      i = .fuseEncreq w v ∨ i = .fuseInvalid w v) (hMay : mayWrite s w blkFUS 0x120 = true) :
    exec i s = .next (writeFuseCmd s v) := by
  have hWrite : exec i s = .next (guardedWrite s w blkFUS 0x120 {} fun s => writeFuseCmd s v) := by
    rcases h with rfl | rfl | rfl | rfl | rfl | rfl | rfl <;> rfl
  exact hWrite.trans (next_congr (guardedWrite_of_mayWrite {} _ hMay))

end Fuses

/-! What FUS.PRES answers, by the command's field. -/

section FuseCondition

variable (s : State) (v : Nat) (d : List Byte)

theorem fuseCondition_invalid {n : Nat} (h : n = 6 ∨ n = 7 ∨ 13 < n) : fuseCondition s n v d = 3 := by
  unfold fuseCondition
  rw [if_neg (by omega), if_neg (by omega), if_neg (by omega), if_neg (by omega), if_neg (by omega), if_neg (by omega)]

theorem fuseCondition_hash {k : Nat} (hk : k < 4) : fuseCondition s k v d = keyFieldResult (tgetD s.fus.hash k .blank) d := by
  unfold fuseCondition
  rw [if_pos (by omega)]

theorem fuseCondition_revoked {k : Nat} (hk : k < 4) (h : s.fus.revoked.getLsbD k = true) : fuseCondition s (8 + k) v d = 1 := by
  unfold fuseCondition
  rw [if_neg (by omega), if_neg (by omega), if_neg (by omega), if_pos (by omega), Nat.add_sub_cancel_left, if_pos h]

theorem fuseCondition_encreq (h : s.fus.encreq = true) : fuseCondition s 13 v d = 1 := by
  unfold fuseCondition
  simp only [h, if_true]
  rfl

theorem fuseCondition_counter (h : s.boot.pair = none) : fuseCondition s 12 v d = 2 := by
  unfold fuseCondition
  simp only [h]
  rfl

end FuseCondition

/-- Settles O44: FUS.PCMD by its condition, and the end of programming. -/
theorem fuseCommandsAreJudged : Obligations.FuseCommandsAreJudged := by
  unfold Obligations.FuseCommandsAreJudged
  refine ⟨fun s w v i hi hMay hIdle hGo => ⟨fun hAccepted => ?_, fun hRefused => ?_⟩, fun s n v d h => fuseCondition_invalid s v d h,
    fun s v d k hk => ⟨fun hBlank hData => ?_, fun hPartly => ?_, fun x hDone => ?_, fun h => fuseCondition_revoked s v d hk h⟩,
    fun s v d => ⟨fuseCondition_encreq s v d, fuseCondition_counter s v d⟩, fun s f v d ok hBusy => ?_⟩
  · refine ⟨_, (exec_fuseCommand hi hMay).trans (next_congr (writeFuseCmd_accepted hIdle hGo hAccepted)), rfl,
      fun k hk => (regGet_withFus _ _ _ _).trans (regGet_fuseAnswered_stage s _ _ hk),
      ((regGet_withFus _ _ _ _).trans (regGet_fuseAnswered_result s _ _)).trans ?_, withFus_eq _ (fuseAnswered_eq s _ _)⟩
    rw [show put 0 3 0 = 0#64 from rfl, BitVec.zero_or]
  · exact ⟨_, (exec_fuseCommand hi hMay).trans (next_congr (writeFuseCmd_refused hIdle hGo hRefused)),
      fuseAnswered_fus s _ _, fun k hk => regGet_fuseAnswered_stage s _ _ hk, regGet_fuseAnswered_result s _ _, fuseAnswered_eq s _ _⟩
  · rw [fuseCondition_hash s v d hk, hBlank, keyFieldResult, hData]
    rfl
  · rw [fuseCondition_hash s v d hk, hPartly, keyFieldResult]
  · rw [fuseCondition_hash s v d hk, hDone, keyFieldResult]
  · unfold exec execFuseProgrammed
    rw [hBusy]

/-! ### Retired pages and scrub summaries (R442-R445) -/

/-- BUF.RETRES is no window register. -/
theorem regGet_window_retireResult (s : State) (v : W64) (d : Nat) :
    regGet (regSet s blkBUF 0x88 v) blkDOM (0x118 + 0x40 * d) = regGet s blkDOM (0x118 + 0x40 * d) := by
  refine regGet_regSet_ne s v ?_
  unfold regAddr blkDOM blkBUF
  omega

theorem pageDomain_retireResult (s : State) (v : W64) (page : Nat) :
    pageDomain (regSet s blkBUF 0x88 v) page = (windowDom s (page * 4096)).getD 15 := by
  have hBase (d : Nat) : winBase (regSet s blkBUF 0x88 v) d = winBase s d := by
    unfold winBase
    rw [regGet_window_retireResult]
  have hLen (d : Nat) : winLen (regSet s blkBUF 0x88 v) d = winLen s d := by
    unfold winLen
    rw [regGet_window_retireResult]
  unfold pageDomain windowDom
  simp only [hBase, hLen]

theorem retireResult_eq_zero_iff (s : State) (page : Nat) : retireResult s page = 0 ↔
    page ∉ s.retired ∧ chargedIn s (page * 4096) 4096 = none ∧ ∀ e ∈ s.entries, namesPage s page e = false := by
  unfold retireResult
  simp only [List.contains_iff_mem, List.any_eq_true, Option.isSome_iff_ne_none]
  by_cases hRetired : page ∈ s.retired
  · simp [hRetired]
  · by_cases hCharged : chargedIn s (page * 4096) 4096 = none
    · by_cases hNamed : ∃ e ∈ s.entries, namesPage s page e = true
      · obtain ⟨e, he, hNames⟩ := hNamed
        have hAny : ∃ e ∈ s.entries, namesPage s page e = true := ⟨e, he, hNames⟩
        simp only [hRetired, hCharged, hAny, if_true, if_false, ne_eq, not_true_eq_false, true_and, not_false_eq_true]
        exact ⟨fun h => absurd h (by decide), fun h => absurd (h e he) (by simp [hNames])⟩
      · have hNone : ∀ e ∈ s.entries, namesPage s page e = false := fun e he =>
          Bool.eq_false_iff.mpr fun hNames => hNamed ⟨e, he, hNames⟩
        simp only [hRetired, hCharged, hNamed, if_false, ne_eq, not_true_eq_false, true_and, not_false_eq_true, true_iff]
        exact hNone
    · simp [hRetired, hCharged]

/-- Settles O49: RETRES answers what R443 forbids, and only an allowed page is retired. -/
theorem pagesRetireAndSummariesClear : Obligations.PagesRetireAndSummariesClear := by
  unfold Obligations.PagesRetireAndSummariesClear
  intro s w v
  refine ⟨fun hMay hGo => ⟨fun hRetired hCharged hNamed => ?_, fun hForbidden => ?_⟩, fun d hMay => ?_⟩
  · have hZero := (retireResult_eq_zero_iff s (fld v 10 0)).mpr ⟨hRetired, hCharged, hNamed⟩
    refine next_congr ((guardedWrite_of_mayWrite {} _ hMay).trans ?_)
    unfold writeRetire
    simp only [hGo, hZero, pageDomain_retireResult, Bool.not_true, Bool.false_eq_true, if_false, if_true]
    rfl
  · have hNonzero : retireResult s (fld v 10 0) ≠ 0 := by
      rw [Ne, retireResult_eq_zero_iff]
      rintro ⟨hRetired, hCharged, hNamed⟩
      rcases hForbidden with h | h | ⟨e, he, h⟩
      · exact hRetired h
      · rw [hCharged] at h
        exact Bool.noConfusion h
      · rw [hNamed e he] at h
        exact Bool.noConfusion h
    refine ⟨next_congr ((guardedWrite_of_mayWrite {} _ hMay).trans ?_), hNonzero⟩
    unfold writeRetire
    simp only [hGo, hNonzero, Bool.not_true, Bool.false_eq_true, if_false]
  · refine ⟨_, next_congr (guardedWrite_of_mayWrite {} _ hMay), ?_, fun k hk => tget_terase_ne s.scrubs hk, rfl⟩
    exact congrArg (·.getD {}) (tget_terase_self s.scrubs d.toNat)

end Sys2Proof.Machine
end

section
/-! The recorder's freezes and exports (R455-R457, R459). -/

namespace Sys2Proof.Machine

/-! ### Freezing (R456) -/

theorem writeFreeze_thaw (s : State) {v : W64} (h : bit v 1 = true) :
    writeFreeze s v = { s with recorder := { s.recorder with frozen := none } } := if_pos h

theorem writeFreeze_freeze (s : State) {v : W64} (hThaw : bit v 1 = false) (hFreeze : bit v 0 = true) :
    writeFreeze s v = freezeNow s := by
  unfold writeFreeze
  simp only [hThaw, hFreeze, Bool.false_eq_true, if_false, if_true]

/-- A raise passes over the records that a freeze holds. -/
theorem frozen_lt_of_raisable {r : Recorder} {f : Freeze} {c : BitVec 12} {p0 p1 : W32} {i : Nat} {e : Rec}
    (hFrozen : r.frozen = some f) (h : raisable r c p0 p1 = some (i, e)) : f.fseq.toNat < e.seq.toNat := by
  have hOver : ∀ q, frozenOver r q = decide (q.toNat ≤ f.fseq.toNat) := fun q => by rw [frozenOver, hFrozen]
  unfold raisable at h
  cases hLatest : latestOf r c with
  | none => simp [hLatest] at h
  | some x =>
    simp only [hLatest] at h
    split at h
    next hMatch =>
      cases h
      simp only [hOver, Bool.and_eq_true, Bool.not_eq_true', decide_eq_false_iff_not] at hMatch
      obtain ⟨⟨_, hAfter⟩, _⟩ := hMatch
      exact Nat.lt_of_not_le hAfter
    · exact absurd h (by simp)

/-- A frame boundary brings the end of a freeze nearer (R456). -/
theorem frozen_frameBoundary (s : State) (cki : Option Int) : (frameBoundary s cki).recorder.frozen =
    s.recorder.frozen.map fun f => { f with left := f.left.map (· - 1) } := by
  have hAll := withinFrame_frameBoundary s cki
  simp only [withinFrame, Prod.mk.injEq] at hAll
  obtain ⟨_, _, hStanding, _⟩ := hAll
  exact (congrArg Recorder.frozen hStanding :)

/-! ### Exporting (R457) -/

theorem standing_noteRecord (s : State) (q : W32) : standing (noteRecord s q) = standing s := by
  unfold noteRecord
  split
  · rfl
  · split
    · rfl
    · exact standing_occur s _ _ _ _

theorem noteRecord_onlyNoted (s : State) (q : W32) : OnlyNoted s (noteRecord s q) := by
  unfold noteRecord
  split
  · exact .refl s
  · split
    · exact .refl s
    · exact occurAt_onlyNoted s _ _ _ _ _ _

theorem foldl_onlyNoted {α : Type} {g : State → α → State} (hg : ∀ u a, OnlyNoted u (g u a)) (l : List α) (s : State) :
    OnlyNoted s (l.foldl g s) := by
  induction l generalizing s with
  | nil => exact .refl s
  | cons a t ih => exact (hg s a).trans (ih (g s a))

/-- The bytes of a burst in memory, its records read. -/
def exported (s : State) (j : Export) : State :=
  (List.range (min 16 j.left)).foldl (fun t i => noteRecord t (j.next + BitVec.ofNat 32 i))
    (memWrite s j.addr (exportBytes s j.next (min 16 j.left)))

section Exported

variable (s : State) (j : Export)

theorem exported_standing : standing (exported s j) = standing s := by
  refine (foldl_kept standing _ (fun u _ => standing_noteRecord u _) _ _).trans ?_
  rw [memWrite_eq]; rfl

theorem exported_onlyNoted : OnlyNoted (memWrite s j.addr (exportBytes s j.next (min 16 j.left))) (exported s j) :=
  foldl_onlyNoted (fun u _ => noteRecord_onlyNoted u _) _ _

theorem exported_mem : (exported s j).mem = (memWrite s j.addr (exportBytes s j.next (min 16 j.left))).mem :=
  (congrArg State.mem (exported_onlyNoted s j).eq_noteFields :)

theorem exported_eq : exported s j = { s with
    mem := (exported s j).mem, badMem := (exported s j).badMem, recorder := (exported s j).recorder, hdrs := (exported s j).hdrs
    conns := (exported s j).conns, evDrop := (exported s j).evDrop } := by
  have hNoted := (exported_onlyNoted s j).eq_noteFields
  have hWritten := memWrite_eq s j.addr (exportBytes s j.next (min 16 j.left))
  generalize exported s j = t at hNoted ⊢
  generalize memWrite s j.addr (exportBytes s j.next (min 16 j.left)) = u at hNoted hWritten
  rw [hWritten] at hNoted
  rw [hNoted]
  rfl

variable {s j}

theorem exportBurst_eq (h : s.recorder.xjob = some j) : exportBurst s = { exported s j with
    recorder := { (exported s j).recorder with
      xcount := (exported s j).recorder.xcount + BitVec.ofNat 9 (min 16 j.left)
      xjob := if j.left ≤ 16 then none else some
        { next := j.next + BitVec.ofNat 32 (min 16 j.left), left := j.left - min 16 j.left, addr := j.addr + 16 * min 16 j.left } } } := by
  unfold exportBurst
  rw [h]
  rfl

end Exported

theorem length_zeroBad (bad : W16) (l : List Byte) : (zeroBad bad l).length = l.length := List.length_mapIdx

theorem length_recBytes (s : State) (q : W32) : (recBytes s q).length = 16 := by
  unfold recBytes
  split
  · exact List.length_replicate
  · rw [length_zeroBad, List.length_append, leBytes_length, leBytes_length]

section Xcmd

variable {s : State} {v : W64} (hGo : bit v 63 = true)

include hGo

theorem writeXcmd_running (h : s.recorder.xjob.isSome = true) : writeXcmd s v = s := by
  unfold writeXcmd
  rw [hGo, h]
  rfl

/-- With no transfer in progress, XCMD starts one when its area is granted. -/
theorem writeXcmd_idle (h : s.recorder.xjob = none) : writeXcmd s v =
    match checkRegion s 0 (baseKey (regGet s blkREC 0xB0)) (baseOffset (regGet s blkREC 0xB0)) (16 * (fld v 39 32 + 1)) true with
    | .error x => violate { s with recorder := { s.recorder with xseq := s.recorder.xseq + 1, xcount := 0 } } 0 x {}
    | .ok a => { s with recorder := { s.recorder with
        xseq := s.recorder.xseq + 1, xcount := 0
        xjob := some { next := BitVec.ofNat 32 (fld v 31 0), left := fld v 39 32 + 1, addr := a } } } := by
  unfold writeXcmd
  rw [hGo, h]
  rfl

end Xcmd

/-- Settles O50: a freeze stands in what recording leaves of the recorder; a burst of XCMD writes memory and its own account. -/
theorem theRecorderIsFrozenAndExported : Obligations.TheRecorderIsFrozenAndExported := by
  refine ⟨⟨fun s w v hMay => ⟨fun hThaw hFreeze => ?_, fun hThaw => ?_⟩, fun r f c p0 p1 i e => frozen_lt_of_raisable,
      fun r e => ⟨rfl, rfl, ?_⟩, fun s f hFrozen => ⟨fun hLeft => ?_, fun hLeft => ?_, fun n cki hRun hLeft => ?_⟩⟩,
    fun s w v hMay hGo => ⟨fun hJob => ?_, fun a hJob hArea => ?_, fun x hJob hArea => ?_⟩, fun s j hJob => ?_,
    fun s q => ⟨length_recBytes s q, fun h => ?_⟩⟩
  · exact next_congr ((guardedWrite_of_mayWrite {} _ hMay).trans (writeFreeze_freeze s hThaw hFreeze))
  · exact next_congr ((guardedWrite_of_mayWrite {} _ hMay).trans (writeFreeze_thaw s hThaw))
  · exact congrArg (Option.map (·.seq)) (tget_tset_self r.recs (recIndex (r.seq + 1)) { e with seq := r.seq + 1 })
  · unfold exec execFreezeExpiry
    rw [hFrozen]
    exact next_congr (if_pos hLeft)
  · unfold exec execFreezeExpiry
    rw [hFrozen]
    exact next_congr (if_neg hLeft)
  · refine ⟨_, exec_frameBoundary cki hRun, ?_⟩
    rw [frozen_frameBoundary, hFrozen, Option.map_some, hLeft]
    rfl
  · exact next_congr ((guardedWrite_of_mayWrite {} _ hMay).trans (writeXcmd_running hGo hJob))
  · refine next_congr ((guardedWrite_of_mayWrite {} _ hMay).trans ((writeXcmd_idle hGo hJob).trans ?_))
    rw [hArea]
  · refine next_congr ((guardedWrite_of_mayWrite {} _ hMay).trans ((writeXcmd_idle hGo hJob).trans ?_))
    rw [hArea]
  · have hBurst : grantedBurst s true 16 = _ := exportBurst_eq hJob
    have hCount : (exported s j).recorder.xcount = s.recorder.xcount := (congrArg Recorder.xcount (exported_standing s j) :)
    rw [hBurst]
    refine ⟨exported_mem s j, congrArg (· + _) hCount, fun hLast => if_pos hLast, fun hMore => ?_, ?_⟩
    · have hFull : min 16 j.left = 16 := by omega
      dsimp only
      rw [if_neg (by omega), hFull]
      rfl
    · have hOthers := exported_eq s j
      generalize exported s j = t at hOthers ⊢
      rw [hOthers]
  · unfold recBytes
    rw [h]

end Sys2Proof.Machine
end

section
/-! The resets of the whole part and of the flash (chapter 15). -/

namespace Sys2Proof.Machine

/-! ### The release of a reset (R517) -/

/-- Registers stored one after the other at offsets that ascend. -/
theorem regGet_stored (s : State) (b o : Nat) (v : Nat → W64) (n i : Nat) :
    regGet ((List.range n).foldl (fun s i => regSet s b (o + 8 * i) (v i)) s) b (o + 8 * i) =
      if i < n then v i else regGet s b (o + 8 * i) := by
  induction n with
  | zero => rfl
  | succ n ih =>
    rw [List.range_succ, List.foldl_append, List.foldl_cons, List.foldl_nil, regGet_regSet, ih]
    by_cases hLast : i = n
    · subst hLast
      rw [if_pos rfl, if_pos (Nat.lt_succ_self i)]
    · rw [if_neg (by omega)]
      exact ite_congr (propext (by omega)) (fun _ => rfl) fun _ => rfl

/-- What a release latches, without the registers. -/
def releasedBut (s : State) (bs : BitVec 2) (pr : Byte) : State :=
  { s with
    phase := .acquiring, glb := { s.glb with bootsel := bs }, mon := { s.mon with proc := pr }
    boot := { s.boot with from_ := bootSource bs false }, pins := { s.pins with resetN := true, pgood := true } }

/-- The decoder's tables at a release (R325). -/
def llrLoaded (s : State) : State := (List.range 32).foldl (fun s i => regSet s blkECC (0x100 + 8 * i) (Config.bootLlr i)) s

theorem llrLoaded_eq (s : State) : ∃ r, llrLoaded s = { s with regs := r } := stored_eq s blkECC _ Config.bootLlr _

theorem releaseCore_stores (s : State) (bs : BitVec 2) (pr : Byte) : releaseCore s bs pr =
    regSet (llrLoaded (releasedBut s bs pr)) blkDOM 0x110 (resetKey0 (llrLoaded (releasedBut s bs pr))) := rfl

theorem releaseCore_eq (s : State) (bs : BitVec 2) (pr : Byte) : ∃ r, releaseCore s bs pr = { releasedBut s bs pr with regs := r } := by
  obtain ⟨r, hStored⟩ := llrLoaded_eq (releasedBut s bs pr)
  rw [releaseCore_stores, hStored]
  exact ⟨_, rfl⟩

theorem regGet_releaseCore_key0 (s : State) (bs : BitVec 2) (pr : Byte) :
    regGet (releaseCore s bs pr) blkDOM 0x110 = resetKey0 s := by
  obtain ⟨r, hStored⟩ := llrLoaded_eq (releasedBut s bs pr)
  rw [releaseCore_stores, regGet_regSet_self, hStored]
  rfl

theorem regGet_releaseCore_llr (s : State) (bs : BitVec 2) (pr : Byte) {i : Nat} (hi : i < 32) :
    regGet (releaseCore s bs pr) blkECC (0x100 + 8 * i) = Config.bootLlr i := by
  refine (regGet_regSet_ne _ _ ?_).trans ((regGet_stored (releasedBut s bs pr) blkECC 0x100 Config.bootLlr 32 i).trans (if_pos hi))
  unfold regAddr blkDOM blkECC
  omega

/-! ### System resets (R533-R537) -/

/-- What a system reset keeps of what it has stopped. -/
def lasting (s : State) : List Host.Cell × List Nat × Tbl Byte × TagSt × W32 × Fus × Glb × Mon × Phase :=
  (s.mem, s.retired, s.beads, s.tag, s.recorder.flushSeq, s.fus, s.glb, s.mon, s.phase)

section Lasting

variable (s : State)

theorem lasting_occur (b : Nat) (c : BitVec 12) (p0 p1 : W32) : lasting (occur s b c p0 p1) = lasting s := by
  have hFlush := occur_flushSeq s b c p0 p1
  rw [occur_eq] at hFlush ⊢
  simp only [lasting, Prod.mk.injEq]
  exact ⟨rfl, rfl, rfl, rfl, hFlush, rfl, rfl, rfl, rfl⟩

theorem lasting_refreshRest : lasting (refreshRest s) = lasting s := by
  unfold refreshRest
  dsimp only
  split
  · rfl
  · exact lasting_occur _ _ _ _ _

theorem lasting_closeConn (k cause : Nat) : lasting (closeConn s k cause) = lasting s := by
  unfold closeConn
  split
  · rfl
  · exact (lasting_refreshRest _).trans (lasting_occur _ _ _ _ _)

theorem lasting_stopChannel (c : Nat) : lasting (stopChannel s c) = lasting s := by
  unfold stopChannel
  dsimp only
  repeat' split
  all_goals rfl

theorem disturbFuse_eq : ∃ f n, disturbFuse s = { s with fus := f, freeCtr := n } ∧ (s.fus.busy = none → f = s.fus) := by
  unfold disturbFuse
  split
  · exact ⟨s.fus, s.freeCtr, rfl, fun _ => rfl⟩
  next hBusy => exact ⟨_, _, rfl, fun hNone => absurd (hBusy.symm.trans hNone) (by simp)⟩

/-- A system reset keeps what lasts of a part stopped, and counts itself. -/
theorem systemResetCore_eq (kind dom : Nat) : ∃ u f n, lasting u = lasting s ∧ (s.fus.busy = none → f = s.fus) ∧
    systemResetCore s kind dom = keptOver { u with
      fus := f, freeCtr := n, glb := { u.glb with last := BitVec.ofNat 4 kind, syscnt := u.glb.syscnt + 1 } } := by
  unfold systemResetCore
  extract_lets noted closed stopped
  have hClosed : lasting closed = lasting noted := foldl_kept lasting _ (fun u k => lasting_closeConn u k 3) _ _
  have hStopped : lasting stopped = lasting closed := foldl_kept lasting stopChannel lasting_stopChannel _ _
  have hLasting := hStopped.trans (hClosed.trans (lasting_occur s _ _ _ _))
  clear hClosed hStopped
  clear_value stopped
  obtain ⟨f, n, hDisturbed, hFuses⟩ := disturbFuse_eq
    { stopped with glb := { stopped.glb with last := BitVec.ofNat 4 kind, syscnt := stopped.glb.syscnt + 1 } }
  have hFus : stopped.fus = s.fus := by
    simp only [lasting, Prod.mk.injEq] at hLasting
    obtain ⟨_, _, _, _, _, hFus, _⟩ := hLasting
    exact hFus
  refine ⟨stopped, f, n, hLasting, fun hIdle => ?_, congrArg keptOver hDisturbed⟩
  exact (hFuses ((congrArg Fus.busy hFus).trans hIdle)).trans hFus

end Lasting

theorem pinReset_short (s : State) (kind : Nat) {ns : Nat} (low : Pins → Pins) (h : ns < 200) : pinReset s kind ns low = s := if_pos h

theorem pinReset_long {s : State} (kind : Nat) {ns : Nat} (low : Pins → Pins) (h : 200 ≤ ns)
    (hOn : s.phase = .acquiring ∨ s.phase = .running) : pinReset s kind ns low =
      { systemResetCore s kind 15 with phase := .resetHeld, pins := low (systemResetCore s kind 15).pins } := by
  unfold pinReset
  rw [if_neg (Nat.not_lt.mpr h), if_pos hOn]

/-- What a reset by a pin leaves, whichever pin it is (R533, R537). -/
theorem pinReset_leaves {s : State} {kind ns : Nat} (low : Pins → Pins) (h : 200 ≤ ns)
    (hOn : s.phase = .acquiring ∨ s.phase = .running) : ∃ p, ∃ t, pinReset s kind ns low = t ∧ t.pins = low p ∧
      t.phase = .resetHeld ∧ t.glb.last = BitVec.ofNat 4 kind ∧ t.glb.syscnt = s.glb.syscnt + 1 ∧ t.regs = [] ∧ t.hdrs = [] ∧
      t.conns = [] ∧ t.regions = [] ∧ t.sqs = [] ∧ t.cqs = [] ∧ t.entries = [] ∧ t.keys = State.reset.keys ∧ t.movers = [] ∧
      t.mem = s.mem ∧ t.retired = s.retired ∧ t.beads = s.beads ∧ t.tag = s.tag ∧ s.recorder.flushSeq = t.recorder.flushSeq ∧
      t.recorder.frozen = none ∧ (s.fus.busy = none → t.fus = s.fus) := by
  obtain ⟨u, f, n, hLasting, hFuses, hCore⟩ := systemResetCore_eq s kind 15
  simp only [lasting, Prod.mk.injEq] at hLasting
  obtain ⟨hMem, hRetired, hBeads, hTag, hFlush, _, hGlb, _⟩ := hLasting
  rw [pinReset_long kind low h hOn, hCore]
  exact ⟨_, _, rfl, rfl, rfl, rfl, congrArg (fun g : Glb => g.syscnt + 1) hGlb, rfl, rfl, rfl, rfl, rfl, rfl, rfl, rfl, rfl,
    hMem, hRetired, hBeads, hTag, hFlush.symm, rfl, hFuses⟩

theorem writeRst_unconfirmed (s : State) (w : Dom) {v : W64} (h : fld v 15 8 ≠ 0x5A) : writeRst s w v = s := if_pos h

theorem writeRst_system {s : State} (w : Dom) {v : W64} (h : fld v 15 8 = 0x5A) (hKind : fld v 1 0 = 1) :
    writeRst s w v = { s with glb := { s.glb with sysReq := some (s.glb.sysReq.getD w) } } := by
  unfold writeRst
  rw [if_neg (Classical.not_not.mpr h), if_pos hKind]

theorem execSystemReset_due {s : State} (bs : BitVec 2) (pr : Byte) {d : Dom} (h : s.glb.sysReq = some d) (hDue : atBoundary s = true) :
    execSystemReset bs pr s = .next (releaseCore (systemResetCore s 4 d.toNat) bs pr) := by
  unfold execSystemReset
  rw [h]
  exact next_congr (if_pos hDue)

/-- Settles O58: a system reset keeps what lasts of a part that has closed its connections and stopped its channels. -/
theorem systemResetsKeepWhatLasts : Obligations.SystemResetsKeepWhatLasts := by
  refine ⟨fun s i ns kind hPin => ⟨fun hShort => ?_, fun hLong hOn => ?_⟩, fun s w v hMay hKind => ⟨fun hConfirmed hFirst => ?_,
    fun hNot => ?_⟩, fun s bs pr d hReq => ⟨fun hEarly => ?_, fun hDue => ?_⟩, fun s bs pr hHeld => ?_⟩
  · rcases hPin with ⟨rfl, _⟩ | ⟨rfl, _⟩
    · exact next_congr (pinReset_short s 2 _ hShort)
    · exact next_congr (pinReset_short s 3 _ hShort)
  · rcases hPin with ⟨rfl, rfl⟩ | ⟨rfl, rfl⟩
    · obtain ⟨p, t, hReset, hPins, hPhase, hLast, hCount, hRegs, hHdrs, hConns, hRegions, hSqs, hCqs, hEntries, hKeys, hMovers, hMem,
        hRetired, hBeads, hTag, hFlush, hFrozen, hFus⟩ := pinReset_leaves (kind := 2) (fun p => { p with resetN := false }) hLong hOn
      exact ⟨t, next_congr hReset, hPhase, hLast, hCount, hRegs, hHdrs, hConns, hRegions, hSqs, hCqs, hEntries, hKeys, hMovers, hMem,
        hRetired, hBeads, hTag, hFlush, hFrozen, hFus, fun _ => congrArg Pins.resetN hPins, fun h => absurd h (by decide)⟩
    · obtain ⟨p, t, hReset, hPins, hPhase, hLast, hCount, hRegs, hHdrs, hConns, hRegions, hSqs, hCqs, hEntries, hKeys, hMovers, hMem,
        hRetired, hBeads, hTag, hFlush, hFrozen, hFus⟩ := pinReset_leaves (kind := 3) (fun p => { p with pgood := false }) hLong hOn
      exact ⟨t, next_congr hReset, hPhase, hLast, hCount, hRegs, hHdrs, hConns, hRegions, hSqs, hCqs, hEntries, hKeys, hMovers, hMem,
        hRetired, hBeads, hTag, hFlush, hFrozen, hFus, fun h => absurd h (by decide), fun _ => congrArg Pins.pgood hPins⟩
  · refine next_congr ((guardedWrite_of_mayWrite {} _ hMay).trans ((writeRst_system w hConfirmed hKind).trans ?_))
    rw [hFirst]
    rfl
  · exact next_congr ((guardedWrite_of_mayWrite {} _ hMay).trans (writeRst_unconfirmed s w hNot))
  · unfold exec execSystemReset
    rw [hReq]
    exact next_congr (if_neg (by simp [hEarly]))
  · obtain ⟨u, f, n, hLasting, hFuses, hCore⟩ := systemResetCore_eq s 4 d.toNat
    simp only [lasting, Prod.mk.injEq] at hLasting
    obtain ⟨hMem, hRetired, _, hTag, _, _, hGlb, _⟩ := hLasting
    obtain ⟨r, hReleased⟩ := releaseCore_eq (keptOver { u with
      fus := f, freeCtr := n, glb := { u.glb with last := BitVec.ofNat 4 4, syscnt := u.glb.syscnt + 1 } }) bs pr
    refine ⟨_, (execSystemReset_due bs pr hReq hDue).trans (next_congr ((congrArg (releaseCore · bs pr) hCore).trans hReleased)), ?_⟩
    exact ⟨rfl, rfl, rfl, congrArg (fun g : Glb => g.syscnt + 1) hGlb, rfl, rfl, rfl, rfl, hMem, hRetired, hTag, hFuses⟩
  · have hKey := regGet_releaseCore_key0 s bs pr
    obtain ⟨r, hReleased⟩ := releaseCore_eq s bs pr
    rw [hReleased] at hKey
    exact ⟨_, (next_congr (if_pos hHeld)).trans (next_congr hReleased), rfl, rfl, rfl, rfl, hKey, rfl, rfl, rfl, rfl⟩

/-! ### The power-on reset (R516, R517, R532) -/

/-- With no connection an occurrence that is recorded leaves the recorder as its record does. -/
theorem occur_recorder_of_noConns {s : State} (h : s.conns = []) (b : Nat) {c : BitVec 12} (p0 p1 : W32) (hRec : isEventOnly c = false) :
    (occur s b c p0 p1).recorder = (recordAt s s.now.frame s.now.slot b c p0 p1).recorder ∧ (occur s b c p0 p1).conns = [] := by
  have hConns : (setEvs (recordAt s s.now.frame s.now.slot b c p0 p1) b c).conns = [] := by
    rw [setEvs_conns, recordAt_conns, h]
  have hRoute : routeOf (setEvs (recordAt s s.now.frame s.now.slot b c p0 p1) b c) b c = [] := by
    unfold routeOf
    rw [hConns]
    split
    · rfl
    · exact ite_self []
  have hOccur : occur s b c p0 p1 = setEvs (recordAt s s.now.frame s.now.slot b c p0 p1) b c := by
    simp only [occur, occurAt, hRec, Bool.false_eq_true, if_false, hRoute, copyTo]
  exact ⟨by rw [hOccur, setEvs_recorder], by rw [hOccur, hConns]⟩

theorem recordAt_new {s : State} {c : BitVec 12} {p0 p1 : W32} (h : raisable s.recorder c p0 p1 = none) (fr : W32) (sl : BitVec 6)
    (b : Nat) : (recordAt s fr sl b c p0 p1).recorder = newRecord s.recorder
      { seq := 0, code := c, source := BitVec.ofNat 7 b, noTime := s.clk.noTime, tally := 1
        frame := if s.clk.noTime then 0 else fr.setWidth 26, slot := if s.clk.noTime then 0 else sl, p0 := p0, p1 := p1 } := by
  unfold recordAt
  rw [h]
  exact captureErr_recorder _ _ _

theorem newRecord_fresh (e : Rec) : newRecord {} e = { recs := [(0, { e with seq := 1 })], seq := 1 } := by
  have hIndex : recIndex (0 + 1) = 0 := by decide
  unfold newRecord
  dsimp only
  rw [hIndex]
  rfl

/-- An emptied part with VDDIO in one of its classes, before its release. -/
def powered (s : State) (mv : Nat) : State :=
  { s with
    mem := [], badMem := [], powers := s.powers + 1, recorder := {}
    glb := { s.glb with last := BitVec.ofNat 4 (b2n s.clk.dhExit) }
    mon := { s.mon with vddio33 := (vddioClass mv).getD false } }

/-- The part released after power-up, POWER_UP recorded. -/
def poweredUp (s : State) (bs : BitVec 2) (pr : Byte) (mv : Nat) : State :=
  occur (releaseCore (powered s mv) bs pr) blkGLB 0x001 (put32 bs.toNat 2 0 ||| put32 (b2n s.clk.dhExit) 4 4) (put32 pr.toNat 8 0)

section PowerUp

variable {s : State} (bs : BitVec 2) (pr : Byte) {mv : Nat}

theorem execPowerUp_released (hHeld : s.phase = .porHeld) (hClass : vddioClass mv ≠ none) : execPowerUp bs pr mv s =
    .next (if s.tag.field then tagOccur (poweredUp s bs pr mv) 0x904 1 0 else poweredUp s bs pr mv) := by
  have hTag : (poweredUp s bs pr mv).tag.field = s.tag.field := by
    obtain ⟨r, h⟩ := releaseCore_eq (powered s mv) bs pr
    unfold poweredUp
    rw [occur_eq, h]
    rfl
  unfold execPowerUp
  rw [if_neg fun h => h.elim (fun hNot => hNot hHeld) hClass, ← hTag]
  rfl

/-- The record of POWER_UP. -/
def powerUpRecord (s : State) (bs : BitVec 2) (pr : Byte) : Rec :=
  ⟨1, 0x001, 0, true, 1, 0, 0, put32 bs.toNat 2 0 ||| put32 (b2n s.clk.dhExit) 4 4, put32 pr.toNat 8 0⟩

theorem poweredUp_recorder (hTime : s.clk.noTime = true) (hConns : s.conns = []) :
    (poweredUp s bs pr mv).recorder = { recs := [(0, powerUpRecord s bs pr)], seq := 1 } ∧ (poweredUp s bs pr mv).conns = [] := by
  obtain ⟨r, h⟩ := releaseCore_eq (powered s mv) bs pr
  unfold poweredUp
  rw [h]
  obtain ⟨hRecorder, hNone⟩ := occur_recorder_of_noConns (s := { releasedBut (powered s mv) bs pr with regs := r }) hConns blkGLB
    (put32 bs.toNat 2 0 ||| put32 (b2n s.clk.dhExit) 4 4) (put32 pr.toNat 8 0) (c := 0x001) (by decide)
  refine ⟨hRecorder.trans ((recordAt_new rfl _ _ _).trans ?_), hNone⟩
  have hNoTime : (powered s mv).clk.noTime = true := hTime
  simp only [releasedBut, hNoTime, if_true]
  exact newRecord_fresh _

/-- A field already there is the second record. -/
theorem tagOccur_recorder {u : State} {x : Rec} (hOn : coreOn u = true) (hRecorder : u.recorder = { recs := [(0, x)], seq := 1 })
    (hCode : x.code = 0x001) (hConns : u.conns = []) :
    tget (tagOccur u 0x904 1 0).recorder.recs 0 = some x ∧ (tagOccur u 0x904 1 0).recorder.seq = 2 := by
  have hNew : raisable u.recorder 0x904 1 0 = none := by
    rw [hRecorder]
    unfold raisable latestOf
    simp [hCode]
  obtain ⟨hOccur, _⟩ := occur_recorder_of_noConns hConns blkTAG (c := 0x904) 1 0 (by decide)
  unfold tagOccur
  rw [if_pos hOn, hOccur, recordAt_new hNew, hRecorder]
  have hIndex : recIndex (1 + 1) = 1 := by decide
  exact ⟨(tget_tset_ne _ _ (hIndex ▸ Nat.zero_ne_one)).trans rfl, rfl⟩

theorem coreOn_poweredUp (s : State) (mv : Nat) : coreOn (poweredUp s bs pr mv) = true := by
  obtain ⟨r, h⟩ := releaseCore_eq (powered s mv) bs pr
  unfold poweredUp
  rw [occur_eq, h]
  rfl

/-- What power-up records: POWER_UP first, then a field already there. -/
theorem powerUp_records (hTime : s.clk.noTime = true) (hConns : s.conns = []) :
    let t := if s.tag.field then tagOccur (poweredUp s bs pr mv) 0x904 1 0 else poweredUp s bs pr mv
    OnlyNoted (releaseCore (powered s mv) bs pr) t ∧ tget t.recorder.recs 0 = some (powerUpRecord s bs pr) ∧
      t.recorder.seq = if s.tag.field then 2 else 1 := by
  obtain ⟨hRecorder, hNone⟩ := poweredUp_recorder (mv := mv) bs pr hTime hConns
  have hNoted : OnlyNoted (releaseCore (powered s mv) bs pr) (poweredUp s bs pr mv) := occurAt_onlyNoted _ _ _ _ _ _ _
  dsimp only
  split
  · have hOn := coreOn_poweredUp bs pr s mv
    obtain ⟨hFirst, hSeq⟩ := tagOccur_recorder hOn hRecorder rfl hNone
    refine ⟨hNoted.trans ?_, hFirst, hSeq⟩
    unfold tagOccur
    rw [if_pos hOn]
    exact occurAt_onlyNoted _ _ _ _ _ _ _
  · rw [hRecorder]
    exact ⟨hNoted, rfl, rfl⟩

end PowerUp

theorem regGet_of_regs {s t : State} {b o : Nat} (h : t.regs = s.regs) : regGet t b o = regGet s b o := by
  unfold regGet
  rw [h]

/-- Settles O57: POR takes all but `coreLost`'s fields; the release is `poweredUp`, with a field's record behind POWER_UP's. -/
theorem powerOnResetAndItsRelease : Obligations.PowerOnResetAndItsRelease := by
  refine ⟨fun s hPor hDeep => ?_, fun s bs pr mv hHeld => ⟨fun hNone => ?_, fun hClass hTime hConns => ?_⟩⟩
  · obtain ⟨f, n, hDisturbed, hFuses⟩ := disturbFuse_eq s
    refine ⟨_, next_congr (if_neg fun h => h.elim hPor hDeep), ?_⟩
    rw [hDisturbed]
    exact ⟨rfl, rfl, rfl, rfl, rfl, rfl, rfl, rfl, rfl, rfl, rfl, rfl, rfl, rfl, rfl, rfl, rfl, hFuses⟩
  · exact next_congr (if_pos (.inr hNone))
  · obtain ⟨hNoted, hFirst, hSeq⟩ := powerUp_records bs pr hTime hConns
    have hKey := regGet_releaseCore_key0 (powered s mv) bs pr
    have hLlr : ∀ i < 32, regGet (releaseCore (powered s mv) bs pr) blkECC (0x100 + 8 * i) = Config.bootLlr i :=
      fun i hi => regGet_releaseCore_llr (powered s mv) bs pr hi
    refine ⟨_, execPowerUp_released bs pr hHeld hClass, ?_⟩
    obtain ⟨r, hReleased⟩ := releaseCore_eq (powered s mv) bs pr
    generalize (if s.tag.field then tagOccur (poweredUp s bs pr mv) 0x904 1 0 else poweredUp s bs pr mv) = t at hNoted hFirst hSeq ⊢
    have hSame := hNoted.eq_noteFields
    generalize releaseCore (powered s mv) bs pr = u at hKey hLlr hReleased hSame
    have hRegs : t.regs = u.regs := (congrArg State.regs hSame :)
    rw [hReleased] at hSame
    refine ⟨(congrArg State.phase hSame :), (congrArg (fun u : State => u.glb.bootsel) hSame :),
      (congrArg (fun u : State => u.mon.proc) hSame :), (congrArg (fun u : State => u.glb.last) hSame :).trans ?_,
      (congrArg State.fus hSame :), (congrArg State.mem hSame :), ?_, fun i hi => ?_, hFirst, hSeq⟩
    · change BitVec.ofNat 4 (b2n s.clk.dhExit) = _
      cases s.clk.dhExit <;> rfl
    · exact (regGet_of_regs hRegs).trans hKey
    · exact (regGet_of_regs hRegs).trans (hLlr i hi)

/-! ### Flash reset, reload, READY (R523, R538-R540) -/

section Ordered

variable {s : State} {kind : Nat}

/-- An accepted order before RESET is recorded. -/
def loadOrdered (s : State) (kind : Nat) : State :=
  dropGuarantees { commandResult s 0 (kind - 4) with
    glb := { s.glb with flashrst := true, last := BitVec.ofNat 4 kind, flashcnt := s.glb.flashcnt + 1 }
    boot := { (commandResult s 0 (kind - 4)).boot with
      busy := true, loaded := false, sv := {}, pv := {}, startedAt := cycles (commandResult s 0 (kind - 4))
      from_ := if kind = 6 then 2 else bootSource s.glb.bootsel true } }

theorem orderLoad_accepted (hReady : s.glb.ready = true) (hIdle : s.glb.flashrst = false) (hNone : inFlightOnChannels s = 0) :
    orderLoad s kind = occur (loadOrdered s kind) blkGLB 0x002 (put32 kind 4 0) (put32 s.conns.length 16 0) := by
  unfold orderLoad
  simp only [hReady, hIdle, hNone, Bool.not_true, ne_eq, not_true_eq_false, decide_false, Bool.or_self, Bool.false_eq_true, if_false]
  rfl

theorem orderLoad_refused (h : s.glb.ready = false ∨ s.glb.flashrst = true ∨ inFlightOnChannels s ≠ 0) :
    orderLoad s kind = occur (commandResult s (if s.glb.ready then 1 else 2) (kind - 4)) blkBOOT 0xF04 (put32 kind 4 0)
      (put32 (sat (inFlightOnChannels s) 16) 16 0) := by
  have hRefused : (!s.glb.ready || s.glb.flashrst || decide (inFlightOnChannels s ≠ 0)) = true := by
    rcases h with h | h | h <;> simp [h]
  exact if_pos hRefused

/-- The two commands that order a load are one order. -/
theorem exec_orderLoad {w : Dom} {v : W64} {i : Instr}
    (h : (i = .flashReset w v ∧ kind = 5 ∧ mayWrite s w blkGLB 0x88 = true ∧ fld v 15 8 = 0x5A ∧ fld v 1 0 = 2) ∨
      (i = .reload w v ∧ kind = 6 ∧ mayWrite s w blkBOOT 0x98 = true ∧ bit v 0 = true)) :
    exec i s = .next (orderLoad s kind) := by
  rcases h with ⟨rfl, rfl, hMay, hConfirmed, hKind⟩ | ⟨rfl, rfl, hMay, hGo⟩
  · refine next_congr ((guardedWrite_of_mayWrite {} _ hMay).trans ?_)
    unfold writeRst
    rw [if_neg (Classical.not_not.mpr hConfirmed), if_neg (by omega), if_pos hKind]
  · exact next_congr ((guardedWrite_of_mayWrite {} _ hMay).trans (if_pos hGo))

end Ordered

/-- Settles O59: an order is accepted or refused by one condition; the end of a load and READY wait for every channel. -/
theorem flashResetsAndReady : Obligations.FlashResetsAndReady := by
  refine ⟨fun s w v i kind hOrder => ⟨fun hReady hIdle hNone => ?_, fun hRefused => ?_⟩, fun s =>
    ⟨fun hBusy hLoaded hEnded => ?_, fun hLive hPhase hEnded => ?_, fun hNot => ⟨?_, ?_⟩⟩⟩
  · refine ⟨_, (exec_orderLoad hOrder).trans (next_congr (orderLoad_accepted hReady hIdle hNone)), ?_⟩
    rw [occur_eq]
    refine ⟨rfl, rfl, rfl, rfl, rfl, rfl, rfl, rfl, rfl, rfl, rfl, ?_⟩
    intro e he
    obtain ⟨x, _, rfl⟩ := List.mem_map.mp he
    rfl
  · exact (exec_orderLoad hOrder).trans (next_congr (orderLoad_refused hRefused))
  · exact ⟨_, next_congr (if_pos (by simp [hBusy, hLoaded, hEnded])), rfl, rfl, rfl, rfl⟩
  · refine ⟨{ s with
      glb := { s.glb with ready := true, phase := 6 }
      boot := { s.boot with time := (s.boot.time &&& 0xFFFF0000) ||| put32 (sat (msSince s) 16) 16 0 } },
      next_congr (if_pos (by simp [hLive, hPhase, hEnded])), rfl, rfl⟩
  · exact next_congr (if_neg (by simp [hNot]))
  · exact next_congr (if_neg (by simp [hNot]))

end Sys2Proof.Machine
end

section
/-! The service tag (R460-R480): what a field command answers, what the wired side composes, what a flip shows. -/

namespace Sys2Proof.Machine

/-! ### Tiles -/

theorem tagOccur_onlyNoted (s : State) (c : BitVec 12) (p0 p1 : W32) : OnlyNoted s (tagOccur s c p0 p1) := by
  unfold tagOccur
  split
  · exact occurAt_onlyNoted s _ _ _ _ _ _
  · exact .refl s

theorem tagOccur_tag (s : State) (c : BitVec 12) (p0 p1 : W32) : (tagOccur s c p0 p1).tag = s.tag :=
  (congrArg State.tag (tagOccur_onlyNoted s c p0 p1).eq_noteFields :)

theorem tagOccur_mem (s : State) (c : BitVec 12) (p0 p1 : W32) : (tagOccur s c p0 p1).mem = s.mem :=
  (congrArg State.mem (tagOccur_onlyNoted s c p0 p1).eq_noteFields :)

theorem tagOccur_phase (s : State) (c : BitVec 12) (p0 p1 : W32) : (tagOccur s c p0 p1).phase = s.phase :=
  (congrArg State.phase (tagOccur_onlyNoted s c p0 p1).eq_noteFields :)

theorem tagOccur_off {s : State} (h : coreOn s = false) (c : BitVec 12) (p0 p1 : W32) : tagOccur s c p0 p1 = s :=
  if_neg (by simp [h])

theorem tileOf_of_tag {s t : State} (h : t.tag = s.tag) (k : Nat) : tileOf t k = tileOf s k := by
  unfold tileOf
  rw [h]

theorem coreOn_of_phase {s t : State} (h : t.phase = s.phase) : coreOn t = coreOn s := by
  unfold coreOn
  rw [h]

/-- The tile that a flip shows (R472). -/
def flipped (x : Tile) : Tile :=
  { x with
    fieldread := x.nextRead.getD x.fieldread, nextRead := none, comm := x.shadow, shadow := x.comm, version := x.version + 1
    pending := false, fieldWrite := none }

/-- The record of a field write, when the flip shows one. -/
def fieldWriteNoted (s : State) (w : Option (Nat × W32)) : State :=
  match w with
  | some (b, d) => tagOccur s 0x906 (put32 b 10 0) d
  | none => s

theorem fieldWriteNoted_onlyNoted (s : State) (w : Option (Nat × W32)) : OnlyNoted s (fieldWriteNoted s w) := by
  cases w with
  | none => exact .refl s
  | some x => exact tagOccur_onlyNoted s _ _ _

theorem flipTile_pending {s : State} {t : Nat} (h : (tileOf s t).pending = true) : flipTile s t =
    tagOccur (fieldWriteNoted (setTile s t (flipped (tileOf s t))) (tileOf s t).fieldWrite) 0x907
      (put32 t 6 0 ||| put32 ((tileOf s t).version + 1).toNat 8 8) 0 := by
  unfold flipTile
  dsimp only
  rw [if_pos h]
  rfl

theorem flipTile_onlyNoted {s : State} {t : Nat} (h : (tileOf s t).pending = true) :
    OnlyNoted (setTile s t (flipped (tileOf s t))) (flipTile s t) := by
  rw [flipTile_pending h]
  exact (fieldWriteNoted_onlyNoted _ _).trans (tagOccur_onlyNoted _ _ _ _)

theorem flipTile_recorder_off {s : State} {t : Nat} (h : (tileOf s t).pending = true) (hOff : coreOn s = false) :
    (flipTile s t).recorder = s.recorder := by
  have hWrite : fieldWriteNoted (setTile s t (flipped (tileOf s t))) (tileOf s t).fieldWrite =
      setTile s t (flipped (tileOf s t)) := by
    cases (tileOf s t).fieldWrite with
    | none => rfl
    | some x => exact tagOccur_off (s := setTile s t (flipped (tileOf s t))) hOff _ _ _
  have hStill : coreOn (setTile s t (flipped (tileOf s t))) = false := hOff
  rw [flipTile_pending h, hWrite, tagOccur_off hStill]
  rfl

/-- What no boundary of the tag changes: the password and its failures in all, and memory. -/
def besideTiles (s : State) : W32 × Byte × List Host.Cell := (s.tag.pwd, s.tag.total, s.mem)

theorem besideTiles_flipTile (s : State) (t : Nat) : besideTiles (flipTile s t) = besideTiles s := by
  by_cases h : (tileOf s t).pending = true
  · have hSame := (flipTile_onlyNoted h).eq_noteFields
    have hTag : (flipTile s t).tag = (setTile s t (flipped (tileOf s t))).tag := (congrArg State.tag hSame :)
    have hMem : (flipTile s t).mem = s.mem := (congrArg State.mem hSame :)
    unfold besideTiles
    rw [hTag, hMem]
    rfl
  · unfold flipTile
    dsimp only
    rw [if_neg h]
    split <;> rfl

theorem besideTiles_flipAll (s : State) : besideTiles (flipAll s) = besideTiles s := foldl_kept besideTiles flipTile besideTiles_flipTile _ s

/-! ### Field commands (R460-R465) -/

section Field

variable {s : State} {a : TagAddr}

theorem fieldCommand_named (hField : s.tag.field = true) (hNamed : named s a = true) (go : State → State) :
    fieldCommand s a go = go (flipAll s) := if_pos (by simp [hField, hNamed])

theorem fieldMayRead_iff (s : State) (b : Nat) : fieldMayRead s b = true ↔ (tileOf s (b / 16)).fieldread = true ∨ s.tag.unlocked = true :=
  Bool.or_eq_true_iff

theorem readBlock_past (s : State) (ext opt : Bool) {block : W16} (h : 1023 < blockNo ext block) :
    readBlock s ext opt block = tagError s 0x10 := if_pos h

theorem readBlock_open (s : State) (ext opt : Bool) {block : W16} (h : blockNo ext block ≤ 1023)
    (hOpen : fieldMayRead s (blockNo ext block) = true) :
    readBlock s ext opt block = tagOk s (blockAnswer s opt (blockNo ext block)) := by
  unfold readBlock
  rw [if_neg (Nat.not_lt.mpr h), if_neg (by simp [hOpen])]

theorem readBlock_closed (s : State) (ext opt : Bool) {block : W16} (h : blockNo ext block ≤ 1023)
    (hClosed : fieldMayRead s (blockNo ext block) = false) : readBlock s ext opt block = tagError s 0xA1 := by
  unfold readBlock
  rw [if_neg (Nat.not_lt.mpr h), if_pos (by simp [hClosed])]

theorem readBlocks_open (s : State) (ext opt : Bool) {first : W16} {n : Nat} (hIn : blockNo ext first + n ≤ if ext then 1024 else 256)
    (hOpen : ∀ i < n, fieldMayRead s (blockNo ext first + i) = true) : readBlocks s ext opt first n =
      tagOk s (((List.range n).map (blockNo ext first + ·)).flatMap (blockAnswer s opt)) := by
  have hAll : ((List.range n).map (blockNo ext first + ·)).all (fieldMayRead s) = true := by
    rw [List.all_map, List.all_eq_true]
    exact fun i hi => hOpen i (List.mem_range.mp hi)
  unfold readBlocks
  rw [if_neg (Nat.not_lt.mpr hIn), if_neg (by simp only [hAll]; decide)]

theorem maskMatches_iff (mask : List Bool) :
    maskMatches mask = true ↔ ∀ i, i < mask.length → mask[i]? = some (Config.uid.getLsbD i) := by
  unfold maskMatches
  rw [List.all_eq_true]
  constructor
  · intro h i hi
    have hEq : decide (mask[i] = Config.uid.getLsbD i) = true := h _ (List.mem_mapIdx.mpr ⟨i, hi, rfl⟩)
    rw [List.getElem?_eq_getElem hi, of_decide_eq_true hEq]
  · intro h x hx
    obtain ⟨i, hi, rfl⟩ := List.mem_mapIdx.mp hx
    have hAt := h i hi
    rw [List.getElem?_eq_getElem hi] at hAt
    exact decide_eq_true (Option.some.inj hAt)

theorem execInventory_matching (hField : s.tag.field = true) (hLoud : s.tag.quiet = false) (many : Bool) {afi : Option Byte}
    (hAfi : afi = none ∨ afi = some 0) {mask : List Bool} (hMask : maskMatches mask = true) :
    execInventory many afi mask s = .next (emit (flipAll s) (.tagInventory (if many then some (inventorySlot mask) else none)
      (0 :: 0 :: leBytes 8 Config.uid.toNat))) := by
  have hZero : afi.getD 0 = 0 := by
    rcases hAfi with rfl | rfl <;> rfl
  exact next_congr (if_pos (by rw [hField, hLoud, decide_eq_true hZero, hMask]; rfl))

theorem execTagFieldOn_awake (hField : s.tag.field = false) (hAwake : s.phase ≠ .deepHold) :
    execTagFieldOn s = .next (tagOccur (openField s) 0x904 0 0) := by
  have hStill : (tagOccur (openField s) 0x904 0 0).phase ≠ .deepHold := by
    rw [tagOccur_phase]
    exact hAwake
  unfold execTagFieldOn
  rw [if_neg (by simp [hField])]
  exact next_congr (if_neg fun h => hStill h.1)

end Field

/-! ### Writing by the field (R474, R479) -/

section Written

variable (s : State) (ext : Bool) {block : W16} (d : W32)

/-- A tile with a block written by the field, to be shown at the end of the command (R474). -/
def depotWritten (x : Tile) (b : Nat) (d : W32) : Tile :=
  { x with shadow := patch x.comm (4 * (b % 16)) (leBytes 4 d.toNat), pending := true, fieldWrite := some (b, d) }

theorem writeBlock_past (h : 1023 < blockNo ext block) : writeBlock s ext block d = tagError s 0x10 := if_pos h

theorem writeBlock_notDepot (h : blockNo ext block < 960) : writeBlock s ext block d = tagError s 0x12 := by
  unfold writeBlock
  rw [if_neg (by omega), if_pos h]

theorem writeBlock_locked (hFrom : 960 ≤ blockNo ext block) (hTo : blockNo ext block ≤ 1023) (h : s.tag.unlocked = false) :
    writeBlock s ext block d = tagError s 0xA1 := by
  unfold writeBlock
  rw [if_neg (by omega), if_neg (by omega), if_pos (by simp [h])]

theorem writeBlock_unlocked (hFrom : 960 ≤ blockNo ext block) (hTo : blockNo ext block ≤ 1023) (h : s.tag.unlocked = true) :
    writeBlock s ext block d =
      tagOk (setTile s (blockNo ext block / 16) (depotWritten (tileOf s (blockNo ext block / 16)) (blockNo ext block) d)) [] := by
  unfold writeBlock
  rw [if_neg (by omega), if_neg (by omega), if_neg (by simp [h])]
  rfl

variable (p : W32)

theorem tryUnlock_refused (h : s.tag.pwd = 0 ∨ 3 ≤ s.tag.session.toNat ∨ 16 ≤ s.tag.total.toNat) :
    tryUnlock s p = tagError s 0xA2 := by
  refine if_pos ?_
  rcases h with h | h | h <;> simp [h]

/-- No password, too many failures of the session or in all: neither holds. -/
theorem tryUnlock_judged (hPwd : s.tag.pwd ≠ 0) (hSession : s.tag.session.toNat < 3) (hTotal : s.tag.total.toNat < 16) :
    tryUnlock s p = if p = s.tag.pwd then
        tagOk (tagOccur { s with tag := { s.tag with unlocked := true, session := 0 } } 0x908 0 0) []
      else tagError (tagOccur { s with
        tag := { s.tag with session := s.tag.session + 1, total := s.tag.total + 1 }, freeCtr := s.freeCtr + 1 } 0x905
          (put32 (s.tag.session + 1).toNat 8 0 ||| put32 (s.tag.total + 1).toNat 8 8) 0) (Config.wrongPassword (s.freeCtr + 1)) :=
  if_neg (by
    rw [decide_eq_false hPwd, decide_eq_false (Nat.not_le.mpr hSession), decide_eq_false (Nat.not_le.mpr hTotal)]
    decide)

end Written

/-- What a field command that reads or selects answers. -/
theorem fieldReadsAndSelects (s : State) (a : TagAddr) (hField : s.tag.field = true) (hNamed : named s a = true) :
    let u := flipAll s
    (∀ (ext opt : Bool) (block : W16), let b := blockNo ext block
      (1023 < b → exec (.readSingleBlock a ext opt block) s = .next (emit u (.tagAnswer [1, 0x10]))) ∧
      (b ≤ 1023 → ((tileOf u (b / 16)).fieldread = true ∨ u.tag.unlocked = true) →
        exec (.readSingleBlock a ext opt block) s = .next (emit u (.tagAnswer
          (0 :: ((if opt then [0] else []) ++ slice (tileBytes u (b / 16)) (4 * (b % 16)) 4))))) ∧
      (b ≤ 1023 → (tileOf u (b / 16)).fieldread = false → u.tag.unlocked = false →
        exec (.readSingleBlock a ext opt block) s = .next (emit u (.tagAnswer [1, 0xA1])))) ∧
    (∀ (ext opt : Bool) (first : W16) (m : Byte), let b := blockNo ext first
      b + m.toNat + 1 ≤ (if ext then 1024 else 256) →
      (∀ i, b ≤ i → i ≤ b + m.toNat → (tileOf u (i / 16)).fieldread = true ∨ u.tag.unlocked = true) →
      exec (.readMultipleBlocks a ext opt first m) s = .next (emit u (.tagAnswer
        (0 :: ((List.range (m.toNat + 1)).map (b + ·)).flatMap (blockAnswer u opt))))) := by
  have hCommand := fieldCommand_named hField hNamed
  intro u
  refine ⟨fun ext opt block => ⟨fun hPast => ?_, fun hIn hOpen => ?_, fun hIn hRead hLocked => ?_⟩, fun ext opt first m hIn hOpen => ?_⟩
  · exact next_congr ((hCommand _).trans (readBlock_past u ext opt hPast))
  · exact next_congr ((hCommand _).trans (readBlock_open u ext opt hIn ((fieldMayRead_iff u _).mpr hOpen)))
  · have hClosed : fieldMayRead u (blockNo ext block) = false := by
      unfold fieldMayRead
      rw [hRead, hLocked]
      rfl
    exact next_congr ((hCommand _).trans (readBlock_closed u ext opt hIn hClosed))
  · refine next_congr ((hCommand _).trans (readBlocks_open u ext opt hIn fun i hi => ?_))
    exact (fieldMayRead_iff u _).mpr (hOpen _ (by omega) (by omega))

/-- What a field command that writes or unlocks leaves. -/
theorem fieldWritesAndUnlocks (s : State) (a : TagAddr) (hField : s.tag.field = true) (hNamed : named s a = true) :
    let u := flipAll s
    (∀ (ext : Bool) (block : W16) (d : W32), let b := blockNo ext block
      (1023 < b → exec (.writeSingleBlock a ext block d) s = .next (emit u (.tagAnswer [1, 0x10]))) ∧
      (b < 960 → exec (.writeSingleBlock a ext block d) s = .next (emit u (.tagAnswer [1, 0x12]))) ∧
      (960 ≤ b → b ≤ 1023 → u.tag.unlocked = false →
        exec (.writeSingleBlock a ext block d) s = .next (emit u (.tagAnswer [1, 0xA1]))) ∧
      (960 ≤ b → b ≤ 1023 → u.tag.unlocked = true → ∃ t, exec (.writeSingleBlock a ext block d) s = .next t ∧
        (tileOf t (b / 16)).shadow = patch (tileOf u (b / 16)).comm (4 * (b % 16)) (leBytes 4 d.toNat) ∧
        (tileOf t (b / 16)).comm = (tileOf u (b / 16)).comm ∧ (tileOf t (b / 16)).pending = true ∧
        (∀ j, j ≠ b / 16 → tileOf t j = tileOf u j) ∧ t.out = u.out ++ [.tagAnswer [0]] ∧
        t = { u with tag := { u.tag with tiles := t.tag.tiles }, out := t.out })) ∧
    ∀ p : W32,
      ((u.tag.pwd = 0 ∨ 3 ≤ u.tag.session.toNat ∨ 16 ≤ u.tag.total.toNat) →
        exec (.unlock a p) s = .next (emit u (.tagAnswer [1, 0xA2]))) ∧
      (u.tag.pwd ≠ 0 → u.tag.session.toNat < 3 → u.tag.total.toNat < 16 →
        (p = u.tag.pwd → exec (.unlock a p) s =
          .next (emit (tagOccur { u with tag := { u.tag with unlocked := true, session := 0 } } 0x908 0 0) (.tagAnswer [0]))) ∧
        (p ≠ u.tag.pwd → ∃ t x, exec (.unlock a p) s = .next (emit t (.tagAnswer [1, x])) ∧
          t.tag = { u.tag with session := u.tag.session + 1, total := u.tag.total + 1 } ∧ t.mem = u.mem)) := by
  have hCommand := fieldCommand_named hField hNamed
  intro u
  refine ⟨fun ext block d => ⟨fun hPast => ?_, fun hNot => ?_, fun hFrom hTo hLocked => ?_, fun hFrom hTo hUnlocked => ?_⟩,
    fun p => ⟨fun hRefused => ?_, fun hPwd hSession hTotal => ⟨fun hRight => ?_, fun hWrong => ?_⟩⟩⟩
  · exact next_congr ((hCommand _).trans (writeBlock_past u ext d hPast))
  · exact next_congr ((hCommand _).trans (writeBlock_notDepot u ext d hNot))
  · exact next_congr ((hCommand _).trans (writeBlock_locked u ext d hFrom hTo hLocked))
  · refine ⟨_, next_congr ((hCommand _).trans (writeBlock_unlocked u ext d hFrom hTo hUnlocked)), ?_⟩
    have hTile := tileOf_setTile_self u (blockNo ext block / 16)
      (depotWritten (tileOf u (blockNo ext block / 16)) (blockNo ext block) d)
    exact ⟨congrArg Tile.shadow hTile, (congrArg Tile.comm hTile :), congrArg Tile.pending hTile,
      fun j hj => tileOf_setTile_ne u _ hj, rfl, rfl⟩
  · exact next_congr ((hCommand _).trans (tryUnlock_refused u p hRefused))
  · exact next_congr ((hCommand _).trans ((tryUnlock_judged u p hPwd hSession hTotal).trans (if_pos hRight)))
  · refine ⟨_, _, next_congr ((hCommand _).trans ((tryUnlock_judged u p hPwd hSession hTotal).trans (if_neg hWrong))), ?_, ?_⟩
    · exact tagOccur_tag _ _ _ _
    · exact tagOccur_mem _ _ _ _

/-- Settles O52: a field command acts on the state in which every pending commit has flipped. -/
theorem theTagAnswersTheField : Obligations.TheTagAnswersTheField := by
  refine ⟨fun s => ⟨fun a hField hNamed => ?_, fun hField => ?_, fun hField hAwake => execTagFieldOn_awake hField hAwake⟩,
    fun s a hField hNamed => fieldWritesAndUnlocks s a hField hNamed⟩
  · have hCommand := fieldCommand_named hField hNamed
    obtain ⟨hSingle, hMultiple⟩ := fieldReadsAndSelects s a hField hNamed
    refine ⟨hSingle, hMultiple, next_congr (hCommand _), fun ext => next_congr (hCommand _), fun f m hIn => ?_, fun bad => ?_⟩
    · exact next_congr ((hCommand _).trans (if_neg (by omega)))
    · refine next_congr ((hCommand _).trans ?_)
      cases bad <;> rfl
  · refine ⟨next_congr (if_pos (by simp [hField])), ?_, fun uid hUid => ?_, fun many afi mask hLoud hAfi hMask => ?_,
      fun many afi mask hDiffers => ?_, ?_⟩
    · exact (next_congr (if_neg (by simp [hField]))).trans (next_congr (if_pos rfl))
    · exact (next_congr (if_neg (by simp [hField]))).trans (next_congr (if_neg hUid))
    · exact execInventory_matching hField hLoud many hAfi ((maskMatches_iff mask).mpr hMask)
    · obtain ⟨i, hi, hNot⟩ := hDiffers
      have hMask : maskMatches mask = false := Bool.eq_false_iff.mpr fun h => hNot ((maskMatches_iff mask).mp h i hi)
      exact next_congr (if_neg (by simp [hMask]))
    · have hSame := besideTiles_flipAll s
      simp only [besideTiles, Prod.mk.injEq] at hSame
      obtain ⟨hPwd, hTotal, hMem⟩ := hSame
      exact ⟨_, rfl, rfl, rfl, rfl, rfl, hPwd, hTotal, hMem⟩

end Sys2Proof.Machine
end

section
/-! Tiles composed, committed and flipped on the wired side (R466-R473, R479, R480). -/

namespace Sys2Proof.Machine

/-! ### TAG.TCMD (R473) -/

section Tcmd

variable {s : State} {v : W64} (hGo : bit v 15 = true)

include hGo

theorem writeTcmd_commit (hOp : fld v 9 8 = 0) (hWired : isWired (fld v 5 0) = true) (hFree : (tileOf s (fld v 5 0)).pending = false) :
    writeTcmd s v = setTile s (fld v 5 0) { tileOf s (fld v 5 0) with pending := true } := by
  unfold writeTcmd
  simp only [hGo, hOp, hWired, hFree, Bool.not_true, Bool.not_false, Bool.and_self, Bool.false_eq_true, if_false, if_true]

theorem writeTcmd_load (hOp : fld v 9 8 = 1) (hWired : isWired (fld v 5 0) = true) (hFree : (tileOf s (fld v 5 0)).pending = false) :
    writeTcmd s v = setTile s (fld v 5 0) { tileOf s (fld v 5 0) with shadow := (tileOf s (fld v 5 0)).comm } := by
  unfold writeTcmd
  simp only [hGo, hOp, hWired, hFree, Bool.not_true, Bool.not_false, Bool.and_self, Bool.false_eq_true, if_false, if_true]

theorem writeTcmd_notOwn (hOp : fld v 9 8 ≤ 1) (h : isWired (fld v 5 0) = false ∨ (tileOf s (fld v 5 0)).pending = true) :
    writeTcmd s v = s := by
  have hOwn : (isWired (fld v 5 0) && !(tileOf s (fld v 5 0)).pending) = false := by
    rcases h with h | h <;> simp [h]
  have hTwo : fld v 9 8 = 0 ∨ fld v 9 8 = 1 := by omega
  unfold writeTcmd
  rcases hTwo with hOp | hOp <;>
    simp only [hGo, hOp, hOwn, Bool.not_true, Bool.false_eq_true, if_false]

theorem writeTcmd_fieldread (hOp : fld v 9 8 = 2) :
    writeTcmd s v = setTile s (fld v 5 0) { tileOf s (fld v 5 0) with nextRead := some (bit v 12) } := by
  unfold writeTcmd
  simp only [hGo, hOp, Bool.not_true, Bool.false_eq_true, if_false]

end Tcmd

/-! ### Compositions (R467-R469, R471) -/

section Composed

variable (s : State) (k i : Nat) (d : List Byte)

/-- The tile that a composition leaves. -/
def composed (x : Tile) (i : Nat) (d : List Byte) : Tile :=
  { x with shadow := patch (if x.pending then x.shadow else x.comm) i d, pending := true }

theorem tileOf_composeTile_self : tileOf (composeTile s k i d) k = composed (tileOf s k) i d := tileOf_setTile_self s k _

theorem tileOf_composeTile_ne {j : Nat} (h : j ≠ k) : tileOf (composeTile s k i d) j = tileOf s j := tileOf_setTile_ne s _ h

end Composed

/-- Only mirror slots of `s` have changed, and no record has been noted. -/
def SlotsWritten (s t : State) : Prop :=
  (∀ k, tileOf s k ≠ tileOf t k → 4 ≤ k ∧ k ≤ 27) ∧ t.recorder = s.recorder ∧ t.mem = s.mem

theorem SlotsWritten.refl (s : State) : SlotsWritten s s := ⟨fun _ h => absurd rfl h, rfl, rfl⟩

theorem SlotsWritten.trans {s t u : State} (h : SlotsWritten s t) (h' : SlotsWritten t u) : SlotsWritten s u := by
  obtain ⟨hTiles, hRecorder, hMem⟩ := h
  obtain ⟨hTiles', hRecorder', hMem'⟩ := h'
  refine ⟨fun k hNe => ?_, hRecorder'.trans hRecorder, hMem'.trans hMem⟩
  by_cases hFirst : tileOf s k = tileOf t k
  · exact hTiles' k fun hSecond => hNe (hFirst.trans hSecond)
  · exact hTiles k hFirst

/-- A record that reads well leaves nothing to note. -/
theorem noteRecord_of_noBad {s : State} (h : s.recorder.bad = []) (q : W32) : noteRecord s q = s := by
  have hGood : ∀ i, recBad s i = 0 := fun i => by rw [recBad, h]; rfl
  unfold noteRecord
  split
  · rfl
  · exact if_pos (hGood _)

theorem slotsWritten_writeMirrorSlot (s : State) {i : Nat} (hi : i < 96) (d : List Byte) : SlotsWritten s (writeMirrorSlot s i d) := by
  refine ⟨fun k hNe => ?_, rfl, rfl⟩
  have hSlot : k = 4 + i / 4 := Decidable.byContradiction fun hk => hNe (tileOf_composeTile_ne s _ _ _ hk).symm
  omega

theorem slotsWritten_rewrite {s : State} (hBad : s.recorder.bad = []) (l : List (Nat × W32)) (hl : ∀ x ∈ l, x.1 < 96) :
    SlotsWritten s (l.foldl (fun s x => noteRecord (writeMirrorSlot s x.1 (recBytes s x.2)) x.2) s) ∧
      (l.foldl (fun s x => noteRecord (writeMirrorSlot s x.1 (recBytes s x.2)) x.2) s).tag.mirrored = s.tag.mirrored := by
  induction l generalizing s with
  | nil => exact ⟨.refl s, rfl⟩
  | cons x t ih =>
    have hWritten := slotsWritten_writeMirrorSlot s (hl x List.mem_cons_self) (recBytes s x.2)
    have hBad' : (writeMirrorSlot s x.1 (recBytes s x.2)).recorder.bad = [] := hBad
    rw [List.foldl_cons, noteRecord_of_noBad hBad']
    obtain ⟨hRest, hMirrored⟩ := ih hBad' fun y hy => hl y (List.mem_cons_of_mem x hy)
    exact ⟨hWritten.trans hRest, hMirrored⟩

theorem slotsWritten_mirrorOne {s : State} (hBad : s.recorder.bad = []) (q : W32) :
    SlotsWritten s (mirrorOne s q) ∧ (mirrorOne s q).tag.mirrored = q := by
  have hSlot : (if s.tag.count = 0 then 0 else (s.tag.newest + 1) % 96) < 96 := by
    split
    · decide
    · exact Nat.mod_lt _ (by decide)
  have hWritten := slotsWritten_writeMirrorSlot s hSlot (recBytes s q)
  unfold mirrorOne
  dsimp only
  rw [noteRecord_of_noBad (s := writeMirrorSlot s (if s.tag.count = 0 then 0 else (s.tag.newest + 1) % 96) (recBytes s q)) hBad]
  exact ⟨hWritten, rfl⟩

theorem slotsWritten_mirrorAll {s : State} (hBad : s.recorder.bad = []) (l : List W32) :
    SlotsWritten s (l.foldl mirrorOne s) ∧ (l.foldl mirrorOne s).tag.mirrored = l.getLast?.getD s.tag.mirrored := by
  induction l generalizing s with
  | nil => exact ⟨.refl s, rfl⟩
  | cons q t ih =>
    obtain ⟨hWritten, hMirrored⟩ := slotsWritten_mirrorOne hBad q
    obtain ⟨_, hRecorder, _⟩ := id hWritten
    obtain ⟨hRest, hLast⟩ := ih (s := mirrorOne s q) (by rw [hRecorder, hBad])
    refine ⟨hWritten.trans hRest, hLast.trans ?_⟩
    rw [hMirrored]
    cases t with
    | nil => rfl
    | cons p t =>
      rw [List.getLast?_cons_cons, List.getLast?_cons]
      rfl

/-- The newest record mirrored is SEQ, unless SEQ was mirrored before. -/
theorem mirrored_newSeqs (s : State) : ((newSeqs s).getLast?.getD s.tag.mirrored).toNat =
    max s.recorder.seq.toNat s.tag.mirrored.toNat := by
  have hSeq := s.recorder.seq.isLt
  unfold newSeqs
  dsimp only
  generalize s.recorder.seq.toNat = q at hSeq ⊢
  by_cases hNone : q ≤ s.tag.mirrored.toNat
  · rw [Nat.sub_eq_zero_of_le hNone, Nat.max_eq_right hNone]
    rfl
  · obtain ⟨m, hm⟩ : ∃ m, min 96 (q - s.tag.mirrored.toNat) = m + 1 := ⟨min 96 (q - s.tag.mirrored.toNat) - 1, by omega⟩
    rw [hm, List.range_succ, List.map_append, List.map_singleton, List.getLast?_concat, Option.getD_some, BitVec.toNat_ofNat]
    omega

theorem mem_staleSlots_lt {s : State} (h : ∀ e ∈ s.tag.inSlots, e.1 < 96) : ∀ x ∈ staleSlots s, x.1 < 96 :=
  fun x hx => h x (List.mem_filter.mp hx).1

/-- A MIRROR composition writes slots, then the header (R469, R471). -/
theorem composeMirror_writes {s : State} (hSlots : ∀ e ∈ s.tag.inSlots, e.1 < 96) (hBad : s.recorder.bad = []) :
    ∃ u, SlotsWritten s u ∧ u.tag.mirrored.toNat = max s.recorder.seq.toNat s.tag.mirrored.toNat ∧
      composeMirror s = composeTile u 3 0 (mirrorHeader u) := by
  obtain ⟨hStale, hKept⟩ := slotsWritten_rewrite hBad (staleSlots s) (mem_staleSlots_lt hSlots)
  unfold composeMirror
  generalize (staleSlots s).foldl (fun s x => noteRecord (writeMirrorSlot s x.1 (recBytes s x.2)) x.2) s = t at hStale hKept ⊢
  obtain ⟨_, hRecorder, _⟩ := id hStale
  obtain ⟨hNew, hLast⟩ := slotsWritten_mirrorAll (s := t) (by rw [hRecorder, hBad]) (newSeqs t)
  refine ⟨_, hStale.trans hNew, ?_, rfl⟩
  rw [hLast, mirrored_newSeqs, hRecorder, hKept]

theorem composeHealth_eq (s : State) (p : Nat) : composeHealth s p =
    { composeTile s 2 0 (healthBytes s p) with
      tag := { (composeTile s 2 0 (healthBytes s p)).tag with fault := s.tag.fault && s.pmu.harmless } } := by
  have hFault : (composeTile s 2 0 (healthBytes s p)).tag.fault = s.tag.fault := rfl
  have hHarmless : (composeTile s 2 0 (healthBytes s p)).pmu.harmless = s.pmu.harmless := rfl
  unfold composeHealth
  dsimp only
  rw [hHarmless]
  cases s.pmu.harmless
  · simp
  · simp [← hFault]

section Gen

variable (s : State)

theorem writeGen_mirror : writeGen s 1 = composeMirror s := rfl

theorem writeGen_health : writeGen s 2 = composeHealth s s.pmu.state.toNat := rfl

theorem writeGen_ident : writeGen s 4 = composeTile s 0 0 (identBytes s) := rfl

theorem writeGen_pwreset : writeGen s 8 = { s with tag := { s.tag with total := 0 } } := rfl

end Gen

/-- Settles O53: a flip shows the shadow, TCMD acts on an own tile, and each composition writes its own tiles. -/
theorem tilesAreCommittedAndFlipped : Obligations.TilesAreCommittedAndFlipped := by
  refine ⟨fun s t hPending => ?_, fun s w v => ⟨fun hMay hGo => ?_, fun hMay => ?_, fun hMay => ?_⟩⟩
  · have hSame := (flipTile_onlyNoted hPending).eq_noteFields
    have hTag : (flipTile s t.toNat).tag = (setTile s t.toNat (flipped (tileOf s t.toNat))).tag := (congrArg State.tag hSame :)
    have hSelf := (tileOf_of_tag hTag t.toNat).trans (tileOf_setTile_self s t.toNat (flipped (tileOf s t.toNat)))
    exact ⟨_, rfl, (congrArg Tile.comm hSelf :), (congrArg Tile.version hSelf :), (congrArg Tile.pending hSelf :),
      fun j hj => (tileOf_of_tag hTag j).trans (tileOf_setTile_ne s _ hj), (congrArg State.mem hSame :),
      flipTile_recorder_off hPending⟩
  · have hWrite : guardedWrite s w blkTAG 0xE0 {} (fun s => writeTcmd s v) = writeTcmd s v := guardedWrite_of_mayWrite {} _ hMay
    exact ⟨fun hOp hWired hFree => next_congr (hWrite.trans (writeTcmd_commit hGo hOp hWired hFree)),
      fun hOp hWired hFree => next_congr (hWrite.trans (writeTcmd_load hGo hOp hWired hFree)),
      fun hOp hNot => ⟨next_congr (hWrite.trans (writeTcmd_notOwn hGo hOp hNot)),
        next_congr (hWrite.trans (writeTcmd_notOwn hGo hOp hNot))⟩,
      fun hOp => next_congr (hWrite.trans (writeTcmd_fieldread hGo hOp))⟩
  · have hWrite : guardedWrite s w blkTAG 0xE8 {} (fun s => writeGen s v) = writeGen s v := guardedWrite_of_mayWrite {} _ hMay
    refine ⟨?_, ?_, ?_, ?_⟩
    · rintro rfl hSlots hBad
      obtain ⟨u, ⟨hTiles, _, hMem⟩, hMirrored, hComposed⟩ := composeMirror_writes hSlots hBad
      refine ⟨_, next_congr (hWrite.trans ((writeGen_mirror s).trans hComposed)), ?_⟩
      have hHeader := tileOf_composeTile_self u 3 0 (mirrorHeader u)
      have hThree : tileOf s 3 = tileOf u 3 := Decidable.byContradiction fun h => absurd (hTiles 3 h).1 (by decide)
      refine ⟨congrArg Tile.pending hHeader, ?_, fun k hNe => ?_, hMirrored, hMem⟩
      · rw [hThree]
        exact (congrArg Tile.comm hHeader :)
      · by_cases hk : k = 3
        · omega
        · obtain ⟨hFrom, hTo⟩ := hTiles k fun h => hNe (h.trans (tileOf_composeTile_ne u 3 _ _ hk).symm)
          omega
    · rintro rfl
      refine ⟨_, next_congr (hWrite.trans ((writeGen_health s).trans (composeHealth_eq s _))), ?_⟩
      have hTile := tileOf_composeTile_self s 2 0 (healthBytes s s.pmu.state.toNat)
      exact ⟨congrArg Tile.pending hTile, congrArg Tile.shadow hTile, (congrArg Tile.comm hTile :),
        fun k hk => tileOf_composeTile_ne s 2 _ _ hk, rfl, rfl⟩
    · rintro rfl
      refine ⟨_, next_congr (hWrite.trans (writeGen_ident s)), ?_⟩
      have hTile := tileOf_composeTile_self s 0 0 (identBytes s)
      exact ⟨congrArg Tile.pending hTile, congrArg Tile.shadow hTile, (congrArg Tile.comm hTile :),
        fun k hk => tileOf_composeTile_ne s 0 _ _ hk, rfl⟩
    · rintro rfl
      exact next_congr (hWrite.trans (writeGen_pwreset s))
  · exact next_congr (guardedWrite_of_mayWrite {} _ hMay)

end Sys2Proof.Machine
end

section
/-! Rest states and Deep Hold (R486-R496). -/

namespace Sys2Proof.Machine

/-! ### Rest (R486, R487) -/

theorem enterRest_eq {p : Pmu} {n : BitVec 3} (h : p.state ≠ n) : enterRest p n = { p with
    state := n, doze := p.doze + (if n = 1 then 1 else 0), nap := p.nap + (if n = 2 then 1 else 0)
    hold := p.hold + (if n = 3 then 1 else 0) } := by
  have hCount : ∀ (c : Prop) [Decidable c] (x : W16), (if c then x + 1 else x) = x + (if c then 1 else 0) := by
    intro c _ x
    split
    · rfl
    · exact (BitVec.add_zero x).symm
  unfold enterRest
  rw [if_neg h]
  simp only [hCount]

theorem execPowerState_busy {s : State} (hLive : live s = true) (h : busyNow s = true) :
    execPowerState s = .next { s with pmu := { s.pmu with state := 0 } } := by
  unfold execPowerState
  rw [hLive, h]
  rfl

theorem execPowerState_idle {s : State} (hLive : live s = true) (h : busyNow s = false) :
    execPowerState s = .next { s with pmu := enterRest s.pmu s.pmu.rest } := by
  unfold execPowerState
  rw [hLive, h]
  rfl

/-! ### Deep Hold entry (R490, R491) -/

/-- What lasts into Deep Hold: the queue of commands, the fuses, the tag's password and failures, and PMU. -/
def intoSleep (s : State) : List Instr × Fus × W32 × Byte × Pmu := (s.pending, s.fus, s.tag.pwd, s.tag.total, s.pmu)

section IntoSleep

variable (s : State)

theorem intoSleep_onlyNoted {t : State} (h : OnlyNoted s t) : intoSleep t = intoSleep s := by
  rw [h.eq_noteFields]
  rfl

theorem intoSleep_noteRecord (q : W32) : intoSleep (noteRecord s q) = intoSleep s := intoSleep_onlyNoted s (noteRecord_onlyNoted s q)

theorem intoSleep_composeTile (t i : Nat) (d : List Byte) : intoSleep (composeTile s t i d) = intoSleep s := rfl

theorem intoSleep_mirrorOne (q : W32) : intoSleep (mirrorOne s q) = intoSleep s :=
  intoSleep_noteRecord (writeMirrorSlot s (if s.tag.count = 0 then 0 else (s.tag.newest + 1) % 96) (recBytes s q)) q

theorem intoSleep_composeMirror : intoSleep (composeMirror s) = intoSleep s := by
  unfold composeMirror
  dsimp only
  rw [intoSleep_composeTile]
  refine (foldl_kept intoSleep _ intoSleep_mirrorOne _ _).trans ?_
  refine foldl_kept intoSleep _ (fun u x => ?_) _ s
  exact intoSleep_noteRecord (writeMirrorSlot u x.1 (recBytes u x.2)) x.2

theorem intoSleep_composeHealth (p : Nat) : intoSleep (composeHealth s p) = intoSleep s := by
  rw [composeHealth_eq]
  rfl

theorem intoSleep_flipTile (t : Nat) : intoSleep (flipTile s t) = intoSleep s := by
  by_cases h : (tileOf s t).pending = true
  · exact (intoSleep_onlyNoted _ (flipTile_onlyNoted h)).trans rfl
  · unfold flipTile
    dsimp only
    rw [if_neg h]
    split <;> rfl

theorem intoSleep_flipAll : intoSleep (flipAll s) = intoSleep s := foldl_kept intoSleep flipTile intoSleep_flipTile _ s

theorem intoSleep_of_outsideFlash {t : State} (h : outsideFlash t = outsideFlash s) : intoSleep t = intoSleep s :=
  (congrArg intoSleep h :)

/-- The part before its power goes: the entry recorded, the standing mirror composed and shown, the channels stopped. -/
def readyForSleep : State :=
  (List.range 8).foldl stopChannel
    (if bit (regGet s blkTAG 0x80) 0 then flipAll (composeHealth (composeMirror (occur s blkPMU 0x010 s.now.frame
      (put32 (wakeEnables s).toNat 3 0))) 4)
    else occur s blkPMU 0x010 s.now.frame (put32 (wakeEnables s).toNat 3 0))

theorem outsideFlash_stopAll (l : List Nat) : outsideFlash (l.foldl stopChannel s) = outsideFlash s :=
  foldl_kept outsideFlash stopChannel outsideFlash_stopChannel l s

theorem intoSleep_readyForSleep : intoSleep (readyForSleep s) = intoSleep s := by
  have hNoted := intoSleep_onlyNoted s (occurAt_onlyNoted s s.now.frame s.now.slot blkPMU 0x010 s.now.frame (put32 (wakeEnables s).toNat 3 0))
  refine (intoSleep_of_outsideFlash _ (outsideFlash_stopAll _ _)).trans ?_
  split
  · rw [intoSleep_flipAll, intoSleep_composeHealth, intoSleep_composeMirror]
    exact hNoted
  · exact hNoted

theorem tag_of_outsideFlash {t : State} (h : outsideFlash t = outsideFlash s) : t.tag = s.tag := (congrArg State.tag h :)

/-- Without the standing mirror the tag is as it was. -/
theorem readyForSleep_tag (h : bit (regGet s blkTAG 0x80) 0 = false) : (readyForSleep s).tag = s.tag := by
  unfold readyForSleep
  rw [if_neg (by simp [h])]
  refine (tag_of_outsideFlash _ (outsideFlash_stopAll _ _)).trans ?_
  rw [occur_eq]
  rfl

/-- Deep Hold is a core that lost its power, its wake enables latched and the entry counted. -/
theorem deepEnter_eq : ∃ (wa wb : BitVec 4) (p : Pins), deepEnter s = { coreLost (readyForSleep s) with
    phase := .deepHold, pins := { p with pwron := false }
    pmu := { (coreLost (readyForSleep s)).pmu with
      seglatch := wakeEnables s, dhcount := (readyForSleep s).pmu.dhcount + 1, wakeA := wa, wakeB := wb } } := by
  have hReg : ∀ b o, regGet (occur s blkPMU 0x010 s.now.frame (put32 (wakeEnables s).toNat 3 0)) b o = regGet s b o :=
    regGet_occur s _ _ _ _
  have hReady : readyForSleep s = (List.range 8).foldl stopChannel
      (if bit (regGet (occur s blkPMU 0x010 s.now.frame (put32 (wakeEnables s).toNat 3 0)) blkTAG 0x80) 0 then
        flipAll (composeHealth (composeMirror (occur s blkPMU 0x010 s.now.frame (put32 (wakeEnables s).toNat 3 0))) 4)
      else occur s blkPMU 0x010 s.now.frame (put32 (wakeEnables s).toNat 3 0)) := by
    rw [hReg]
    rfl
  unfold deepEnter
  dsimp only
  rw [← hReady]
  generalize readyForSleep s = u
  exact ⟨_, _, { (coreLost u).pins with resetN := u.pins.resetN, pgood := u.pins.pgood }, rfl⟩

end IntoSleep

theorem deepReady_iff (s : State) : deepReady s = true ↔ atBoundary s = true ∧ s.pmu.armed = true ∧ s.conns = [] ∧
    busyNow s = false ∧ s.pmu.packetPrev = false ∧ vbatLow s = false ∧ noCommit s = true := by
  unfold deepReady deepClear
  simp only [Bool.and_eq_true, List.isEmpty_iff, Bool.not_eq_true', and_assoc]

theorem wakeFrom_enabled {s : State} {src : BitVec 4} (hDeep : s.phase = .deepHold)
    (h : src &&& BitVec.ofNat 4 (s.pmu.seglatch.toNat + 8 * b2n s.pmu.tagwake) ≠ 0) : wakeFrom s src = { s with
      phase := .porHeld
      pmu := { s.pmu with lastsrc := src &&& BitVec.ofNat 4 (s.pmu.seglatch.toNat + 8 * b2n s.pmu.tagwake) }
      clk := { s.clk with dhExit := true }, pins := { s.pins with pwron := true } } := if_pos ⟨hDeep, h⟩

/-- Settles O54: a part that is not busy rests; Deep Hold keeps what `coreLost` keeps of a part made ready. -/
theorem restAndDeepHold : Obligations.RestAndDeepHold := by
  refine ⟨fun s hLive => ⟨execPowerState_busy hLive, fun hIdle => ?_⟩, fun s w v hMay => ⟨fun hDisarm hArm => ?_, fun hDisarm => ?_⟩,
    fun s => ⟨fun hBoundary hArmed hConns hIdle hPacket hVbat hCommit => ?_, fun hNot => ?_⟩, fun s src hDeep =>
      ⟨fun hOn => next_congr (wakeFrom_enabled hDeep hOn), fun hOff => next_congr (if_neg fun h => h.2 hOff)⟩⟩
  · refine ⟨_, execPowerState_idle hLive hIdle, rfl, ?_, fun hSame => ?_, fun hDiffers => enterRest_eq hDiffers⟩
    · by_cases h : s.pmu.state = s.pmu.rest
      · exact (congrArg Pmu.state (if_pos h)).trans h
      · exact (congrArg Pmu.state (enterRest_eq h)).trans rfl
    · rw [enterRest, if_pos hSame]
  · refine next_congr ((guardedWrite_of_mayWrite {} _ hMay).trans ?_)
    unfold writeDeep
    simp only [hDisarm, hArm, Bool.false_eq_true, if_false, if_true]
  · exact next_congr ((guardedWrite_of_mayWrite {} _ hMay).trans (if_pos hDisarm))
  · have hReady := (deepReady_iff s).mpr ⟨hBoundary, hArmed, hConns, hIdle, hPacket, hVbat, hCommit⟩
    obtain ⟨wa, wb, p, hEntered⟩ := deepEnter_eq s
    have hKept := intoSleep_readyForSleep s
    have hTag := readyForSleep_tag s
    generalize readyForSleep s = u at hEntered hKept hTag
    simp only [intoSleep, Prod.mk.injEq] at hKept
    obtain ⟨hPending, hFus, hPwd, hTotal, hPmu⟩ := hKept
    refine ⟨_, (next_congr (if_pos hReady)).trans (next_congr hEntered), rfl, rfl, hFus, hPwd, hTotal,
      (congrArg Pmu.tagwake hPmu :), rfl, (congrArg (fun p : Pmu => p.dhcount + 1) hPmu :), rfl, rfl, rfl, rfl, rfl, rfl, hPending,
      fun hNoMirror => (congrArg TagSt.tiles (hTag hNoMirror) :)⟩
  · have hUnready : ¬ deepReady s = true := by
      rw [deepReady_iff]
      rintro ⟨hBoundary, hArmed, hConns, hIdle, hPacket, hVbat, hCommit⟩
      simp [hBoundary, hArmed, hConns, hIdle, hPacket, hVbat, hCommit] at hNot
    exact next_congr (if_neg hUnready)

end Sys2Proof.Machine
end

section
/-! Temperature and supplies (R498-R502). -/

namespace Sys2Proof.Machine

/-! ### The hottest reading (R498) -/

theorem foldl_hottest (l : List (W16 × Nat)) (b : Nat × W16) :
    let r := l.foldl (fun (b : Nat × W16) (x : W16 × Nat) => if b.2.toInt < x.1.toInt then (x.2, x.1) else b) b
    (r.2 = b.2 ∨ r.2 ∈ l.map (·.1)) ∧ b.2.toInt ≤ r.2.toInt ∧ ∀ x ∈ l.map (·.1), x.toInt ≤ r.2.toInt := by
  induction l generalizing b with
  | nil => simp
  | cons x t ih =>
    obtain ⟨hFrom, hAbove, hAll⟩ := ih (if b.2.toInt < x.1.toInt then (x.2, x.1) else b)
    simp only [List.foldl_cons, List.map_cons, List.mem_cons, forall_eq_or_imp]
    generalize t.foldl _ _ = r at hFrom hAbove hAll ⊢
    by_cases hHotter : b.2.toInt < x.1.toInt
    · rw [if_pos hHotter] at hFrom hAbove
      dsimp only at hAbove
      exact ⟨.inr hFrom, by omega, hAbove, hAll⟩
    · rw [if_neg hHotter] at hFrom hAbove
      exact ⟨hFrom.imp_right .inr, hAbove, by omega, hAll⟩

theorem hottest_spec {ts : List W16} (h : ts ≠ []) : (hottest ts).2 ∈ ts ∧ ∀ x ∈ ts, x.toInt ≤ (hottest ts).2.toInt := by
  have hMap : ts.zipIdx.map (·.1) = ts := List.zipIdx_map_fst 0 ts
  have hFold := foldl_hottest ts.zipIdx (0, ts.headD 0)
  rw [hMap] at hFold
  obtain ⟨hFrom, _, hAll⟩ := hFold
  refine ⟨hFrom.elim (fun hHead => ?_) id, hAll⟩
  obtain ⟨x, t, rfl⟩ := List.exists_cons_of_ne_nil h
  rw [hottest, hHead]
  exact List.mem_cons_self

theorem nineReadings {l : List W16} (h : l.length = 9) (d : W16) : (List.range 9).map (fun i => l.getD i d) = l := by
  refine List.ext_getElem (by simp [h]) fun i hi hi' => ?_
  rw [List.getElem_map, List.getElem_range, List.getElem_eq_getD d]

/-! ### Conditions (R499) -/

theorem crossing_same {inForce want : Bool} (seen : Bool) (h : want = inForce) : crossing inForce seen want = (inForce, false) := if_pos h

theorem crossing_first {inForce seen want : Bool} (h : want ≠ inForce) (hSeen : seen = false) :
    crossing inForce seen want = (inForce, true) := by
  rw [crossing, if_neg h, hSeen]
  rfl

theorem crossing_second {inForce seen want : Bool} (h : want ≠ inForce) (hSeen : seen = true) :
    crossing inForce seen want = (want, false) := by
  rw [crossing, if_neg h, hSeen]
  rfl

/-! ### What the harmless state leaves of monitors and pins -/

theorem harmlessEnter_mon (s : State) (cause sub : Nat) (r : W32) : (harmlessEnter s cause sub r).mon = s.mon := by
  unfold harmlessEnter
  dsimp only
  rw [occur_eq]
  rfl

theorem harmlessEnter_alerts (s : State) (cause sub : Nat) (r : W32) :
    (harmlessEnter s cause sub r).pins.alert0 = true ∧ (harmlessEnter s cause sub r).pins.alert1 = true := by
  unfold harmlessEnter
  dsimp only
  rw [occur_eq]
  exact ⟨rfl, rfl⟩

section Stopped

variable (s : State) (l : List Nat) (w : Bool)

theorem stopFlash_mon : (stopFlash s l w).mon = s.mon := (congrArg State.mon (outsideFinish_stopFlash s l w) :)

theorem stopFlash_pins : (stopFlash s l w).pins = s.pins := (congrArg State.pins (outsideFinish_stopFlash s l w) :)

theorem stopFlash_causes : (stopFlash s l w).pmu.causes = s.pmu.causes :=
  (congrArg (fun u : State => u.pmu.causes) (outsideFinish_stopFlash s l w) :)

end Stopped

/-! ### A conversion (R498-R500) -/

theorem updateBands_eq (l : List Nat) (s : State) : ∃ b, l.foldl updateBand s = { s with bands := b } := by
  induction l generalizing s with
  | nil => exact ⟨s.bands, rfl⟩
  | cons c t ih => exact ih (updateBand s c)

/-- MON after the readings are taken. -/
def monRead (m : Mon) (ts : List W16) : Mon :=
  { m with
    temps := ts, now := (hottest ts).2, measured := true
    hi := if m.measured && decide ((hottest ts).2.toInt ≤ m.hi.toInt) then m.hi else (hottest ts).2
    lo := if m.measured && decide (m.lo.toInt ≤ (hottest ts).2.toInt) then m.lo else (hottest ts).2 }

theorem takeReadings_eq (s : State) (ts : List W16) : ∃ b, takeReadings s ts = { s with mon := monRead s.mon ts, bands := b } :=
  updateBands_eq (List.range 8) { s with mon := monRead s.mon ts }

/-- The three conditions that a reading asks for: warning, throttling, failure. -/
def warnCrossing (s : State) (t : Int) : Bool × Bool :=
  crossing s.mon.warn s.mon.prevWarn (decide ((if s.mon.warn then warnAt s - 20 else warnAt s) ≤ t))
def throttleCrossing (s : State) (t : Int) : Bool × Bool :=
  crossing s.mon.throttle s.mon.prevThr (decide ((if s.mon.throttle then throttleAt s - 20 else throttleAt s) ≤ t))
def hotCrossing (s : State) (t : Int) : Bool × Bool := crossing s.mon.hot s.mon.prevFail (decide (560 ≤ t))

/-- MON after the conditions are judged. -/
def monJudged (s : State) (t : Int) : Mon :=
  { s.mon with
    warn := (warnCrossing s t).1, throttle := (throttleCrossing s t).1, hot := (hotCrossing s t).1
    prevWarn := (warnCrossing s t).2, prevThr := (throttleCrossing s t).2, prevFail := (hotCrossing s t).2 }

/-- What the records, rates, guarantees and pins of a conversion leave alone. -/
def besideTemps (s : State) : Mon × Pmu × List Host.Cell × Tbl W64 × Tbl Cq × Time := (s.mon, s.pmu, s.mem, s.regs, s.cqs, s.now)

section Beside

variable (s : State)

theorem besideTemps_tempRecord (on : Bool) (c : BitVec 12) (h : Nat × W16) : besideTemps (tempRecord s on c h) = besideTemps s := by
  unfold tempRecord
  split
  · rw [occur_eq]; rfl
  · rfl

theorem besideTemps_orderRates (on : Bool) : besideTemps (orderRates s on) = besideTemps s := rfl

theorem besideTemps_refreshAlerts : besideTemps (refreshAlerts s) = besideTemps s := rfl

theorem besideTemps_dropGuarantees : besideTemps (dropGuarantees s) = besideTemps s := rfl

end Beside

/-- The conditions in force, before the failure's own effects. -/
def conditionsJudged (s : State) : State :=
  let h := hottest s.mon.temps
  let w := warnCrossing s h.2.toInt
  let r := throttleCrossing s h.2.toInt
  let u := { s with
    mon := monJudged s h.2.toInt
    pmu := { s.pmu with coolFrames := if throttleAt s - 20 ≤ h.2.toInt then 0 else s.pmu.coolFrames } }
  let u := tempRecord u (w.1 && !s.mon.warn) 0xA01 h
  let u := tempRecord u (r.1 && !s.mon.throttle) 0xA02 h
  let u := tempRecord u ((s.mon.warn || s.mon.throttle) && !w.1 && !r.1) 0xA03 h
  let u := if r.1 = s.mon.throttle then u else orderRates u r.1
  refreshAlerts (if r.1 then dropGuarantees u else u)

theorem besideTemps_conditionsJudged (s : State) : besideTemps (conditionsJudged s) =
    (monJudged s (hottest s.mon.temps).2.toInt,
      { s.pmu with coolFrames := if throttleAt s - 20 ≤ (hottest s.mon.temps).2.toInt then 0 else s.pmu.coolFrames },
      s.mem, s.regs, s.cqs, s.now) := by
  have hRates : ∀ (p : Prop) [Decidable p] (u : State) (on : Bool), besideTemps (if p then u else orderRates u on) = besideTemps u := by
    intro p _ u on
    split
    · rfl
    · exact besideTemps_orderRates u on
  have hDrop : ∀ (p : Prop) [Decidable p] (u : State), besideTemps (if p then dropGuarantees u else u) = besideTemps u := by
    intro p _ u
    split
    · exact besideTemps_dropGuarantees u
    · rfl
  unfold conditionsJudged
  dsimp only
  rw [besideTemps_refreshAlerts, hDrop, hRates, besideTemps_tempRecord, besideTemps_tempRecord, besideTemps_tempRecord]
  rfl

theorem judgeTemps_eq (s : State) : judgeTemps s =
    if (hotCrossing s (hottest s.mon.temps).2.toInt).1 && !s.mon.hot then
      stopFlash (harmlessEnter (tempRecord (conditionsJudged s) true 0xA04 (hottest s.mon.temps)) 2 (hottest s.mon.temps).1
        (put32 (hottest s.mon.temps).2.toNat 16 0)) (List.range 8) false
    else conditionsJudged s := rfl

theorem hotCrossing_cool {s : State} {t : Int} (h : t < 560) : ((hotCrossing s t).1 && !s.mon.hot) = false := by
  have hWant : decide (560 ≤ t) = false := decide_eq_false (by omega)
  unfold hotCrossing crossing
  rw [hWant]
  cases s.mon.hot <;> cases s.mon.prevFail <;> rfl

theorem judgeTemps_mon (s : State) : (judgeTemps s).mon = monJudged s (hottest s.mon.temps).2.toInt := by
  have hBeside := besideTemps_conditionsJudged s
  have hRecord := besideTemps_tempRecord (conditionsJudged s) true 0xA04 (hottest s.mon.temps)
  simp only [besideTemps, Prod.mk.injEq] at hBeside hRecord
  obtain ⟨hMon, _⟩ := hBeside
  obtain ⟨hSame, _⟩ := hRecord
  rw [judgeTemps_eq]
  split
  · rw [stopFlash_mon, harmlessEnter_mon, hSame, hMon]
  · exact hMon

theorem judgeTemps_cool {s : State} (h : (hottest s.mon.temps).2.toInt < 560) : judgeTemps s = conditionsJudged s := by
  rw [judgeTemps_eq, hotCrossing_cool h]
  rfl

theorem judgeTemps_hot {s : State} (h : 560 ≤ (hottest s.mon.temps).2.toInt) (hNew : s.mon.hot = false) (hSeen : s.mon.prevFail = true) :
    (judgeTemps s).pmu.harmless = true ∧ (judgeTemps s).pmu.causes.getLsbD 2 = true := by
  have hCrossed : hotCrossing s (hottest s.mon.temps).2.toInt = (true, false) := by
    unfold hotCrossing
    rw [hNew, hSeen, decide_eq_true h]
    rfl
  rw [judgeTemps_eq, hCrossed, hNew, if_pos (c := ((true, false).1 && !false) = true) rfl]
  refine ⟨?_, ?_⟩
  · exact (stopFlash_harmless _ _ _).trans (harmlessEnter_harmless _ _ _ _)
  · exact (congrArg (BitVec.getLsbD · 2) (stopFlash_causes _ _ _)).trans (harmlessEnter_cause _ (by decide) _ _)

/-- What a condition becomes, by what is in force and what the last conversion asked. -/
theorem crossing_spec (inForce seen want : Bool) :
    (want = inForce → (crossing inForce seen want).1 = inForce ∧ (crossing inForce seen want).2 = false) ∧
    (want ≠ inForce → seen = false → (crossing inForce seen want).1 = inForce ∧ (crossing inForce seen want).2 = true) ∧
    (want ≠ inForce → seen = true → (crossing inForce seen want).1 = want ∧ (crossing inForce seen want).2 = false) := by
  refine ⟨fun h => ?_, fun h hSeen => ?_, fun h hSeen => ?_⟩
  · rw [crossing_same seen h]; exact ⟨rfl, rfl⟩
  · rw [crossing_first h hSeen]; exact ⟨rfl, rfl⟩
  · rw [crossing_second h hSeen]; exact ⟨rfl, rfl⟩

theorem temperatureConditionsChange (s : State) (l : List W16) (hOn : coreOn s = true) (hNine : l.length = 9) :
    ∃ t h, exec (.temperatureConversion l) s = .next t ∧ h ∈ l ∧ (∀ x ∈ l, x.toInt ≤ h.toInt) ∧
      t.mon.temps = l ∧ t.mon.now = h ∧
      (let want := decide ((if s.mon.warn then warnAt s - 20 else warnAt s) ≤ h.toInt)
       (want = s.mon.warn → t.mon.warn = s.mon.warn ∧ t.mon.prevWarn = false) ∧
       (want ≠ s.mon.warn → s.mon.prevWarn = false → t.mon.warn = s.mon.warn ∧ t.mon.prevWarn = true) ∧
       (want ≠ s.mon.warn → s.mon.prevWarn = true → t.mon.warn = want ∧ t.mon.prevWarn = false)) ∧
      (let want := decide ((if s.mon.throttle then throttleAt s - 20 else throttleAt s) ≤ h.toInt)
       (want = s.mon.throttle → t.mon.throttle = s.mon.throttle ∧ t.mon.prevThr = false) ∧
       (want ≠ s.mon.throttle → s.mon.prevThr = false → t.mon.throttle = s.mon.throttle ∧ t.mon.prevThr = true) ∧
       (want ≠ s.mon.throttle → s.mon.prevThr = true → t.mon.throttle = want ∧ t.mon.prevThr = false)) ∧
      (560 ≤ h.toInt → s.mon.hot = false → s.mon.prevFail = true → t.mon.hot = true ∧ t.pmu.harmless = true ∧
        t.pmu.causes.getLsbD 2 = true) ∧
      (h.toInt < 560 → t.pmu.harmless = s.pmu.harmless ∧ t.pmu.causes = s.pmu.causes) ∧
      (h.toInt < 560 → t.mem = s.mem ∧ t.regs = s.regs ∧ t.cqs = s.cqs ∧ t.now = s.now) := by
  have hSome : l ≠ [] := by
    rintro rfl
    exact absurd hNine (by decide)
  obtain ⟨hMem, hMax⟩ := hottest_spec hSome
  obtain ⟨b, hTaken⟩ := takeReadings_eq s l
  have hExec : exec (.temperatureConversion l) s = .next (judgeTemps { s with mon := monRead s.mon l, bands := b }) := by
    refine (next_congr (if_pos hOn)).trans ?_
    rw [nineReadings hNine, hTaken]
  have hMon := judgeTemps_mon { s with mon := monRead s.mon l, bands := b }
  refine ⟨_, (hottest l).2, hExec, hMem, hMax, (congrArg Mon.temps hMon :), (congrArg Mon.now hMon :), ?_, ?_,
    fun hHot hNew hSeen => ?_, fun hCool => ?_, fun hCool => ?_⟩
  · rw [hMon]
    exact crossing_spec s.mon.warn s.mon.prevWarn _
  · rw [hMon]
    exact crossing_spec s.mon.throttle s.mon.prevThr _
  · refine ⟨?_, judgeTemps_hot (s := { s with mon := monRead s.mon l, bands := b }) hHot hNew hSeen⟩
    rw [hMon]
    change (crossing s.mon.hot s.mon.prevFail (decide (560 ≤ (hottest l).2.toInt))).1 = true
    rw [hNew, hSeen, decide_eq_true hHot]
    rfl
  · have hBeside := besideTemps_conditionsJudged { s with mon := monRead s.mon l, bands := b }
    rw [judgeTemps_cool (s := { s with mon := monRead s.mon l, bands := b }) hCool]
    simp only [besideTemps, Prod.mk.injEq] at hBeside
    obtain ⟨_, hPmu, _⟩ := hBeside
    rw [hPmu]
    exact ⟨rfl, rfl⟩
  · have hBeside := besideTemps_conditionsJudged { s with mon := monRead s.mon l, bands := b }
    rw [judgeTemps_cool (s := { s with mon := monRead s.mon l, bands := b }) hCool]
    simp only [besideTemps, Prod.mk.injEq] at hBeside
    obtain ⟨_, _, hMem, hRegs, hCqs, hNow⟩ := hBeside
    exact ⟨hMem, hRegs, hCqs, hNow⟩

/-! ### Supplies (R501, R502) -/

/-- MON after a dip of 2 µs or more below the warn threshold. -/
def monDipped (s : State) (r mv : Nat) (v : Volt) : Mon :=
  { s.mon with
    volts := tset s.mon.volts r v, supwarn := true, dipAt := cycles s
    brown := if mv < (railLimits s r).2 then s.mon.brown ||| (1#9 <<< r) else s.mon.brown }

/-- A rail's account after such a dip. -/
def voltDipped (s : State) (r mv : Nat) : Volt :=
  { tgetD s.mon.volts r {} with
    mv := BitVec.ofNat 16 mv
    lowest := if (tget s.mon.volts r).isSome && decide ((tgetD s.mon.volts r {}).lowest.toNat ≤ mv) &&
        decide ((tgetD s.mon.volts r {}).lowest ≠ 0) then (tgetD s.mon.volts r {}).lowest else BitVec.ofNat 16 mv }

/-- The state with the dip in MON, before its records. -/
def dipTaken (s : State) (r mv : Nat) : State :=
  { s with
    mon := monDipped s r mv (voltDipped s r mv)
    pmu := { s.pmu with brownFrames := if (railLimits s r).2 = 0 then s.pmu.brownFrames else 0 } }

/-- BROWNOUT, where the dip reaches it, and SUPPLY_WARN are recorded. -/
def dipRecorded (s : State) (r mv us : Nat) : State :=
  let p1 := put32 mv 16 0 ||| put32 (sat us 16) 16 16
  occur (if mv < (railLimits s r).2 then occur (dipTaken s r mv) blkMON 0xA05 (put32 r 4 0) p1 else dipTaken s r mv) blkMON 0xA06
    (put32 r 4 0) p1

/-- The harmless state that a brown-out enters, its completions waiting when the rail is the core's. -/
def brownEntered (s : State) (r mv us : Nat) : State :=
  let u := harmlessEnter (refreshAlerts (dipRecorded s r mv us)) 3 r (put32 mv 16 0)
  if decide (r = 0) || decide (r = 6) then { u with pmu := { u.pmu with brownWait := true } } else u

theorem countDip_eq {s : State} {r mv : Nat} (us : Nat) (h : mv < (railLimits s r).1) : countDip s r mv us =
    if mv < (railLimits s r).2 then stopFlash (brownEntered s r mv us)
        (if decide (r = 0) || decide (r = 6) then List.range 8 else [2 * (r - 2), 2 * (r - 2) + 1]) (!(decide (r = 0) || decide (r = 6)))
    else refreshAlerts (dipRecorded s r mv us) := by
  unfold countDip
  dsimp only
  rw [if_neg (Nat.not_le.mpr h)]
  simp only [decide_eq_true_eq]
  rfl

section Dipped

variable (s : State) (r mv us : Nat)

theorem dipRecorded_onlyNoted : OnlyNoted (dipTaken s r mv) (dipRecorded s r mv us) := by
  unfold dipRecorded
  dsimp only
  split
  · exact (occurAt_onlyNoted _ _ _ _ _ _ _).trans (occurAt_onlyNoted _ _ _ _ _ _ _)
  · exact occurAt_onlyNoted _ _ _ _ _ _ _

theorem dipRecorded_mon : (dipRecorded s r mv us).mon = monDipped s r mv (voltDipped s r mv) :=
  (congrArg State.mon (dipRecorded_onlyNoted s r mv us).eq_noteFields :)

theorem brownEntered_mon : (brownEntered s r mv us).mon = monDipped s r mv (voltDipped s r mv) := by
  have hMon := (harmlessEnter_mon (refreshAlerts (dipRecorded s r mv us)) 3 r (put32 mv 16 0)).trans (dipRecorded_mon s r mv us)
  unfold brownEntered
  dsimp only
  split <;> exact hMon

theorem brownEntered_harmless : (brownEntered s r mv us).pmu.harmless = true ∧ (brownEntered s r mv us).pmu.causes.getLsbD 3 = true ∧
    (brownEntered s r mv us).pins.alert0 = true ∧ (brownEntered s r mv us).pins.alert1 = true := by
  have hHarmless := harmlessEnter_harmless (refreshAlerts (dipRecorded s r mv us)) 3 r (put32 mv 16 0)
  have hCause := harmlessEnter_cause (refreshAlerts (dipRecorded s r mv us)) (cause := 3) (by decide) r (put32 mv 16 0)
  have hAlerts := harmlessEnter_alerts (refreshAlerts (dipRecorded s r mv us)) 3 r (put32 mv 16 0)
  unfold brownEntered
  dsimp only
  split <;> exact ⟨hHarmless, hCause, hAlerts⟩

theorem countDip_mon (h : mv < (railLimits s r).1) : (countDip s r mv us).mon = monDipped s r mv (voltDipped s r mv) := by
  rw [countDip_eq us h]
  split
  · rw [stopFlash_mon, brownEntered_mon]
  · exact dipRecorded_mon s r mv us

theorem countDip_alert (h : mv < (railLimits s r).1) : (countDip s r mv us).pins.alert1 = true := by
  have hSupwarn := congrArg Mon.supwarn (dipRecorded_mon s r mv us)
  obtain ⟨_, _, _, hAlert⟩ := brownEntered_harmless s r mv us
  rw [countDip_eq us h]
  split
  · rw [stopFlash_pins, hAlert]
  · unfold refreshAlerts
    dsimp only
    rw [hSupwarn]
    exact Bool.or_true _

theorem countDip_brown {r : Nat} (hRail : r ≤ 8) (h : mv < (railLimits s r).1) (hBrown : mv < (railLimits s r).2) :
    (countDip s r mv us).pmu.harmless = true ∧ (countDip s r mv us).pmu.causes.getLsbD 3 = true ∧
      (countDip s r mv us).pins.alert0 = true ∧ (countDip s r mv us).mon.brown.getLsbD r = true := by
  have hMon := congrArg Mon.brown (countDip_mon s r mv us h)
  obtain ⟨hHarmless, hCause, hAlert, _⟩ := brownEntered_harmless s r mv us
  rw [hMon, countDip_eq us h, if_pos hBrown, stopFlash_harmless, stopFlash_causes, stopFlash_pins]
  refine ⟨hHarmless, hCause, hAlert, ?_⟩
  unfold monDipped
  dsimp only
  rw [if_pos hBrown, BitVec.getLsbD_or, BitVec.getLsbD_shiftLeft, Nat.sub_self, decide_eq_true (by omega : r < 9),
    decide_eq_false (Nat.lt_irrefl r)]
  simp

theorem countDip_warned (h : mv < (railLimits s r).1) (hWarn : (railLimits s r).2 ≤ mv) :
    countDip s r mv us = refreshAlerts (dipRecorded s r mv us) := (countDip_eq us h).trans (if_neg (Nat.not_lt.mpr hWarn))

end Dipped

section Dip

variable {s : State} {r : BitVec 4} {mv : W16} (hOn : coreOn s = true) (hRail : r.toNat ≤ 8) (hLow : mv.toNat < (railLimits s r.toNat).1)

include hOn hRail hLow

theorem execSupplyDip_judged (us : Nat) : execSupplyDip r mv us s = .next (if us < 2 then { s with mon := { s.mon with
      volts := tset s.mon.volts r.toNat { tgetD s.mon.volts r.toNat {} with glitch := (tgetD s.mon.volts r.toNat {}).glitch + 1 } } }
    else countDip s r.toNat mv.toNat us) := by
  have hCounts : (!(coreOn s) || decide (8 < r.toNat) || decide ((railLimits s r.toNat).1 ≤ mv.toNat)) = false := by
    rw [hOn, decide_eq_false (by omega), decide_eq_false (by omega)]
    rfl
  unfold execSupplyDip
  dsimp only
  rw [hCounts]
  rfl

theorem supplyDipsCount (us : Nat) :
    (us < 2 → ∃ t, exec (.supplyDip r mv us) s = .next t ∧ t = { s with mon := { s.mon with volts := t.mon.volts } } ∧
      tget t.mon.volts r.toNat = some { tgetD s.mon.volts r.toNat {} with glitch := (tgetD s.mon.volts r.toNat {}).glitch + 1 } ∧
      ∀ k, k ≠ r.toNat → tget t.mon.volts k = tget s.mon.volts k) ∧
    (2 ≤ us → ∃ t, exec (.supplyDip r mv us) s = .next t ∧ t.mon.supwarn = true ∧ (tgetD t.mon.volts r.toNat {}).mv = mv ∧
      (tgetD t.mon.volts r.toNat {}).glitch = (tgetD s.mon.volts r.toNat {}).glitch ∧ t.pins.alert1 = true ∧
      (∀ k, k ≠ r.toNat → tget t.mon.volts k = tget s.mon.volts k) ∧
      (mv.toNat < (railLimits s r.toNat).2 → t.pmu.harmless = true ∧ t.pmu.causes.getLsbD 3 = true ∧ t.pins.alert0 = true ∧
        t.mon.brown.getLsbD r.toNat = true) ∧
      ((railLimits s r.toNat).2 ≤ mv.toNat → t.pmu.harmless = s.pmu.harmless ∧ t.pmu.causes = s.pmu.causes ∧
        t.mon.brown = s.mon.brown ∧ t.mem = s.mem ∧ t.regs = s.regs ∧ t.entries = s.entries)) := by
  have hJudged := execSupplyDip_judged hOn hRail hLow us
  refine ⟨fun hShort => ⟨_, hJudged.trans (next_congr (if_pos hShort)), rfl, tget_tset_self _ _ _, fun k hk => tget_tset_ne _ _ hk⟩,
    fun hLong => ⟨_, hJudged.trans (next_congr (if_neg (by omega))), ?_⟩⟩
  have hMon := countDip_mon s r.toNat mv.toNat us hLow
  have hVolts : (countDip s r.toNat mv.toNat us).mon.volts = tset s.mon.volts r.toNat (voltDipped s r.toNat mv.toNat) :=
    (congrArg Mon.volts hMon :)
  have hRead : tgetD (countDip s r.toNat mv.toNat us).mon.volts r.toNat {} = voltDipped s r.toNat mv.toNat := by
    rw [hVolts, tgetD_tset_self]
  refine ⟨(congrArg Mon.supwarn hMon :), ?_, (congrArg Volt.glitch hRead :), countDip_alert s r.toNat mv.toNat us hLow, fun k hk => ?_,
    fun hBrown => countDip_brown s mv.toNat us hRail hLow hBrown, fun hWarn => ?_⟩
  · exact (congrArg Volt.mv hRead).trans (BitVec.ofNat_toNat _ mv |>.trans (BitVec.setWidth_eq mv))
  · rw [hVolts, tget_tset_ne _ _ hk]
  · have hSame := (dipRecorded_onlyNoted s r.toNat mv.toNat us).eq_noteFields
    rw [countDip_warned s r.toNat mv.toNat us hLow hWarn]
    generalize dipRecorded s r.toNat mv.toNat us = u at hSame ⊢
    have hBrown : (dipTaken s r.toNat mv.toNat).mon.brown = s.mon.brown := if_neg (Nat.not_lt.mpr hWarn)
    exact ⟨(congrArg (fun u : State => u.pmu.harmless) hSame :), (congrArg (fun u : State => u.pmu.causes) hSame :),
      (congrArg (fun u : State => u.mon.brown) hSame :).trans hBrown, (congrArg State.mem hSame :), (congrArg State.regs hSame :),
      (congrArg State.entries hSame :)⟩

end Dip

/-- Settles O55: a condition is `crossing` of the hottest reading; a dip that counts is MON's account of it, then its records. -/
theorem temperatureAndSupplies : Obligations.TemperatureAndSupplies := by
  refine ⟨temperatureConditionsChange, fun s r mv us hOn hRail hLow => supplyDipsCount hOn hRail hLow us,
    fun s => ⟨rfl, rfl, rfl, rfl⟩, fun s hOn => ⟨fun hEarly => ?_, fun hDue => ⟨_, next_congr (if_pos ?_), rfl, ?_, rfl⟩⟩⟩
  · exact next_congr (if_neg (by simp [hEarly]))
  · rw [hOn, hDue]
    rfl
  · exact Bool.or_false _

end Sys2Proof.Machine
end

section
/-! The ends of the finish window, of a brown-out and of the harmless state (R505, R506, R510). -/

namespace Sys2Proof.Machine

/-! ### Stopped channels -/

/-- The channel is down and harmless (R279). -/
def ChannelStopped (s : State) (c : Nat) : Prop := (fchOf s c).up = false ∧ (fchOf s c).harmless = true

theorem fchOf_of_fchs {s t : State} (h : t.fchs = s.fchs) (c : Nat) : fchOf t c = fchOf s c := by
  unfold fchOf
  rw [h]

/-- A channel that is stopped, before its sequencer is. -/
def fchStopped (f : Fch) : Fch :=
  { f with
    up := false, harmless := true, xfer := none, nextRate := none
    luns := f.luns.map fun e => (e.1, { e.2 with
      cur := none, under := none, pollNow := false, seq := none, urgentRun := 0
      state := if e.2.state = LunState.absent then .absent else .idle }) }

theorem stopChannel_fchs (s : State) (c : Nat) : (stopChannel s c).fchs = tset s.fchs c (fchStopped (fchOf s c)) := by
  unfold stopChannel
  dsimp only
  repeat' split
  all_goals rfl

theorem fchOf_stopChannel (s : State) (c d : Nat) :
    fchOf (stopChannel s c) d = if d = c then fchStopped (fchOf s c) else fchOf s d := by
  unfold fchOf
  rw [stopChannel_fchs, tgetD_tset]
  rfl

theorem channelStopped_stopChannel {s : State} {c d : Nat} (h : d = c ∨ ChannelStopped s d) : ChannelStopped (stopChannel s c) d := by
  unfold ChannelStopped
  rw [fchOf_stopChannel]
  split
  · exact ⟨rfl, rfl⟩
  next hNe => exact h.resolve_left hNe

theorem channelStopped_stopAll (l : List Nat) {s : State} {d : Nat} (h : d ∈ l ∨ ChannelStopped s d) :
    ChannelStopped (l.foldl stopChannel s) d := by
  induction l generalizing s with
  | nil => exact h.resolve_left List.not_mem_nil
  | cons c t ih =>
    refine ih ?_
    rcases h with hMem | hStopped
    · rcases List.mem_cons.mp hMem with hHere | hTail
      · exact .inr (channelStopped_stopChannel (.inl hHere))
      · exact .inl hTail
    · exact .inr (channelStopped_stopChannel (.inr hStopped))

theorem channelStopped_closeFinish (s : State) {c : Nat} (hc : c < 8) : ChannelStopped (closeFinish s) c := by
  have hStopped : ChannelStopped ((List.range 8).foldl stopChannel (abortAll s)) c :=
    channelStopped_stopAll _ (.inl (List.mem_range.mpr hc))
  unfold closeFinish
  dsimp only
  generalize (List.range 8).foldl stopChannel (abortAll s) = u at hStopped ⊢
  split
  · exact hStopped
  · have hFchs : ∀ v : State, (completeAll v).fchs = v.fchs := fun v => (congrArg State.fchs (outsideQueues_completeAll v) :)
    unfold ChannelStopped
    rw [fchOf_of_fchs (hFchs _)]
    exact hStopped

theorem harmless_of_outsideFinish {s t : State} (h : outsideFinish t = outsideFinish s) : t.pmu.harmless = s.pmu.harmless :=
  (congrArg (fun u : State => u.pmu.harmless) h :)

theorem closeFinish_finish (s : State) : (closeFinish s).pmu.finish = false := by
  unfold closeFinish
  dsimp only
  split
  · rfl
  · rw [outsideFlash_harmless (outsideFlash_completeAll _)]

theorem execFinishWindowEnd_over {s : State} (hLive : live s = true) (hFinish : s.pmu.finish = true)
    (hOver : elapsed s s.pmu.finishAt 800000 = true ∨ ∀ c, c < 8 → busyLuns s c = 0) :
    execFinishWindowEnd s = .next (closeFinish s) := by
  have hDue : (elapsed s s.pmu.finishAt 800000 || (List.range 8).all fun c => decide (busyLuns s c = 0)) = true := by
    rw [Bool.or_eq_true, List.all_eq_true]
    exact hOver.imp_right fun h c hc => decide_eq_true (h c (List.mem_range.mp hc))
  refine next_congr (if_pos ?_)
  rw [hLive, hFinish, hDue]
  rfl

/-! ### A reset target judged anew (R295) -/

/-- The state without entries and what an occurrence touches. -/
def aroundEntries (s : State) : State := { s with entries := [], recorder := {}, hdrs := [], conns := [], evDrop := 0 }

section Around

variable (s : State)

theorem aroundEntries_occur (b : Nat) (c : BitVec 12) (p0 p1 : W32) : aroundEntries (occur s b c p0 p1) = aroundEntries s := by
  rw [occur_eq]; rfl

theorem aroundEntries_setEntry (e : Entry) : aroundEntries (setEntry s e) = aroundEntries s := rfl

theorem aroundEntries_endEntry (r : EntryRef) (st : Byte) (x : W32) : aroundEntries (endEntry s r st x) = aroundEntries s := by
  unfold endEntry
  split
  · rfl
  · split <;> rfl

theorem aroundEntries_conclude (r : EntryRef) : aroundEntries (conclude s r) = aroundEntries s := by
  unfold conclude
  split
  · rfl
  · split
    · rfl
    · split
      · rfl
      · rw [aroundEntries_endEntry]
        split
        · exact aroundEntries_occur s _ _ _ _
        · rfl

theorem aroundEntries_abortEntry (e : Entry) (st : Byte) : aroundEntries (abortEntry s e st) = aroundEntries s := by
  unfold abortEntry
  split
  · rfl
  · split
    · dsimp only
      split
      · exact aroundEntries_endEntry _ _ _ _
      · exact aroundEntries_conclude _ _
    · exact aroundEntries_endEntry _ _ _ _

/-- A channel without one of its targets. -/
def targetLost (f : Fch) (t : Nat) : Fch :=
  { f with
    found := f.found &&& ~~~(1#8 <<< t), mismatch := f.mismatch ||| (1#8 <<< t)
    luns := f.luns.filter fun x => decide (x.1 / 4 ≠ t) }

theorem aroundEntries_loseTarget (c t item : Nat) :
    aroundEntries (loseTarget s c t item) = aroundEntries (setFch s c (targetLost (fchOf s c) t)) := by
  unfold loseTarget
  dsimp only
  refine (foldl_kept aroundEntries _ (fun u e => foldl_kept aroundEntries _ (fun v l => ?_) _ u) _ _).trans ?_
  · split
    · split
      · rfl
      · split
        · exact aroundEntries_conclude _ _
        · exact aroundEntries_abortEntry _ _ _
    · rfl
  · unfold recordMismatch
    rw [occur_eq]
    rfl

end Around

/-! ### A channel started again (R510) -/

/-- What the end of the harmless state does not touch of the part. -/
def throughExit (s : State) : Pmu × Pins × List Host.Cell × Tbl W64 × Bool := (s.pmu, s.pins, s.mem, s.regs, s.mon.throttle)

/-- What decides whether a channel starts again, and whether it has. -/
def standingOf (f : Fch) : Bool × Bool × Byte × Bool × Bool := (f.up, f.harmless, f.found, f.ended, f.vccqBad)

theorem throughExit_of_around {s t : State} (h : aroundEntries t = aroundEntries s) : throughExit t = throughExit s :=
  (congrArg throughExit h :)

theorem fchs_of_around {s t : State} (h : aroundEntries t = aroundEntries s) : t.fchs = s.fchs := (congrArg State.fchs h :)

/-- `t` differs from `s` on channel `c` alone, and there neither in the end of discovery nor in the supply. -/
structure ChannelOnly (c : Nat) (s t : State) : Prop where
  through : throughExit t = throughExit s
  others : ∀ d, d ≠ c → fchOf t d = fchOf s d
  ended : (fchOf t c).ended = (fchOf s c).ended
  supply : (fchOf t c).vccqBad = (fchOf s c).vccqBad

section ChannelOnly

variable {c : Nat}

theorem ChannelOnly.refl (s : State) : ChannelOnly c s s := ⟨rfl, fun _ _ => rfl, rfl, rfl⟩

theorem ChannelOnly.trans {s t u : State} (h : ChannelOnly c s t) (k : ChannelOnly c t u) : ChannelOnly c s u :=
  ⟨k.through.trans h.through, fun d hd => (k.others d hd).trans (h.others d hd), k.ended.trans h.ended, k.supply.trans h.supply⟩

theorem ChannelOnly.of_foldl {α : Type} {g : State → α → State} (hg : ∀ u a, ChannelOnly c u (g u a)) (l : List α) (s : State) :
    ChannelOnly c s (l.foldl g s) := by
  induction l generalizing s with
  | nil => exact .refl s
  | cons a t ih => exact (hg s a).trans (ih (g s a))

theorem channelOnly_of_fchs {s t : State} (hThrough : throughExit t = throughExit s) (hFchs : t.fchs = s.fchs) : ChannelOnly c s t :=
  ⟨hThrough, fun d _ => fchOf_of_fchs hFchs d, congrArg Fch.ended (fchOf_of_fchs hFchs c), congrArg Fch.vccqBad (fchOf_of_fchs hFchs c)⟩

theorem channelOnly_emit (s : State) (o : Output) : ChannelOnly c s (emit s o) := channelOnly_of_fchs rfl rfl

theorem channelOnly_setFch (s : State) {f : Fch} (hEnded : f.ended = (fchOf s c).ended) (hSupply : f.vccqBad = (fchOf s c).vccqBad) :
    ChannelOnly c s (setFch s c f) :=
  ⟨rfl, fun _ hd => fchOf_setFch_ne s f hd, by rw [fchOf_setFch_self, hEnded], by rw [fchOf_setFch_self, hSupply]⟩

/-- One feature of a channel's profile written, until the profile's list ends. -/
def featureWritten (c t : Nat) (p : List Byte) (acc : State × Bool) (i : Nat) : State × Bool :=
  if acc.2 || decide (byteAt p (8 + 5 * i) = 0) then (acc.1, true)
  else (emit acc.1 (.flashFeature (BitVec.ofNat 8 (32 * c + 4 * t)) false (byteAt p (8 + 5 * i))
    (BitVec.ofNat 32 (fieldLE p (9 + 5 * i) 4))), false)

theorem channelOnly_featuresWritten (t : Nat) (p : List Byte) (l : List Nat) (acc : State × Bool) :
    ChannelOnly c acc.1 (l.foldl (featureWritten c t p) acc).1 := by
  induction l generalizing acc with
  | nil => exact .refl acc.1
  | cons i rest ih =>
    have hStep : ChannelOnly c acc.1 (featureWritten c t p acc i).1 := by
      unfold featureWritten
      split
      · exact .refl acc.1
      · exact channelOnly_emit _ _
    exact hStep.trans (ih _)

theorem channelOnly_writeFeatures (s : State) (t : Nat) (jesd : Bool) : ChannelOnly c s (writeFeatures s c t jesd) := by
  unfold writeFeatures
  split
  next p _ => exact channelOnly_featuresWritten t p (List.range 4) (s, false)
  · exact channelOnly_emit _ _

theorem channelOnly_loseTarget (s : State) (t item : Nat) : ChannelOnly c s (loseTarget s c t item) := by
  have hAround := aroundEntries_loseTarget s c t item
  exact (channelOnly_setFch s (f := targetLost (fchOf s c) t) rfl rfl).trans (channelOnly_of_fchs (throughExit_of_around hAround) (fchs_of_around hAround))

theorem channelOnly_judgeReset (s : State) (t : Nat) : ChannelOnly c s (judgeReset s c t) := by
  unfold judgeReset
  dsimp only
  split
  · exact channelOnly_of_fchs rfl rfl
  · exact (channelOnly_of_fchs rfl rfl : ChannelOnly c s { s with freeCtr := s.freeCtr + 1 }).trans (channelOnly_loseTarget _ t _)

end ChannelOnly

/-! A rate ordered changes no channel's standing. -/

theorem tget_map {α : Type} {g : Nat × α → Nat × α} (hg : ∀ e, (g e).1 = e.1) (t : Tbl α) (k : Nat) :
    tget (t.map g) k = (tget t k).map fun a => (g (k, a)).2 := by
  induction t with
  | nil => rfl
  | cons e t ih =>
    obtain ⟨j, a⟩ := e
    have hKey : g (j, a) = (j, (g (j, a)).2) := Prod.ext (hg (j, a)) rfl
    rw [List.map_cons, hKey]
    unfold tget
    by_cases h : j = k
    · subst h
      rw [if_pos rfl, if_pos rfl]
      rfl
    · rw [if_neg h, if_neg h, ih]

theorem standingOf_orderRates (s : State) (on : Bool) (d : Nat) : standingOf (fchOf (orderRates s on) d) = standingOf (fchOf s d) := by
  unfold fchOf orderRates tgetD
  rw [tget_map]
  · cases tget s.fchs d with
    | none => rfl
    | some f =>
      dsimp only [Option.map_some, Option.getD_some]
      split <;> rfl
  · intro e
    dsimp only
    split <;> rfl

/-- The targets of a channel reset and judged anew, before the channel comes up. -/
def targetsReset (s : State) (c : Nat) : State :=
  let f := fchOf s c
  let ts := (List.range 8).filter fun t => f.found.getLsbD t
  let s := ts.foldl (fun s t => emit s (.flashReset (BitVec.ofNat 3 c) t none)) (emit s (.flashPins (BitVec.ofNat 3 c) 0xFF .low))
  let s := ts.foldl (fun s t => writeFeatures s c t f.jesd) s
  ts.foldl (fun s t => judgeReset s c t) s

theorem channelOnly_targetsReset (s : State) (c : Nat) : ChannelOnly c s (targetsReset s c) :=
  (((channelOnly_emit s _).trans (.of_foldl (fun u _ => channelOnly_emit u _) _ _)).trans
    (.of_foldl (fun u t => channelOnly_writeFeatures u t _) _ _)).trans (.of_foldl (fun u t => channelOnly_judgeReset u t) _ _)

/-- The channel up again, before a throttle orders its rate. -/
def channelRaised (s : State) (c : Nat) : State :=
  setFch (emit s (.flashPins (BitVec.ofNat 3 c) 0xFF .high)) c
    { fchOf s c with up := true, harmless := false, luns := (fchOf s c).luns.map fun e => (e.1, { e.2 with step := 0 }) }

theorem restartChannel_eq (s : State) (c : Nat) : restartChannel s c =
    if (fchOf s c).ended && decide ((fchOf s c).found ≠ 0) && !(fchOf s c).vccqBad then
      if (fchOf (targetsReset s c) c).found = 0 then targetsReset s c
      else if (channelRaised (targetsReset s c) c).mon.throttle then orderRates (channelRaised (targetsReset s c) c) true
      else channelRaised (targetsReset s c) c
    else s := rfl

theorem channelOnly_channelRaised (s : State) (c : Nat) : ChannelOnly c s (channelRaised s c) :=
  (channelOnly_emit s _).trans (channelOnly_setFch _ rfl rfl)

/-- With throttling off a channel's start touches no other channel, and none without a found target. -/
theorem channelOnly_restartChannel {s : State} (c : Nat) (h : s.mon.throttle = false) : ChannelOnly c s (restartChannel s c) := by
  have hReset := channelOnly_targetsReset s c
  have hUp := hReset.trans (channelOnly_channelRaised (targetsReset s c) c)
  have hThrottle : (channelRaised (targetsReset s c) c).mon.throttle = false := by
    have hThrough := hUp.through
    simp only [throughExit, Prod.mk.injEq] at hThrough
    obtain ⟨_, _, _, _, hThrottle⟩ := hThrough
    exact hThrottle.trans h
  rw [restartChannel_eq, hThrottle]
  split
  · split
    · exact hReset
    · exact hUp
  · exact .refl s

theorem restartChannel_notFound {s : State} {c : Nat} (h : (fchOf s c).found = 0) : restartChannel s c = s := by
  rw [restartChannel_eq, h]
  exact if_neg (by simp)

theorem throughExit_restartChannel (s : State) (c : Nat) : throughExit (restartChannel s c) = throughExit s := by
  have hReset := (channelOnly_targetsReset s c).through
  have hUp := ((channelOnly_targetsReset s c).trans (channelOnly_channelRaised (targetsReset s c) c)).through
  rw [restartChannel_eq]
  split
  · split
    · exact hReset
    · split
      · exact hUp
      · exact hUp
  · rfl

/-- A channel's start leaves the standing of the others. -/
theorem standingOf_restartChannel_ne (s : State) {c d : Nat} (h : d ≠ c) :
    standingOf (fchOf (restartChannel s c) d) = standingOf (fchOf s d) := by
  have hReset := congrArg standingOf ((channelOnly_targetsReset s c).others d h)
  have hUp := congrArg standingOf (((channelOnly_targetsReset s c).trans (channelOnly_channelRaised (targetsReset s c) c)).others d h)
  rw [restartChannel_eq]
  split
  · split
    · exact hReset
    · split
      · exact (standingOf_orderRates _ true d).trans hUp
      · exact hUp
  · rfl

/-- The channel may start again (R510). -/
def Startable (f : Fch) : Prop := f.ended = true ∧ f.vccqBad = false

/-- The channel is up again, unless no target is left. -/
def Started (f : Fch) : Prop := f.found ≠ 0 → f.up = true ∧ f.harmless = false

theorem startable_of_standing {f g : Fch} (h : standingOf f = standingOf g) (hg : Startable g) : Startable f := by
  simp only [standingOf, Prod.mk.injEq] at h
  obtain ⟨_, _, _, hEnded, hSupply⟩ := h
  exact ⟨hEnded.trans hg.1, hSupply.trans hg.2⟩

theorem started_of_standing {f g : Fch} (h : standingOf f = standingOf g) (hg : Started g) : Started f := by
  simp only [standingOf, Prod.mk.injEq] at h
  obtain ⟨hUp, hHarmless, hFound, _⟩ := h
  unfold Started
  rw [hUp, hHarmless, hFound]
  exact hg

theorem restartChannel_starts {s : State} {c : Nat} (h : Startable (fchOf s c)) :
    Startable (fchOf (restartChannel s c) c) ∧ Started (fchOf (restartChannel s c) c) := by
  obtain ⟨hEnded, hSupply⟩ := h
  have hReset := channelOnly_targetsReset s c
  have hStill : Startable (fchOf (targetsReset s c) c) := ⟨hReset.ended.trans hEnded, hReset.supply.trans hSupply⟩
  have hUp : Startable (fchOf (channelRaised (targetsReset s c) c) c) ∧ Started (fchOf (channelRaised (targetsReset s c) c) c) := by
    unfold channelRaised
    rw [fchOf_setFch_self]
    exact ⟨hStill, fun _ => ⟨rfl, rfl⟩⟩
  by_cases hFound : (fchOf s c).found = 0
  · rw [restartChannel_notFound hFound]
    exact ⟨⟨hEnded, hSupply⟩, fun hNot => absurd hFound hNot⟩
  · have hDue : ((fchOf s c).ended && decide ((fchOf s c).found ≠ 0) && !(fchOf s c).vccqBad) = true := by
      rw [hEnded, hSupply, decide_eq_true hFound]
      rfl
    rw [restartChannel_eq, if_pos hDue]
    split
    next hNone => exact ⟨hStill, fun hNot => absurd hNone hNot⟩
    · split
      · have hSame := standingOf_orderRates (channelRaised (targetsReset s c) c) true c
        exact ⟨startable_of_standing hSame hUp.1, started_of_standing hSame hUp.2⟩
      · exact hUp

theorem restartChannels_starts (l : List Nat) {s : State} {c : Nat} (h : Startable (fchOf s c)) (hc : c ∈ l ∨ Started (fchOf s c)) :
    Started (fchOf (l.foldl restartChannel s) c) := by
  induction l generalizing s with
  | nil => exact hc.resolve_left List.not_mem_nil
  | cons d t ih =>
    by_cases hd : c = d
    · subst hd
      obtain ⟨hStartable, hStarted⟩ := restartChannel_starts h
      exact ih hStartable (.inr hStarted)
    · have hSame := standingOf_restartChannel_ne s hd
      refine ih (startable_of_standing hSame h) (hc.imp (fun hMem => ?_) (started_of_standing hSame))
      exact (List.mem_cons.mp hMem).resolve_left hd

theorem restartChannels_notFound (l : List Nat) {s : State} {c : Nat} (hThrottle : s.mon.throttle = false)
    (h : (fchOf s c).found = 0) : fchOf (l.foldl restartChannel s) c = fchOf s c := by
  induction l generalizing s with
  | nil => rfl
  | cons d t ih =>
    have hOnly := channelOnly_restartChannel d hThrottle
    have hSame : fchOf (restartChannel s d) c = fchOf s c := by
      by_cases hd : c = d
      · rw [← hd, restartChannel_notFound h]
      · exact hOnly.others c hd
    have hThrottle' : (restartChannel s d).mon.throttle = false := by
      have hThrough := hOnly.through
      simp only [throughExit, Prod.mk.injEq] at hThrough
      obtain ⟨_, _, _, _, hSameThrottle⟩ := hThrough
      exact hSameThrottle.trans hThrottle
    exact (ih hThrottle' (by rw [hSame, h])).trans hSame

/-! ### The exit (R510) -/

/-- Steps 1 and 2 of R510: the alerts, the record, the segments. -/
def exitRecorded (s : State) : State :=
  let s := refreshAlerts { s with pmu := { s.pmu with harmless := false } }
  let s := occur s blkPMU 0x013 (put32 s.pmu.lastCause.toNat 4 0) (BitVec.ofNat 32 s.pmu.frames)
  { s with segA := rerangeAll s.segA, segB := rerangeAll s.segB, pins := { s.pins with cko := true } }

theorem exitRecorded_through (s : State) : throughExit (exitRecorded s) = ({ s.pmu with harmless := false },
    { (refreshAlerts { s with pmu := { s.pmu with harmless := false } }).pins with cko := true }, s.mem, s.regs, s.mon.throttle) ∧
    (exitRecorded s).fchs = s.fchs := by
  unfold exitRecorded
  dsimp only
  rw [occur_eq]
  exact ⟨rfl, rfl⟩

theorem setSegAB_through (s : State) (g : Seg) (v : SegAB) :
    throughExit (setSegAB s g v) = throughExit s ∧ (setSegAB s g v).fchs = s.fchs := by
  cases g <;> exact ⟨rfl, rfl⟩

theorem sendBeacon_through (s : State) (g : Seg) : throughExit (sendBeacon s g) = throughExit s ∧ (sendBeacon s g).fchs = s.fchs := by
  have hAB : ∀ g : Seg, throughExit (setSegAB (emitBeacon (holdSlot s g 0 (airOf (charsOn g (beaconPacket g (beaconAB s g))))) g
      (beaconAB (holdSlot s g 0 (airOf (charsOn g (beaconPacket g (beaconAB s g))))) g)) g
      (giveAdvice (segAB (holdSlot s g 0 (airOf (charsOn g (beaconPacket g (beaconAB s g))))) g))) = throughExit s ∧
      (setSegAB (emitBeacon (holdSlot s g 0 (airOf (charsOn g (beaconPacket g (beaconAB s g))))) g
      (beaconAB (holdSlot s g 0 (airOf (charsOn g (beaconPacket g (beaconAB s g))))) g)) g
      (giveAdvice (segAB (holdSlot s g 0 (airOf (charsOn g (beaconPacket g (beaconAB s g))))) g))).fchs = s.fchs := by
    intro g
    cases g <;> exact ⟨rfl, rfl⟩
  unfold sendBeacon
  cases g with
  | a =>
    dsimp only
    split
    · exact hAB .a
    · exact ⟨rfl, rfl⟩
  | b =>
    dsimp only
    split
    · exact hAB .b
    · exact ⟨rfl, rfl⟩
  | c =>
    dsimp only
    split <;> split <;> exact ⟨rfl, rfl⟩

theorem execHarmlessExit_due {s : State} (hBoundary : atBoundary s = true) (hHarmless : s.pmu.harmless = true)
    (hCauses : s.pmu.causes = 0) (hFinish : s.pmu.finish = false) : execHarmlessExit s =
      .next ((List.range 8).foldl restartChannel (sendBeacon (sendBeacon (sendBeacon (exitRecorded s) .a) .b) .c)) := by
  unfold execHarmlessExit
  rw [hBoundary, hHarmless, hCauses, hFinish]
  rfl

theorem execBrownoutRecovery_due {s : State} (hOn : coreOn s = true) (hWait : s.pmu.brownWait = true)
    (hDue : elapsed s s.mon.dipAt 40000 = true) : execBrownoutRecovery s =
      .next (if s.pmu.finish then { s with pmu := { s.pmu with brownWait := false } }
        else completeAll { s with pmu := { s.pmu with brownWait := false } }) := by
  unfold execBrownoutRecovery
  rw [hOn, hWait, hDue]
  rfl

/-- Settles O56: the window and the brown-out end by their conditions; the exit starts every channel that keeps a target. -/
theorem theHarmlessStateEnds : Obligations.TheHarmlessStateEnds := by
  refine fun s => ⟨fun hLive hFinish hOver => ?_, fun hOn hWait => ⟨fun hEarly => ?_, fun hDue => ⟨fun hFinish => ?_, fun hFinish => ?_⟩⟩,
    fun hBoundary hHarmless hCauses hFinish => ?_, fun hNot => ?_⟩
  · exact ⟨_, execFinishWindowEnd_over hLive hFinish hOver, closeFinish_finish s,
      harmless_of_outsideFinish (outsideFinish_closeFinish s), fun c hc => channelStopped_closeFinish s hc⟩
  · exact next_congr (if_neg (by simp [hEarly]))
  · exact (execBrownoutRecovery_due hOn hWait hDue).trans (next_congr (if_pos hFinish))
  · exact (execBrownoutRecovery_due hOn hWait hDue).trans (next_congr (if_neg (by simp [hFinish])))
  · obtain ⟨hThrough, hFchs⟩ := exitRecorded_through s
    obtain ⟨hA, hFchsA⟩ := sendBeacon_through (exitRecorded s) .a
    obtain ⟨hB, hFchsB⟩ := sendBeacon_through (sendBeacon (exitRecorded s) .a) .b
    obtain ⟨hC, hFchsC⟩ := sendBeacon_through (sendBeacon (sendBeacon (exitRecorded s) .a) .b) .c
    refine ⟨_, execHarmlessExit_due hBoundary hHarmless hCauses hFinish, ?_⟩
    have hSent := hC.trans (hB.trans (hA.trans hThrough))
    have hSame := fun c => fchOf_of_fchs (hFchsC.trans (hFchsB.trans (hFchsA.trans hFchs))) c
    generalize sendBeacon (sendBeacon (sendBeacon (exitRecorded s) .a) .b) .c = u at hSent hSame ⊢
    have hAll := (foldl_kept throughExit restartChannel throughExit_restartChannel (List.range 8) u).trans hSent
    simp only [throughExit, Prod.mk.injEq] at hAll hSent
    obtain ⟨hPmu, hPins, hMem, hRegs, _⟩ := hAll
    obtain ⟨_, _, _, _, hThrottle⟩ := hSent
    refine ⟨hPmu, (congrArg Pins.alert0 hPins :), (congrArg Pins.cko hPins :), hMem, hRegs, fun c hc hEnded hSupply hFound => ?_,
      fun hCool c hc hNone => ?_⟩
    · have hStart : Startable (fchOf u c) := by
        rw [hSame]
        exact ⟨hEnded, hSupply⟩
      exact restartChannels_starts (List.range 8) hStart (.inl (List.mem_range.mpr hc)) hFound
    · refine (restartChannels_notFound (List.range 8) (hThrottle.trans hCool) ?_).trans (hSame c)
      rw [hSame, hNone]
  · refine next_congr (if_neg ?_)
    simp only [Bool.and_eq_true, decide_eq_true_eq]
    rintro ⟨⟨hBoundary, _⟩, hCauses⟩
    exact hNot.elim (fun h => Bool.false_ne_true (h.symm.trans hBoundary)) (fun h => h hCauses)

end Sys2Proof.Machine
end

section
/-! Containers and the pair (R343, R371, R378, R379, R529-R531, R539). -/

namespace Sys2Proof.Machine

/-! ### A copy judged (R371, R530) -/

theorem emits_eq (f : Nat → Output) (l : List Nat) (s : State) : ∃ o, l.foldl (fun s i => emit s (f i)) s = { s with out := o } := by
  induction l generalizing s with
  | nil => exact ⟨s.out, rfl⟩
  | cons i t ih => exact ih (emit s (f i))

theorem bootProbe_eq (s : State) (c : Nat) : ∃ o, bootProbe s c = { s with out := o } := emits_eq _ _ _

/-- The state in which a copy is read: the boot area's channel is probed before its first copy (R528). -/
def probedFor (s : State) (src : BitVec 2) : State :=
  if src ≠ 2 ∧ s.boot.sv.tried = 0 ∧ s.boot.pv.tried = 0 then bootProbe s src.toNat else s

theorem probedFor_eq (s : State) (src : BitVec 2) : ∃ o, probedFor s src = { s with out := o } := by
  unfold probedFor
  split
  · exact bootProbe_eq s src.toNat
  · exact ⟨s.out, rfl⟩

/-- What a container hands over depends on the fuses alone. -/
theorem checkContainer_withOut (s : State) (o : List Output) (pers : Bool) (b : List Byte) :
    checkContainer { s with out := o } pers b = checkContainer s pers b := rfl

theorem checkContainer_badHeader (s : State) {pers : Bool} {b : List Byte} (h : headerOk pers b = false) :
    checkContainer s pers b = (2, none) := by
  unfold checkContainer
  rw [h]
  rfl

/-- The verdict's account of a container. -/
def verdictOf (pers : Bool) (x : Boot) : Verdict := if pers then x.pv else x.sv

/-- A verdict entered for one of the two containers. -/
def withVerdict (s : State) (pers : Bool) (v : Verdict) : State :=
  let s := if s.boot.busy then s else { s with glb := { s.glb with phase := 3 } }
  if pers then { s with boot := { s.boot with pv := v } } else { s with boot := { s.boot with sv := v } }

theorem withVerdict_spec (s : State) (pers : Bool) (v : Verdict) : verdictOf pers (withVerdict s pers v).boot = v ∧
    verdictOf (!pers) (withVerdict s pers v).boot = verdictOf (!pers) s.boot ∧ (withVerdict s pers v).recorder = s.recorder ∧
    (withVerdict s pers v).mem = s.mem ∧ (withVerdict s pers v).out = s.out := by
  have hPhase : ∃ g, (if s.boot.busy then s else { s with glb := { s.glb with phase := 3 } }) = { s with glb := g } := by
    split
    · exact ⟨s.glb, rfl⟩
    · exact ⟨_, rfl⟩
  obtain ⟨g, hPhase⟩ := hPhase
  unfold withVerdict verdictOf
  dsimp only
  rw [hPhase]
  cases pers <;> exact ⟨rfl, rfl, rfl, rfl, rfl⟩

/-- The verdict that a copy gives. -/
def copyVerdict (old : Verdict) (secondary : Bool) (code : Nat) (taken : Option Container) : Verdict :=
  { code := BitVec.ofNat 4 code, tried := old.tried + 1, sec := secondary && decide (code = 1), taken := taken }

/-- A copy read: the state, the verdict, what is handed over, and its bytes. -/
def copyRead (s : State) (pers : Bool) (src : BitVec 2) (secondary : Bool) (b : Option (List Byte)) (fs : List CopyFault) :
    State × Nat × Option Container × List Byte :=
  if src = 2 then readPush (probedFor s src) pers else readCopy (probedFor s src) pers src.toNat secondary b fs

section Turn

variable {s : State} {pers : Bool} {src : BitVec 2} {secondary : Bool} (b : Option (List Byte)) (fs : List CopyFault)

theorem execContainerCheck_notTurn (h : copyTurn (verdictOf pers s.boot) src secondary = false) :
    execContainerCheck pers src secondary b fs s = .next s := by
  have hTurn : (!copyTurn (if pers = true then s.boot.pv else s.boot.sv) src secondary) = true := congrArg not h
  refine next_congr (if_pos ?_)
  rw [hTurn, Bool.or_true]

theorem execContainerCheck_turn (hLoading : loading s = true) (hFrom : s.boot.from_ = src) (hSource : src ≠ 3)
    (h : copyTurn (verdictOf pers s.boot) src secondary = true) : execContainerCheck pers src secondary b fs s =
      .next (withVerdict (recordRejected (copyRead s pers src secondary b fs).1 (copyRead s pers src secondary b fs).2.1 (ptypeOf pers)
          src.toNat (copyRead s pers src secondary b fs).2.2.2) pers
        (copyVerdict (verdictOf pers s.boot) secondary (copyRead s pers src secondary b fs).2.1
          (copyRead s pers src secondary b fs).2.2.1)) := by
  have hJudged : (!(loading s) || decide (s.boot.from_ ≠ src) || decide (src = 3) ||
      !(copyTurn (if pers = true then s.boot.pv else s.boot.sv) src secondary)) = false := by
    have hTurn : (!copyTurn (if pers = true then s.boot.pv else s.boot.sv) src secondary) = false := congrArg not h
    rw [hTurn, hLoading, decide_eq_false (Classical.not_not.mpr hFrom), decide_eq_false hSource]
    rfl
  unfold execContainerCheck
  dsimp only
  rw [hJudged]
  rfl

end Turn

section Rejected

variable (s : State) (code ptype src : Nat) (b : List Byte)

theorem recordRejected_none : recordRejected s 0 ptype src b = s := rfl

theorem recordRejected_onlyNoted : OnlyNoted s (recordRejected s code ptype src b) := by
  unfold recordRejected
  split
  · exact .refl s
  · exact occurAt_onlyNoted s _ _ _ _ _ _

theorem recordRejected_boot_mem : (recordRejected s code ptype src b).boot = s.boot ∧ (recordRejected s code ptype src b).mem = s.mem := by
  rw [(recordRejected_onlyNoted s code ptype src b).eq_noteFields]
  exact ⟨rfl, rfl⟩

theorem recordRejected_withOut (o : List Output) :
    (recordRejected { s with out := o } code ptype src b).recorder = (recordRejected s code ptype src b).recorder := by
  unfold recordRejected
  split
  · rfl
  · change (occur (withNotesOf { s with out := o } s) _ _ _ _).recorder = _
    rw [occur_withNotesOf]
    rfl

end Rejected

theorem recordCopyFaults_onlyNoted (s : State) (src block : Nat) (fs : List CopyFault) :
    OnlyNoted s (recordCopyFaults s src block fs) := foldl_onlyNoted (fun u _ => occurAt_onlyNoted u _ _ _ _ _ _) fs s

section Read

variable (s : State) (pers : Bool) {src : BitVec 2} (secondary : Bool) (fs : List CopyFault)

theorem copyRead_noPush (b : Option (List Byte)) (h : baseKey (regGet s blkBOOT (if pers then 0x90 else 0x88)) = 0) :
    copyRead s pers 2 secondary b fs = (s, 0, none, []) := by
  have hProbed : probedFor s 2 = s := if_neg fun h => h.1 rfl
  unfold copyRead
  rw [if_pos rfl, hProbed]
  exact if_pos h

theorem copyRead_absent (h : src ≠ 2) : ∃ o, copyRead s pers src secondary none fs = ({ s with out := o }, 0, none, []) := by
  obtain ⟨o, hProbed⟩ := probedFor_eq s src
  exact ⟨o, by rw [copyRead, if_neg h, hProbed]; rfl⟩

theorem copyRead_faulty (x : List Byte) (h : src ≠ 2) (hFaults : fs ≠ []) : ∃ o u, OnlyNoted { s with out := o } u ∧
    copyRead s pers src secondary (some x) fs = (u, 2, none, x) := by
  obtain ⟨o, hProbed⟩ := probedFor_eq s src
  refine ⟨o, _, recordCopyFaults_onlyNoted { s with out := o } src.toNat (b2n secondary + 2 * b2n pers) fs, ?_⟩
  rw [copyRead, if_neg h, hProbed]
  exact if_pos (by simp [hFaults])

theorem copyRead_whole (x : List Byte) (h : src ≠ 2) : ∃ o, copyRead s pers src secondary (some x) [] =
    ({ s with out := o }, (checkContainer s pers x).1, (checkContainer s pers x).2, x) := by
  obtain ⟨o, hProbed⟩ := probedFor_eq s src
  exact ⟨o, by rw [copyRead, if_neg h, hProbed]; rfl⟩

end Read

theorem containersAreJudgedInTurn (s : State) (pers : Bool) (src : BitVec 2) (secondary : Bool) (b : Option (List Byte))
    (fs : List CopyFault) (hLoading : loading s = true) (hFrom : s.boot.from_ = src) :
    (copyTurn (verdictOf pers s.boot) src secondary = false → exec (.containerCheck pers src secondary b fs) s = .next s) ∧
    (copyTurn (verdictOf pers s.boot) src secondary = true → src = 2 →
      baseKey (regGet s blkBOOT (if pers then 0x90 else 0x88)) = 0 →
      ∃ t, exec (.containerCheck pers src secondary b fs) s = .next t ∧
        verdictOf pers t.boot = { tried := (verdictOf pers s.boot).tried + 1 } ∧ verdictOf (!pers) t.boot = verdictOf (!pers) s.boot ∧
        t.recorder = s.recorder ∧ t.mem = s.mem ∧ t.out = s.out) ∧
    (copyTurn (verdictOf pers s.boot) src secondary = true → src.toNat < 2 →
      (b = none → ∃ t, exec (.containerCheck pers src secondary b fs) s = .next t ∧
        verdictOf pers t.boot = { tried := (verdictOf pers s.boot).tried + 1 } ∧ verdictOf (!pers) t.boot = verdictOf (!pers) s.boot ∧
        t.recorder = s.recorder ∧ t.mem = s.mem) ∧
      (∀ x, b = some x → fs ≠ [] → ∃ t, exec (.containerCheck pers src secondary b fs) s = .next t ∧
        verdictOf pers t.boot = { code := 2, tried := (verdictOf pers s.boot).tried + 1 } ∧
        verdictOf (!pers) t.boot = verdictOf (!pers) s.boot ∧ t.mem = s.mem) ∧
      (∀ x, b = some x → fs = [] → ∃ t, exec (.containerCheck pers src secondary b fs) s = .next t ∧
        (verdictOf pers t.boot).code = BitVec.ofNat 4 (checkContainer s pers x).1 ∧
        (verdictOf pers t.boot).taken = (checkContainer s pers x).2 ∧
        (verdictOf pers t.boot).tried = (verdictOf pers s.boot).tried + 1 ∧ verdictOf (!pers) t.boot = verdictOf (!pers) s.boot ∧
        t.mem = s.mem ∧ t.recorder = (recordRejected s (checkContainer s pers x).1 (ptypeOf pers) src.toNat x).recorder ∧
        (headerOk pers x = false → (verdictOf pers t.boot).code = 2 ∧ (verdictOf pers t.boot).taken = none))) := by
  have hSecond : ∀ n, n ≠ 1 → (secondary && decide (n = 1)) = false := fun n hn => by
    rw [decide_eq_false hn, Bool.and_false]
  refine ⟨execContainerCheck_notTurn b fs, fun hTurn hPush hKey => ?_, fun hTurn hArea => ⟨fun hAbsent => ?_, fun x hCopy hFaults => ?_,
    fun x hCopy hNone => ?_⟩⟩
  · subst hPush
    refine ⟨_, execContainerCheck_turn b fs hLoading hFrom (by decide) hTurn, ?_⟩
    rw [copyRead_noPush s pers secondary fs b hKey]
    obtain ⟨hOwn, hOther, hRecorder, hMem, hOut⟩ := withVerdict_spec s pers (copyVerdict (verdictOf pers s.boot) secondary 0 none)
    refine ⟨hOwn.trans ?_, hOther, hRecorder, hMem, hOut⟩
    rw [copyVerdict, hSecond 0 (by decide)]
    rfl
  all_goals
    have hSource : src ≠ 3 := fun h => absurd (h ▸ hArea) (by decide)
    have hFlash : src ≠ 2 := fun h => absurd (h ▸ hArea) (by decide)
    refine ⟨_, execContainerCheck_turn b fs hLoading hFrom hSource hTurn, ?_⟩
  · subst hAbsent
    obtain ⟨o, hRead⟩ := copyRead_absent s pers secondary fs hFlash
    rw [hRead]
    obtain ⟨hOwn, hOther, hRecorder, hMem, _⟩ :=
      withVerdict_spec { s with out := o } pers (copyVerdict (verdictOf pers s.boot) secondary 0 none)
    refine ⟨hOwn.trans ?_, hOther, hRecorder, hMem⟩
    rw [copyVerdict, hSecond 0 (by decide)]
    rfl
  · subst hCopy
    obtain ⟨o, u, hNoted, hRead⟩ := copyRead_faulty s pers secondary fs x hFlash hFaults
    rw [hRead]
    obtain ⟨hOwn, hOther, _, hMem, _⟩ := withVerdict_spec (recordRejected u 2 (ptypeOf pers) src.toNat x) pers
      (copyVerdict (verdictOf pers s.boot) secondary 2 none)
    obtain ⟨hBoot, hRejectedMem⟩ := recordRejected_boot_mem u 2 (ptypeOf pers) src.toNat x
    have hSame := hNoted.eq_noteFields
    refine ⟨hOwn.trans ?_, hOther.trans (congrArg (verdictOf (!pers)) (hBoot.trans (congrArg State.boot hSame :))),
      hMem.trans (hRejectedMem.trans (congrArg State.mem hSame :))⟩
    rw [copyVerdict, hSecond 2 (by decide)]
    rfl
  · subst hCopy hNone
    obtain ⟨o, hRead⟩ := copyRead_whole s pers secondary x hFlash
    rw [hRead]
    obtain ⟨hOwn, hOther, hRecorder, hMem, _⟩ := withVerdict_spec
      (recordRejected { s with out := o } (checkContainer s pers x).1 (ptypeOf pers) src.toNat x) pers
      (copyVerdict (verdictOf pers s.boot) secondary (checkContainer s pers x).1 (checkContainer s pers x).2)
    obtain ⟨hBoot, hRejectedMem⟩ := recordRejected_boot_mem { s with out := o } (checkContainer s pers x).1 (ptypeOf pers) src.toNat x
    refine ⟨congrArg Verdict.code hOwn, congrArg Verdict.taken hOwn, congrArg Verdict.tried hOwn,
      hOther.trans (congrArg (verdictOf (!pers)) hBoot), hMem.trans hRejectedMem,
      hRecorder.trans (recordRejected_withOut s _ _ _ _ o), fun hHeader => ?_⟩
    rw [hOwn, checkContainer_badHeader s hHeader]
    exact ⟨rfl, rfl⟩

/-! ### The pair (R378, R379) -/

theorem tget_keyed {α : Type} (g : Nat → α) (l : List Nat) (k : Nat) :
    tget (l.map fun n => (n, g n)) k = if k ∈ l then some (g k) else none := by
  induction l with
  | nil => rfl
  | cons n t ih =>
    rw [List.map_cons, tget, ih]
    by_cases h : n = k
    · subst h
      simp
    · simp [h, Ne.symm h]

/-- The boot's account, the sequencers and memory after an outcome. -/
theorem afterOutcome_spec (s : State) : (∃ l, (afterOutcome s).boot = { s.boot with loaded := l }) ∧
    (∀ n, n < 8 → (seqOf (afterOutcome s) n).state = 1) ∧ (afterOutcome s).mem = s.mem := by
  have hSeqs : ∀ n, n < 8 → (seqOf (loadSeqs s) n).state = 1 := by
    intro n hn
    unfold seqOf loadSeqs tgetD
    dsimp only
    rw [tget_keyed, if_pos (List.mem_range.mpr hn)]
    rfl
  have hEnded : ∃ p, endLoadCauses (openDiscovery (loadSeqs s)) = { openDiscovery (loadSeqs s) with pmu := p } := by
    unfold endLoadCauses
    split <;> exact ⟨_, rfl⟩
  obtain ⟨p, hEnded⟩ := hEnded
  unfold afterOutcome
  rw [hEnded]
  dsimp only
  split
  · exact ⟨⟨true, rfl⟩, hSeqs, rfl⟩
  · exact ⟨⟨s.boot.loaded, rfl⟩, hSeqs, rfl⟩

theorem loadLlr_eq (s : State) : ∃ r, loadLlr s = { s with regs := r } := by
  have hFold : ∀ (l : List Nat) (u : State), ∃ r, l.foldl (fun s i => match profileOf s (i / 4) with
      | some p => regSet s blkECC (0x100 + 8 * i) (BitVec.ofNat 64 (fieldLE p (tyAt (i % 4) + 0xC0) 8))
      | none => s) u = { u with regs := r } := by
    intro l
    induction l with
    | nil => exact fun u => ⟨u.regs, rfl⟩
    | cons i t ih =>
      intro u
      rw [List.foldl_cons]
      split
      · exact ih (regSet u _ _ _)
      · exact ih u
  exact hFold (List.range 32) s

/-- What the pair is, loaded. -/
def pairOf (x y : Container) : Pair :=
  { image := parseImage x.body, profiles := parseProfiles y.body, chanprof := y.body.take 8, simg := x, pers := y }

theorem loadPair_boot_mem (s : State) (x y : Container) : (loadPair s x y).boot = { s.boot with
      pair := some (pairOf x y), baseline := false, outcome := 0, source := s.boot.from_, lastHash := y.hash } ∧
    (loadPair s x y).mem = s.mem := by
  have hBeads : ∃ b d, (if s.boot.lastHash = y.hash then s else emptyAbacus s) = { s with beads := b, badBeads := d } := by
    split
    · exact ⟨s.beads, s.badBeads, rfl⟩
    · exact ⟨_, _, rfl⟩
  obtain ⟨b, d, hBeads⟩ := hBeads
  unfold loadPair
  dsimp only
  rw [hBeads]
  obtain ⟨r, hLlr⟩ := loadLlr_eq { s with
    beads := b, badBeads := d
    boot := { s.boot with pair := some (pairOf x y), baseline := false, outcome := 0, source := s.boot.from_, lastHash := y.hash } }
  rw [occur_eq]
  exact ⟨(congrArg State.boot hLlr :), (congrArg State.mem hLlr :)⟩

theorem runBaseline_boot_mem (s : State) (code : Nat) : (runBaseline s code).boot = { s.boot with
      pair := none, baseline := true, outcome := BitVec.ofNat 3 code, source := 3 } ∧ (runBaseline s code).mem = s.mem := by
  unfold runBaseline
  dsimp only
  rw [occur_eq]
  exact ⟨rfl, rfl⟩

section Outcome

variable {s : State} (hLoading : loading s = true)

include hLoading

theorem execPairOutcome_waits (h : (storesFree s && (settled s s.boot.sv && settled s s.boot.pv)) = false) :
    execPairOutcome s = .next s := by
  refine next_congr (if_pos ?_)
  rw [hLoading]
  cases hFree : storesFree s
  · rfl
  · rw [hFree, Bool.true_and] at h
    rw [h]
    rfl

variable (hFree : storesFree s = true) (hSimg : settled s s.boot.sv = true) (hPers : settled s s.boot.pv = true)

include hFree hSimg hPers

theorem execPairOutcome_settled : execPairOutcome s = .next
    (if pairCode s.boot.sv s.boot.pv ≠ 0 ∧ s.boot.from_ = 0 ∧ s.glb.bootsel = 2 then
      { s with boot := { s.boot with sv := {}, pv := {}, from_ := 1 } }
    else match pairCode s.boot.sv s.boot.pv, s.boot.sv.taken, s.boot.pv.taken with
      | 0, some x, some y => afterOutcome (loadPair s x y)
      | _, _, _ => afterOutcome (runBaseline s (pairCode s.boot.sv s.boot.pv))) := by
  unfold execPairOutcome
  rw [hLoading, hFree, hSimg, hPers]
  rfl

theorem execPairOutcome_loads {x y : Container} (hCode : pairCode s.boot.sv s.boot.pv = 0) (hX : s.boot.sv.taken = some x)
    (hY : s.boot.pv.taken = some y) : execPairOutcome s = .next (afterOutcome (loadPair s x y)) := by
  rw [execPairOutcome_settled hLoading hFree hSimg hPers, if_neg fun h => h.1 hCode, hCode, hX, hY]
  rfl

theorem execPairOutcome_baseline (hCode : pairCode s.boot.sv s.boot.pv ≠ 0) (hLast : ¬ (s.boot.from_ = 0 ∧ s.glb.bootsel = 2)) :
    execPairOutcome s = .next (afterOutcome (runBaseline s (pairCode s.boot.sv s.boot.pv))) := by
  rw [execPairOutcome_settled hLoading hFree hSimg hPers, if_neg fun h => hLast h.2]
  generalize pairCode s.boot.sv s.boot.pv = code at hCode ⊢
  cases code with
  | zero => exact absurd rfl hCode
  | succ n => rfl

end Outcome

/-- Settles O45: a copy in its turn enters its verdict; settled verdicts load the pair, try the other channel, or run the baseline. -/
theorem containersAndPairs : Obligations.ContainersAndPairs := by
  refine ⟨fun s pers src secondary b fs hLoading hFrom => ?_, fun s hLoading => ⟨execPairOutcome_waits hLoading,
    fun hFree hSimg hPers => ⟨fun hCode hFrom hSel => ?_, fun x y hCode hX hY => ?_, fun hCode hLast => ?_⟩⟩⟩
  · have hAll := containersAreJudgedInTurn s pers src secondary b fs hLoading hFrom
    cases pers <;> exact hAll
  · exact (execPairOutcome_settled hLoading hFree hSimg hPers).trans (next_congr (if_pos ⟨hCode, hFrom, hSel⟩))
  · refine ⟨_, execPairOutcome_loads hLoading hFree hSimg hPers hCode hX hY, ?_⟩
    obtain ⟨hLoaded, hLoadedMem⟩ := loadPair_boot_mem s x y
    obtain ⟨⟨l, hBoot⟩, hSeqs, hMem⟩ := afterOutcome_spec (loadPair s x y)
    rw [hBoot, hLoaded]
    exact ⟨rfl, rfl, rfl, rfl, rfl, rfl, hSeqs, hMem.trans hLoadedMem⟩
  · refine ⟨_, execPairOutcome_baseline hLoading hFree hSimg hPers hCode hLast, ?_⟩
    obtain ⟨hRun, hRunMem⟩ := runBaseline_boot_mem s (pairCode s.boot.sv s.boot.pv)
    obtain ⟨⟨l, hBoot⟩, hSeqs, hMem⟩ := afterOutcome_spec (runBaseline s (pairCode s.boot.sv s.boot.pv))
    rw [hBoot, hRun]
    exact ⟨rfl, rfl, rfl, hSeqs, hMem.trans hRunMem⟩

end Sys2Proof.Machine
end

section
/-! Commands to the movers (R387, R391, R397, R398, R408, R412, R423, R427). -/

namespace Sys2Proof.Machine

/-! ### Ownership (R387) -/

section Assign

variable {s : State} {v : W64} (hGo : bit v 15 = true)

include hGo

theorem writeAssign_busy {m : Mover} (h : tget s.movers (fld v 3 0) = some m) (hIdle : m.state ≠ .idle) (hError : m.state ≠ .error) :
    writeAssign s v = assignResult s (fld v 3 0) true := by
  unfold writeAssign
  simp only [hGo, h, hIdle, hError, decide_false, Bool.or_self, Bool.not_true, Bool.not_false, Bool.false_eq_true, if_false, if_true]

/-- A mover at rest is freed, or assigned with a fresh header. -/
theorem writeAssign_rest (h : ∀ m, tget s.movers (fld v 3 0) = some m → m.state = .idle ∨ m.state = .error) :
    writeAssign s v = assignResult (if bit v 8 then { clearHdr s (blkMOV + fld v 3 0) with movers := terase s.movers (fld v 3 0) }
      else setMov (setHdr (clearHdr s (blkMOV + fld v 3 0)) (blkMOV + fld v 3 0)
        { hdr (clearHdr s (blkMOV + fld v 3 0)) (blkMOV + fld v 3 0) with evr := 1#16 <<< fld v 7 4 }) (fld v 3 0)
          { d := BitVec.ofNat 4 (fld v 7 4) }) (fld v 3 0) false := by
  unfold writeAssign
  cases hMover : tget s.movers (fld v 3 0) with
  | none =>
    simp only [hGo, hMover, Bool.not_true, Bool.false_eq_true, if_false]
    rfl
  | some m =>
    rcases h m hMover with hState | hState <;>
      simp only [hGo, hMover, hState, Bool.not_true, Bool.false_eq_true, if_false, decide_true, Bool.or_true, Bool.true_or] <;> rfl

end Assign

theorem hdr_clearHdr_self (s : State) (b : Nat) : hdr (clearHdr s b) b = hdrReset b := by
  unfold hdr clearHdr tgetD
  rw [tget_terase_self]
  rfl

theorem hdrReset_eve (b : Nat) : (hdrReset b).eve = 0 := rfl

theorem hdr_assignResult (s : State) (n : Nat) (busy : Bool) (b : Nat) : hdr (assignResult s n busy) b = hdr s b := rfl

theorem moversAreAssigned (s : State) (n : BitVec 4) (w : Dom) (v : W64) (hMay : mayWrite s w blkCWY 0x80 = true) (hGo : bit v 15 = true)
    (hN : BitVec.ofNat 4 (fld v 3 0) = n) :
    (∀ m, tget s.movers n.toNat = some m → m.state ≠ .idle → m.state ≠ .error →
      exec (.moverAssign w v) s = .next (assignResult s n.toNat true)) ∧
    ((∀ m, tget s.movers n.toNat = some m → m.state = .idle ∨ m.state = .error) → bit v 8 = true →
      ∃ t, exec (.moverFree w v) s = .next t ∧ tget t.movers n.toNat = none ∧
        (∀ j, j ≠ n.toNat → tget t.movers j = tget s.movers j) ∧ t = { s with movers := t.movers, hdrs := t.hdrs, regs := t.regs }) ∧
    ((∀ m, tget s.movers n.toNat = some m → m.state = .idle ∨ m.state = .error) → bit v 8 = false →
      ∃ t, exec (.moverAssign w v) s = .next t ∧ tget t.movers n.toNat = some { d := BitVec.ofNat 4 (fld v 7 4) } ∧
        (hdr t (blkMOV + n.toNat)).evr = 1#16 <<< fld v 7 4 ∧ (hdr t (blkMOV + n.toNat)).eve = 0 ∧
        (∀ j, j ≠ n.toNat → tget t.movers j = tget s.movers j) ∧ t = { s with movers := t.movers, hdrs := t.hdrs, regs := t.regs }) := by
  have hLt : fld v 3 0 < 16 := fld_lt v 3 0
  have hNat : n.toNat = fld v 3 0 := by rw [← hN, BitVec.toNat_ofNat, Nat.mod_eq_of_lt hLt]
  have hWrite := guardedWrite_of_mayWrite {} (fun s => writeAssign s v) hMay
  rw [hNat]
  refine ⟨fun m hMover hIdle hError => next_congr (hWrite.trans (writeAssign_busy hGo hMover hIdle hError)),
    fun hRest hFree => ?_, fun hRest hTake => ?_⟩
  · refine ⟨_, next_congr (hWrite.trans ((writeAssign_rest hGo hRest).trans (congrArg (assignResult · (fld v 3 0) false) (if_pos hFree)))),
      tget_terase_self _ _, fun j hj => tget_terase_ne _ hj, rfl⟩
  · have hNot : ¬ bit v 8 = true := by simp [hTake]
    refine ⟨_, next_congr (hWrite.trans ((writeAssign_rest hGo hRest).trans (congrArg (assignResult · (fld v 3 0) false) (if_neg hNot)))),
      tget_tset_self _ _ _, ?_, ?_, fun j hj => tget_tset_ne _ _ hj, rfl⟩
    · rw [hdr_assignResult]
      exact congrArg Hdr.evr (hdr_setHdr_self _ _ _)
    · rw [hdr_assignResult]
      refine (congrArg Hdr.eve (hdr_setHdr_self _ _ _)).trans ?_
      exact (congrArg Hdr.eve (hdr_clearHdr_self s _)).trans (hdrReset_eve _)

/-! ### GO, STOP, CLEAR (R397, R423) -/

section Command

variable {s : State} {n : Nat} {m : Mover} (h : tget s.movers n = some m)

theorem goMover_idle (s : State) {m : Mover} (h : m.state = .idle) : goMover s m =
    { (if m.prog then m else { m with active := m.shadow }) with
      state := .run, sysstop := false, lc := 0, draining := false, setDone := false, pins := pinsOf s m } := by
  unfold goMover
  rw [h]
  cases hProg : m.prog <;> simp only [Bool.false_eq_true, if_false, if_true] <;> simp [pinsOf, hProg]

theorem goMover_running (s : State) {m : Mover} (h : m.state = .run) (hSet : m.prog = false) (hArmed : m.armed = false)
    (hGoing : (m.job.map (·.stopping)).getD false = false) : goMover s m = { m with armed := true } := by
  unfold goMover
  simp only [h, hSet, hArmed, hGoing, Bool.not_false, Bool.and_self, if_true]

include h

theorem writeMovCmd_go : writeMovCmd s n 1 = setMov s n (goMover s m) := by
  unfold writeMovCmd
  rw [h]
  rfl

theorem writeMovCmd_stop (hState : m.state ≠ .error) : writeMovCmd s n 2 = setMov s n (stopMover m) := by
  unfold writeMovCmd
  rw [h]
  exact congrArg (setMov s n) (if_neg hState)

theorem writeMovCmd_clear (hState : m.state = .error) : writeMovCmd s n 4 = setMov s n (goIdle m) := by
  unfold writeMovCmd
  rw [h]
  exact congrArg (setMov s n) (if_pos hState)

end Command

/-- A STOP with no burst read and not yet written idles the mover. -/
theorem stopMover_rest {m : Mover} (hState : m.state ≠ .error) (h : ∀ j, m.job = some j → j.kind = .move → j.read ≤ j.written) :
    stopMover m = goIdle m := by
  unfold stopMover
  cases hJob : m.job with
  | none => simp [hState]
  | some j =>
    have hNot : ¬ (j.kind = .move ∧ j.written < j.read) := fun hAll => absurd (h j hJob hAll.1) (by omega)
    simp [hState, hNot]

theorem stopMover_bursts {m : Mover} {j : BurstJob} (hState : m.state ≠ .error) (hJob : m.job = some j) (hMove : j.kind = .move)
    (hRead : j.written < j.read) : stopMover m = { m with armed := false, job := some { j with stopping := true } } := by
  unfold stopMover
  simp [hState, hJob, hMove, hRead]

theorem moverCommandsAct (s : State) (n : BitVec 4) (w : Dom) (v : W64) (m : Mover) (hMay : mayWrite s w (blkMOV + n.toNat) 0x88 = true)
    (h : tget s.movers n.toNat = some m) :
    (v = 1 → m.state = .idle → m.prog = true → exec (.moverGo w n v) s = .next (setMov s n.toNat
      { m with state := .run, sysstop := false, lc := 0, draining := false, setDone := false, pins := pinsOf s m })) ∧
    (v = 1 → m.state = .idle → m.prog = false → exec (.moverGo w n v) s = .next (setMov s n.toNat
      { m with state := .run, sysstop := false, lc := 0, draining := false, setDone := false, active := m.shadow, pins := pinsOf s m })) ∧
    (v = 1 → m.state = .run → m.prog = false → m.armed = false → (m.job.map (·.stopping)).getD false = false →
      exec (.moverGo w n v) s = .next (setMov s n.toNat { m with armed := true })) ∧
    (v = 2 → m.state ≠ .error → (∀ j, m.job = some j → j.kind = .move → j.read ≤ j.written) →
      exec (.moverStop w n v) s = .next (setMov s n.toNat
        { m with state := .idle, armed := false, setDone := false, pins := [], draining := false, job := none })) ∧
    (∀ j, v = 2 → m.state ≠ .error → m.job = some j → j.kind = .move → j.written < j.read →
      exec (.moverStop w n v) s = .next (setMov s n.toNat { m with armed := false, job := some { j with stopping := true } })) ∧
    (v = 4 → m.state = .error → exec (.moverClear w n v) s = .next (setMov s n.toNat
      { m with state := .idle, armed := false, setDone := false, pins := [], draining := false, job := none })) := by
  have hWrite := guardedWrite_of_mayWrite {} (fun s => writeMovCmd s n.toNat v) hMay
  refine ⟨fun hV hState hProg => ?_, fun hV hState hProg => ?_, fun hV hState hSet hArmed hGoing => ?_,
    fun hV hState hRest => ?_, fun j hV hState hJob hMove hRead => ?_, fun hV hState => ?_⟩ <;>
    subst hV
  · refine next_congr (hWrite.trans ((writeMovCmd_go h).trans (congrArg (setMov s n.toNat) ((goMover_idle s hState).trans ?_))))
    simp only [hProg, if_true]
  · refine next_congr (hWrite.trans ((writeMovCmd_go h).trans (congrArg (setMov s n.toNat) ((goMover_idle s hState).trans ?_))))
    simp only [hProg, Bool.false_eq_true, if_false]
  · exact next_congr (hWrite.trans ((writeMovCmd_go h).trans (congrArg (setMov s n.toNat) (goMover_running s hState hSet hArmed hGoing))))
  · exact next_congr (hWrite.trans ((writeMovCmd_stop h hState).trans (congrArg (setMov s n.toNat) (stopMover_rest hState hRest))))
  · exact next_congr (hWrite.trans ((writeMovCmd_stop h hState).trans
      (congrArg (setMov s n.toNat) (stopMover_bursts hState hJob hMove hRead))))
  · exact next_congr (hWrite.trans (writeMovCmd_clear h hState))

/-! ### POKE and the waits (R408, R412) -/

theorem instrLink_on {s : State} {n : Nat} {m : Mover} {ws : List W64} (hReserved : ew ws 0 &&& ~~~ 0x007FFFFF000003FF = 0)
    (hAligned : fld (ew ws 0) 54 32 % 32 = 0) (hGoes : bit (ew ws 0) 9 = false) :
    instrLink s n m ws = endInstr s n m (eocOf ws) (fld (ew ws 0) 54 32) := by
  unfold instrLink
  simp only [hReserved, hAligned, hGoes, ne_eq, not_true_eq_false, decide_false, Bool.or_self, Bool.false_eq_true, if_false]

section Poke

variable {s : State} {n : Nat} {m : Mover} {ws : List W64} (h : tget s.movers n = some m) (hParked : m.state = .waitLink)
  (hRead : fetchWords s n m 1 = .words ws)

include h hParked hRead

theorem writeMovPoke_changed (hOp : opOf ws ≠ 7) : writeMovPoke s n = setMov s n { m with state := .run } := by
  unfold writeMovPoke
  simp only [h, hParked, hRead, hOp, if_true, if_false]

theorem writeMovPoke_link (hOp : opOf ws = 7) : writeMovPoke s n = instrLink s n m ws := by
  unfold writeMovPoke
  simp only [h, hParked, hRead, hOp, if_true]

end Poke

theorem pokesReadTheLinkAgain (s : State) (n : BitVec 4) (w : Dom) (v : W64) (m : Mover) (ws : List W64)
    (hMay : mayWrite s w (blkMOV + n.toNat) 0x90 = true) (h : tget s.movers n.toNat = some m) (hParked : m.state = .waitLink)
    (hRead : fetchWords s n.toNat m 1 = .words ws) :
    (opOf ws ≠ 7 → exec (.moverPoke w n v) s = .next (setMov s n.toNat { m with state := .run })) ∧
    (opOf ws = 7 → ew ws 0 &&& ~~~ 0x007FFFFF000003FF = 0 → fld (ew ws 0) 54 32 % 32 = 0 → bit (ew ws 0) 9 = false →
      exec (.moverPoke w n v) s = .next (endInstr s n.toNat m (eocOf ws) (fld (ew ws 0) 54 32))) := by
  have hWrite := guardedWrite_of_mayWrite {} (fun s => writeMovPoke s n.toNat) hMay
  exact ⟨fun hOp => next_congr (hWrite.trans (writeMovPoke_changed h hParked hRead hOp)),
    fun hOp hReserved hAligned hGoes => next_congr (hWrite.trans
      ((writeMovPoke_link h hParked hRead hOp).trans (instrLink_on hReserved hAligned hGoes)))⟩

theorem framesWaitWakes {s : State} {n : BitVec 4} {m : Mover} (h : tget s.movers n.toNat = some m) (hState : m.state = .wait)
    (hKind : m.waitKind = 2) (hFrames : m.framesLeft = 0) :
    exec (.moverWake n) s = .next (endInstr s n.toNat m m.waitEoc (m.pc.toNat + 32)) := by
  refine next_congr ?_
  rw [h]
  refine (if_pos hState).trans ?_
  unfold retestWait testWait
  rw [hKind]
  refine congrArg (afterTest s n.toNat m.waitEoc) (?_ : _ = Tested.holds s m)
  exact if_pos hFrames

/-! ### The end of a register set (R398) -/

theorem setsEnd {s : State} {n : BitVec 4} {m : Mover} (h : tget s.movers n.toNat = some m) (hState : m.state = .run)
    (hSet : m.prog = false) (hDone : m.setDone = true) (hQuiet : bit m.active.ops 7 = false) :
    (m.armed = true → exec (.registerSetEnd n) s = .next (setMov s n.toNat
      { m with ended := m.ended + 1, setDone := false, armed := false, active := m.shadow })) ∧
    (m.armed = false → exec (.registerSetEnd n) s = .next (occur (setMov s n.toNat
      { m with ended := m.ended + 1, setDone := false, state := .idle, armed := false, pins := [], draining := false, job := none })
      (blkMOV + n.toNat) 0x701 (put32 n.toNat 4 0) 0)) := by
  have hRow : exec (.registerSetEnd n) s = .next (endSet s n.toNat m) := by
    refine next_congr ?_
    rw [h]
    exact if_pos ⟨hState, hSet, hDone⟩
  constructor <;> intro hArmed <;> refine hRow.trans (next_congr ?_) <;> unfold endSet setFlag <;>
    simp only [hQuiet, hArmed, Bool.false_eq_true, if_false, if_true]
  rfl

/-! ### Grants (R391) -/

theorem burstsAreGranted (s : State) (ready : BitVec 17) (g : Nat) (hLive : live s = true) :
    (grantee s s.writePort (candidates s true ready) = some g → exec (.burstGrant true ready) s = .next (grantedBurst
      { s with writePort := granted s s.writePort (candidates s true ready) g } true g)) ∧
    (grantee s s.readPort (candidates s false ready) = some g → exec (.burstGrant false ready) s = .next (grantedBurst { s with
      readPort := granted s s.readPort (candidates s false ready) g
      cwyCnt := tset s.cwyCnt (effPrio s g) (tgetD s.cwyCnt (effPrio s g) 0 + 1) } false g)) := by
  constructor <;> intro hGranted <;> refine next_congr ?_ <;>
    simp only [hLive, hGranted, Bool.false_eq_true, if_false, if_true]

theorem portsRest {s : State} (p : Bool) (ready : BitVec 17) (h : live s = false) : exec (.burstGrant p ready) s = .next s := by
  refine next_congr ?_
  simp only [h, Bool.false_eq_true, if_false]

/-- Settles O46: the commands' rows, each by the one branch its hypotheses leave. -/
theorem moverCommands : Obligations.MoverCommands := fun s n =>
  ⟨fun w v hMay hGo hN => moversAreAssigned s n w v hMay hGo hN,
    fun w v m hMay h => moverCommandsAct s n w v m hMay h,
    fun w v m ws hMay h hParked hRead => pokesReadTheLinkAgain s n w v m ws hMay h hParked hRead,
    fun _ h hState hKind hFrames => framesWaitWakes h hState hKind hFrames,
    fun _ h hState hSet hDone hQuiet => setsEnd h hState hSet hDone hQuiet,
    fun ready g hLive => burstsAreGranted s ready g hLive,
    fun p ready h => portsRest p ready h⟩

end Sys2Proof.Machine
end

section
/-! The mover instructions, each at the front of its program, and the register sets (R399, R402-R411). -/

namespace Sys2Proof.Machine

/-! ### The row of an instruction -/

section Row

variable {s : State} {n : BitVec 4} {m : Mover} {ws : List W64} (h : tget s.movers n.toNat = some m) (hRun : m.state = .run)
  (hNone : m.job = none) (hProg : m.prog = true) (hFetch : fetchInstr s n.toNat m = .words ws)

theorem movRow_eq (h : tget s.movers n.toNat = some m) (go : Nat → Mover → State) : movRow s n go = go n.toNat m := by
  unfold movRow
  rw [h]

include hRun hNone hProg hFetch

theorem instrRow_own {op : Nat} (go : State → Mover → List W64 → State) (hOp : opOf ws = op) :
    instrRow s n.toNat op m go = go s m ws := by
  have hGoes : ¬ (m.state ≠ .run ∨ m.prog = false ∨ m.job ≠ none) := by simp [hRun, hProg, hNone]
  unfold instrRow
  rw [if_neg hGoes, hFetch]
  exact if_pos hOp

/-- An OP that the table does not list faults in whichever row. -/
theorem instrRow_unlisted {op : Nat} (go : State → Mover → List W64 → State) (hOwn : 1 ≤ op ∧ op ≤ 8)
    (hOp : opOf ws = 0 ∨ 8 < opOf ws) : instrRow s n.toNat op m go = movFault s n.toNat m 1 0 := by
  have hGoes : ¬ (m.state ≠ .run ∨ m.prog = false ∨ m.job ≠ none) := by simp [hRun, hProg, hNone]
  unfold instrRow
  rw [hFetch]
  exact (if_neg hGoes).trans ((if_neg (by omega)).trans (if_neg (by omega)))

include h

theorem exec_move (hOp : opOf ws = 1) : exec (.move n) s = .next (instrMove s n.toNat m ws) :=
  next_congr ((movRow_eq h _).trans ((if_pos hProg).trans (instrRow_own hRun hNone hProg hFetch _ hOp)))

theorem exec_move_unlisted (hOp : opOf ws = 0 ∨ 8 < opOf ws) : exec (.move n) s = .next (movFault s n.toNat m 1 0) :=
  next_congr ((movRow_eq h _).trans ((if_pos hProg).trans (instrRow_unlisted hRun hNone hProg hFetch _ (by omega) hOp)))

theorem exec_fill (hOp : opOf ws = 2) : exec (.fill n) s = .next (instrFill s n.toNat m ws) :=
  next_congr ((movRow_eq h _).trans ((if_pos hProg).trans (instrRow_own hRun hNone hProg hFetch _ hOp)))

theorem exec_crc (hOp : opOf ws = 3) : exec (.crc n) s = .next (instrCrc s n.toNat m ws) :=
  next_congr ((movRow_eq h _).trans (instrRow_own hRun hNone hProg hFetch _ hOp))

theorem exec_wait (hOp : opOf ws = 4) : exec (.wait n) s = .next (instrWait s n.toNat m ws) :=
  next_congr ((movRow_eq h _).trans (instrRow_own hRun hNone hProg hFetch _ hOp))

theorem exec_loop (hOp : opOf ws = 5) : exec (.loop n) s = .next (instrLoop s n.toNat m ws) :=
  next_congr ((movRow_eq h _).trans (instrRow_own hRun hNone hProg hFetch _ hOp))

theorem exec_signal (hOp : opOf ws = 6) : exec (.signal n) s = .next (instrSignal s n.toNat m ws) :=
  next_congr ((movRow_eq h _).trans (instrRow_own hRun hNone hProg hFetch _ hOp))

theorem exec_link (hOp : opOf ws = 7) : exec (.link n) s = .next (instrLink s n.toNat m ws) :=
  next_congr ((movRow_eq h _).trans (instrRow_own hRun hNone hProg hFetch _ hOp))

theorem exec_endProgram (hOp : opOf ws = 8) : exec (.endProgram n) s = .next (instrEnd s n.toNat m ws) :=
  next_congr ((movRow_eq h _).trans (instrRow_own hRun hNone hProg hFetch _ hOp))

end Row

/-! ### MOVE and FILL (R404, R405) -/

/-- The move that an instruction's words stand for. -/
def moveOf (ws : List W64) : MoveJob :=
  ⟨ew ws 1, ew ws 2, fld (ew ws 0) 55 32, fld (ew ws 0) 10 9, bit (ew ws 0) 11, bit (ew ws 0) 12⟩

theorem instrMove_eq (s : State) (n : Nat) (m : Mover) {ws : List W64} (hReserved : reservedSet ws 0x00FFFFFF00001E00 3 = false) :
    instrMove s n m ws = finishInstr n (eocOf ws) (doMove s n m (moveOf ws)) :=
  if_neg (by rw [hReserved]; exact Bool.false_ne_true)

theorem instrFill_eq (s : State) (n : Nat) (m : Mover) {ws : List W64} (hReserved : reservedSet ws 0x00FFFFFF00000000 3 = false) :
    instrFill s n m ws = finishInstr n (eocOf ws) (doFill s n m (ew ws 1) (fld (ew ws 0) 55 32) (ew ws 2)) :=
  if_neg (by rw [hReserved]; exact Bool.false_ne_true)

section Fill

variable {s : State} {n : Nat} {m : Mover} {dst pat : W64} {len : Nat} (hLen : len ≠ 0) (hMost : len ≤ 8388608)
  (hBits : xbitsOk dst = true) (hFlat : isRing dst = false)

include hLen hMost hBits hFlat

theorem doFill_started {a : Nat} (h : checkOperand s m dst len true = .ok a) :
    doFill s n m dst len pat = .started s m { kind := .fill, dst := a, start := a % 256, len := len, pat := pat, pins := [operandPin dst] } := by
  have hGood : ¬ (len = 0 ∨ 8388608 < len ∨ xbitsOk dst = false ∨ isRing dst = true) := by
    simp only [hLen, hBits, hFlat, Nat.not_lt.2 hMost, or_self, Bool.true_eq_false, Bool.false_eq_true, not_false_eq_true]
  unfold doFill
  rw [if_neg hGood, h]

theorem doFill_denied {v : Viol} (h : checkOperand s m dst len true = .error v) :
    doFill s n m dst len pat = .denied (violate s m.d v (movOrigin n)) m := by
  have hGood : ¬ (len = 0 ∨ 8388608 < len ∨ xbitsOk dst = false ∨ isRing dst = true) := by
    simp only [hLen, hBits, hFlat, Nat.not_lt.2 hMost, or_self, Bool.true_eq_false, Bool.false_eq_true, not_false_eq_true]
  unfold doFill
  rw [if_neg hGood, h]
  rfl

end Fill

/-! ### CRC (R406) -/

/-- The mover after a CRC instruction: the running CRC, set anew where the instruction says. -/
def crcInit (m : Mover) (ws : List W64) : Mover := { m with crc := if bit (ew ws 0) 9 then 0xFFFFFFFF else m.crc }

theorem crcInit_eq (m : Mover) (ws : List W64) :
    (if bit (ew ws 0) 9 then { m with crc := 0xFFFFFFFF } else m) = crcInit m ws := by
  unfold crcInit
  cases bit (ew ws 0) 9 <;> rfl

section Crc

variable {s : State} {n : Nat} {m : Mover} {ws : List W64}
  (hReserved : reservedSet ws 0x600 (if bit (ew ws 0) 10 then 2 else 1) = false)

include hReserved

theorem instrCrc_inits (h : bit (ew ws 0) 10 = false) : instrCrc s n m ws = stepOn s n (crcInit m ws) (eocOf ws) := by
  replace hReserved : reservedSet ws 0x600 1 = false := by rw [h] at hReserved; exact hReserved
  rw [← crcInit_eq]
  unfold instrCrc
  simp only [hReserved, h, Bool.false_and, Bool.or_self, Bool.false_eq_true, if_false]

theorem instrCrc_stores {a : Nat} (h : bit (ew ws 0) 10 = true) (hBits : xbitsOk (ew ws 1) = true) (hFlat : isRing (ew ws 1) = false)
    (hRoom : checkOperand s m (ew ws 1) 4 true = .ok a) :
    instrCrc s n m ws = stepOn (memWrite s a (leBytes 4 (~~~ m.crc).toNat)) n (crcInit m ws) (eocOf ws) := by
  replace hReserved : reservedSet ws 0x600 2 = false := by rw [h] at hReserved; exact hReserved
  rw [← crcInit_eq]
  unfold instrCrc
  simp only [hReserved, h, hBits, hFlat, hRoom, Bool.true_and, Bool.not_true, Bool.or_self, Bool.false_eq_true, if_false, if_true]
  rfl

end Crc

/-! ### WAIT (R408, R417) -/

/-- A mover that stands in a WAIT. -/
def waitingMover (m : Mover) (ws : List W64) : Mover :=
  { m with state := .wait, waitKind := BitVec.ofNat 2 (fld (ew ws 0) 10 9), waitWord := ew ws 1, waitEoc := eocOf ws
           framesLeft := if fld (ew ws 0) 10 9 = 2 then fld (ew ws 1) 15 0 else 0 }

theorem instrWait_eq (s : State) (n : Nat) (m : Mover) {ws : List W64} (h : waitBad m ws = false) : instrWait s n m ws =
    afterTest s n (eocOf ws) (testWait s n (waitingMover m ws) (fld (ew ws 0) 10 9) (ew ws 1)) :=
  if_neg (by rw [h]; exact Bool.false_ne_true)

/-- A WAIT FRAMES that passes R420 names at least one frame. -/
theorem waitBad_frames {m : Mover} {ws : List W64} (h : waitBad m ws = false) (hKind : fld (ew ws 0) 10 9 = 2) :
    fld (ew ws 1) 15 0 ≠ 0 := by
  unfold waitBad at h
  simp only [hKind, Bool.or_eq_false_iff, decide_eq_false_iff_not, Classical.not_not] at h
  obtain ⟨-, hHigh, hNot⟩ := h
  intro hZero
  refine hNot ?_
  have hLow : ew ws 1 &&& 0xFFFF = 0 := by
    refine BitVec.eq_of_toNat_eq ?_
    rw [BitVec.toNat_and]
    exact (Nat.and_two_pow_sub_one_eq_mod _ 16).trans hZero
  calc ew ws 1 = (ew ws 1 &&& 0xFFFF) ||| (ew ws 1 &&& ~~~ 0xFFFF) := by rw [← BitVec.and_or_distrib_left, BitVec.or_not_self, BitVec.and_allOnes]
    _ = 0 := by rw [hLow, hHigh]; rfl

theorem testWait_frames {s : State} {n : Nat} {m : Mover} {w : W64} (h : m.framesLeft ≠ 0) : testWait s n m 2 w = .waits m :=
  if_neg h

section Done

variable {s : State} {n : Nat} {m : Mover} {w : W64} {q : Sq} (hRing : tget s.sqs (fld w 5 0) = some q) (hOwn : q.owner = m.d)

include hRing hOwn

theorem testWait_done_holds (h : (q.done + BitVec.ofNat 32 (fld w 47 32) - m.sigcnt).toNat < 2 ^ 31) :
    testWait s n m 1 w = .holds s m := by
  unfold testWait
  simp only [hRing, hOwn, h, ne_eq, not_true_eq_false, if_false, if_true, Nat.one_ne_zero]

theorem testWait_done_waits (h : 2 ^ 31 ≤ (q.done + BitVec.ofNat 32 (fld w 47 32) - m.sigcnt).toNat) :
    testWait s n m 1 w = .waits m := by
  unfold testWait
  simp only [hRing, hOwn, Nat.not_lt.2 h, ne_eq, not_true_eq_false, if_false, if_true, Nat.one_ne_zero]

end Done

section Produced

variable {s : State} {n : Nat} {m : Mover} {w : W64} {p : W32} (hRead : readProd s m = .count p) (hFits : (p - m.cons).toNat ≤ ringLen m)
  (hFilling : m.draining = false)

include hRead hFits hFilling

theorem testWait_fill_holds (h : fld w 31 0 ≤ (p - m.cons).toNat) :
    testWait s n m 0 w = .holds s { m with prod := p, draining := true } := by
  have hRoom : ¬ ringLen { m with prod := p } < fillOf { m with prod := p } p := Nat.not_lt.2 hFits
  unfold testWait paced
  simp only [hRead, if_true]
  rw [if_neg hRoom]
  simp only [hFilling, fillOf, h, Bool.false_eq_true, if_false, if_true]

theorem testWait_fill_waits (h : (p - m.cons).toNat < fld w 31 0) : testWait s n m 0 w = .waits { m with prod := p } := by
  have hRoom : ¬ ringLen { m with prod := p } < fillOf { m with prod := p } p := Nat.not_lt.2 hFits
  unfold testWait paced
  simp only [hRead, if_true]
  rw [if_neg hRoom]
  simp only [hFilling, fillOf, Nat.not_le.2 h, Bool.false_eq_true, if_false]

end Produced

/-! ### LOOP, SIGNAL, LINK and END (R403, R407, R409-R411) -/

theorem instrLoop_eq {s : State} {n : Nat} {m : Mover} {ws : List W64} (hReserved : reservedSet ws 0x007FFFFFFFFF0000 1 = false)
    (hCount : fld (ew ws 0) 31 16 ≠ 0) (hAligned : fld (ew ws 0) 54 32 % 32 = 0) :
    let lc := if m.lc = 0 then fld (ew ws 0) 31 16 - 1 else m.lc.toNat - 1
    instrLoop s n m ws = endInstr s n { m with lc := BitVec.ofNat 16 lc } (eocOf ws)
      (if lc ≠ 0 then fld (ew ws 0) 54 32 else m.pc.toNat + 32) := by
  unfold instrLoop
  simp only [hReserved, hCount, hAligned, ne_eq, not_true_eq_false, decide_false, Bool.or_self, Bool.false_eq_true, if_false]

section Signal

variable {s : State} {n : Nat} {m : Mover} {ws : List W64} (hReserved : reservedSet ws 0x0000003F00000200 1 = false)
  (hBare : bit (ew ws 0) 9 = false)

include hReserved hBare

theorem instrSignal_rings (h : ringOwner s blkWQS (fld (ew ws 0) 37 32) = some m.d) :
    instrSignal s n m ws = signalOn s n m (fld (ew ws 0) 37 32) (eocOf ws) := by
  unfold instrSignal
  simp only [hReserved, hBare, h, ne_eq, not_true_eq_false, Bool.false_and, Bool.or_self, Bool.false_eq_true, if_false, Bool.not_false, if_true]

theorem instrSignal_denied (h : ringOwner s blkWQS (fld (ew ws 0) 37 32) ≠ some m.d) :
    instrSignal s n m ws = stepOn (violate s m.d
      { kind := 1, p1 := BitVec.ofNat 32 (regAddr blkWQS (0x800 + 8 * fld (ew ws 0) 37 32)) } (movOrigin n)) n m (eocOf ws) := by
  unfold instrSignal
  simp only [hReserved, hBare, h, ne_eq, not_false_eq_true, Bool.false_and, Bool.or_self, Bool.false_eq_true, if_false, if_true]
  rfl

end Signal

theorem instrLink_parks {s : State} {n : Nat} {m : Mover} {ws : List W64} (hReserved : ew ws 0 &&& ~~~ 0x007FFFFF000003FF = 0)
    (hAligned : fld (ew ws 0) 54 32 % 32 = 0) (hParks : bit (ew ws 0) 9 = true) :
    instrLink s n m ws = movEvent (setMov s n { m with state := .waitLink }) n 0x703 m.pc.toNat := by
  unfold instrLink
  simp only [hReserved, hAligned, hParks, ne_eq, not_true_eq_false, decide_false, Bool.or_self, Bool.false_eq_true, if_false, if_true]

theorem instrEnd_quiet {s : State} {n : Nat} {m : Mover} {ws : List W64} (hReserved : ew ws 0 &&& ~~~ 0x1FF = 0)
    (hQuiet : eocOf ws = false) :
    instrEnd s n m ws = movEvent (setMov s n (goIdle { m with ended := m.ended + 1 })) n 0x701 m.pc.toNat := by
  unfold instrEnd
  simp only [hReserved, hQuiet, ne_eq, not_true_eq_false, decide_false, Bool.false_eq_true, if_false]

/-! ### Register sets (R399) -/

section Sets

variable {s : State} {n : BitVec 4} {m : Mover} (h : tget s.movers n.toNat = some m) (hRun : m.state = .run) (hNone : m.job = none)
  (hSet : m.prog = false) (hFresh : m.setDone = false)

/-- What the start of a move or fill means for a register set that stores no CRC. -/
def finishSet (n : Nat) : Done → State
  | .denied s m => setMov s n { m with setDone := true }
  | .faulted s m c a => movFault s n m c a
  | .started s m j => setMov s n { m with job := some { j with store := none } }

/-- A set without CRCINIT and CRCSTORE starts its move. -/
theorem runSet_move (s : State) (n : Nat) {m : Mover} (hMove : setFlag m 0 = false) (hStore : setFlag m 6 = false)
    (hInit : setFlag m 5 = false) : runSet s n m = finishSet n (doMove s n m (setJob m)) := by
  unfold runSet
  simp only [hMove, hStore, hInit, Bool.false_and, Bool.or_self, Bool.false_eq_true, if_false]
  cases doMove s n m (setJob m) <;> rfl

theorem runSet_fill (s : State) (n : Nat) {m : Mover} (hFill : setFlag m 0 = true) (hPlain : fld m.active.ops 4 1 = 0)
    (hStore : setFlag m 6 = false) (hInit : setFlag m 5 = false) :
    runSet s n m = finishSet n (doFill s n m m.active.dst (fld m.active.len 23 0) m.active.pat) := by
  unfold runSet
  simp only [hFill, hPlain, hStore, hInit, ne_eq, not_true_eq_false, decide_false, Bool.and_false, Bool.false_and, Bool.or_self,
    Bool.false_eq_true, if_false, if_true]
  cases doFill s n m m.active.dst (fld m.active.len 23 0) m.active.pat <;> rfl

include h hRun hNone hSet hFresh

theorem exec_move_set (hMove : setFlag m 0 = false) : exec (.move n) s = .next (runSet s n.toNat m) :=
  next_congr ((movRow_eq h _).trans ((if_neg (by rw [hSet]; exact Bool.false_ne_true)).trans (if_pos ⟨hRun, hSet, hFresh, hNone, hMove⟩)))

theorem exec_fill_set (hFill : setFlag m 0 = true) : exec (.fill n) s = .next (runSet s n.toNat m) :=
  next_congr ((movRow_eq h _).trans ((if_neg (by rw [hSet]; exact Bool.false_ne_true)).trans (if_pos ⟨hRun, hSet, hFresh, hNone, hFill⟩)))

end Sets

theorem bit_of_masked {w k : W64} {i : Nat} (h : w &&& k = 0) (hBit : k.getLsbD i = true) : bit w i = false := by
  have hAt := congrArg (BitVec.getLsbD · i) h
  simpa [bit, hBit] using hAt

/-! ### The obligation -/

section Words

variable {s : State} {n : BitVec 4} {m : Mover} {ws : List W64} (h : tget s.movers n.toNat = some m) (hRun : m.state = .run)
  (hNone : m.job = none) (hProg : m.prog = true) (hFetch : fetchInstr s n.toNat m = .words ws)

include h hRun hNone hProg hFetch

theorem moveStarts (hOp : opOf ws = 1) (hReserved : reservedSet ws 0x00FFFFFF00001E00 3 = false) :
    (∀ u m' b, doMove s n.toNat m (moveOf ws) = .started u m' b → exec (.move n) s = .next
      (setMov u n.toNat { m' with job := some { b with eoc := eocOf ws } })) ∧
    (∀ u m', doMove s n.toNat m (moveOf ws) = .denied u m' → exec (.move n) s = .next (stepOn u n.toNat m' (eocOf ws))) ∧
    (∀ u m' c a, doMove s n.toNat m (moveOf ws) = .faulted u m' c a → exec (.move n) s = .next (movFault u n.toNat m' c a)) := by
  have hRow := (exec_move h hRun hNone hProg hFetch hOp).trans (next_congr (instrMove_eq s n.toNat m hReserved))
  exact ⟨fun u m' b hMove => hRow.trans (next_congr (congrArg (finishInstr _ _) hMove)),
    fun u m' hMove => hRow.trans (next_congr (congrArg (finishInstr _ _) hMove)),
    fun u m' c a hMove => hRow.trans (next_congr (congrArg (finishInstr _ _) hMove))⟩

theorem fillStarts (hOp : opOf ws = 2) (hReserved : reservedSet ws 0x00FFFFFF00000000 3 = false) (hLen : fld (ew ws 0) 55 32 ≠ 0)
    (hMost : fld (ew ws 0) 55 32 ≤ 8388608) (hBits : xbitsOk (ew ws 1) = true) (hFlat : isRing (ew ws 1) = false) :
    (∀ a, checkOperand s m (ew ws 1) (fld (ew ws 0) 55 32) true = .ok a → exec (.fill n) s = .next (setMov s n.toNat
      { m with job := some { kind := .fill, dst := a, start := a % 256, len := fld (ew ws 0) 55 32, pat := ew ws 2,
                             pins := [operandPin (ew ws 1)], eoc := eocOf ws } })) ∧
    (∀ v, checkOperand s m (ew ws 1) (fld (ew ws 0) 55 32) true = .error v →
      exec (.fill n) s = .next (stepOn (violate s m.d v (movOrigin n.toNat)) n.toNat m (eocOf ws))) := by
  have hRow := (exec_fill h hRun hNone hProg hFetch hOp).trans (next_congr (instrFill_eq s n.toNat m hReserved))
  exact ⟨fun a hRoom => hRow.trans (next_congr (congrArg (finishInstr _ _) (doFill_started hLen hMost hBits hFlat hRoom))),
    fun v hRoom => hRow.trans (next_congr (congrArg (finishInstr _ _) (doFill_denied hLen hMost hBits hFlat hRoom)))⟩

theorem crcsRun (hOp : opOf ws = 3) (hReserved : reservedSet ws 0x600 (if bit (ew ws 0) 10 then 2 else 1) = false) :
    (bit (ew ws 0) 10 = false → exec (.crc n) s = .next (stepOn s n.toNat (crcInit m ws) (eocOf ws))) ∧
    (∀ a, bit (ew ws 0) 10 = true → xbitsOk (ew ws 1) = true → isRing (ew ws 1) = false →
      checkOperand s m (ew ws 1) 4 true = .ok a → exec (.crc n) s = .next (stepOn
        (memWrite s a (leBytes 4 (~~~ m.crc).toNat)) n.toNat (crcInit m ws) (eocOf ws))) := by
  have hRow := exec_crc h hRun hNone hProg hFetch hOp
  exact ⟨fun hInit => hRow.trans (next_congr (instrCrc_inits hReserved hInit)),
    fun a hStore hBits hFlat hRoom => hRow.trans (next_congr (instrCrc_stores hReserved hStore hBits hFlat hRoom))⟩

theorem waitsTest (hOp : opOf ws = 4) (hGood : waitBad m ws = false) :
    (fld (ew ws 0) 10 9 = 2 → exec (.wait n) s = .next (setMov s n.toNat (waitingMover m ws))) ∧
    (fld (ew ws 0) 10 9 = 1 → ∀ q, tget s.sqs (fld (ew ws 1) 5 0) = some q → q.owner = m.d →
      ((q.done + BitVec.ofNat 32 (fld (ew ws 1) 47 32) - m.sigcnt).toNat < 2 ^ 31 →
        exec (.wait n) s = .next (stepOn s n.toNat (waitingMover m ws) (eocOf ws))) ∧
      (2 ^ 31 ≤ (q.done + BitVec.ofNat 32 (fld (ew ws 1) 47 32) - m.sigcnt).toNat →
        exec (.wait n) s = .next (setMov s n.toNat (waitingMover m ws)))) ∧
    (fld (ew ws 0) 10 9 = 0 → ∀ p, readProd s m = .count p → (p - m.cons).toNat ≤ ringLen m → m.draining = false →
      (fld (ew ws 1) 31 0 ≤ (p - m.cons).toNat →
        exec (.wait n) s = .next (stepOn s n.toNat { waitingMover m ws with prod := p, draining := true } (eocOf ws))) ∧
      ((p - m.cons).toNat < fld (ew ws 1) 31 0 →
        exec (.wait n) s = .next (setMov s n.toNat { waitingMover m ws with prod := p }))) := by
  have hRow := (exec_wait h hRun hNone hProg hFetch hOp).trans (next_congr (instrWait_eq s n.toNat m hGood))
  refine ⟨fun hKind => ?_, fun hKind q hRing hOwn => ?_, fun hKind p hRead hFits hFilling => ?_⟩ <;> rw [hKind] at hRow
  · have hFrames : (waitingMover m ws).framesLeft ≠ 0 := by
      rw [waitingMover, if_pos hKind]
      exact waitBad_frames hGood hKind
    exact hRow.trans (next_congr (congrArg (afterTest _ _ _) (testWait_frames hFrames)))
  · exact ⟨fun hDone => hRow.trans (next_congr (congrArg (afterTest _ _ _) (testWait_done_holds (m := waitingMover m ws) hRing hOwn hDone))),
      fun hDone => hRow.trans (next_congr (congrArg (afterTest _ _ _) (testWait_done_waits (m := waitingMover m ws) hRing hOwn hDone)))⟩
  · exact ⟨fun hFull => hRow.trans (next_congr (congrArg (afterTest _ _ _)
        (testWait_fill_holds (m := waitingMover m ws) hRead hFits hFilling hFull))),
      fun hLow => hRow.trans (next_congr (congrArg (afterTest _ _ _)
        (testWait_fill_waits (m := waitingMover m ws) hRead hFits hFilling hLow)))⟩

theorem signalsRing (hOp : opOf ws = 6) (hReserved : reservedSet ws 0x0000003F00000200 1 = false) (hBare : bit (ew ws 0) 9 = false) :
    (ringOwner s blkWQS (fld (ew ws 0) 37 32) = some m.d → exec (.signal n) s = .next (checkedDoorbell
      (stepOn s n.toNat { m with sigcnt := m.sigcnt + 1 } (eocOf ws)) m.d (fld (ew ws 0) 37 32) ((m.sigcnt + 1).setWidth 16)
      (movOrigin n.toNat))) ∧
    (ringOwner s blkWQS (fld (ew ws 0) 37 32) ≠ some m.d → exec (.signal n) s = .next (stepOn (violate s m.d
      { kind := 1, p1 := BitVec.ofNat 32 (regAddr blkWQS (0x800 + 8 * fld (ew ws 0) 37 32)) } (movOrigin n.toNat))
      n.toNat m (eocOf ws))) := by
  have hRow := exec_signal h hRun hNone hProg hFetch hOp
  exact ⟨fun hOwn => hRow.trans (next_congr (instrSignal_rings hReserved hBare hOwn)),
    fun hOther => hRow.trans (next_congr (instrSignal_denied hReserved hBare hOther))⟩

theorem linksGoOnOrPark (hOp : opOf ws = 7) (hReserved : ew ws 0 &&& ~~~ 0x007FFFFF000003FF = 0)
    (hAligned : fld (ew ws 0) 54 32 % 32 = 0) :
    (bit (ew ws 0) 9 = false → exec (.link n) s = .next (endInstr s n.toNat m (eocOf ws) (fld (ew ws 0) 54 32))) ∧
    (bit (ew ws 0) 9 = true → exec (.link n) s = .next
      (movEvent (setMov s n.toNat { m with state := .waitLink }) n.toNat 0x703 m.pc.toNat)) := by
  have hRow := exec_link h hRun hNone hProg hFetch hOp
  exact ⟨fun hGoes => hRow.trans (next_congr (instrLink_on hReserved hAligned hGoes)),
    fun hParks => hRow.trans (next_congr (instrLink_parks hReserved hAligned hParks))⟩

theorem endsIdle (hOp : opOf ws = 8) (hReserved : ew ws 0 &&& ~~~ 0x1FF = 0) (hQuiet : eocOf ws = false) :
    exec (.endProgram n) s = .next (movEvent (setMov s n.toNat
      { m with ended := m.ended + 1, state := .idle, armed := false, setDone := false, pins := [], draining := false })
      n.toNat 0x701 m.pc.toNat) := by
  refine (exec_endProgram h hRun hNone hProg hFetch hOp).trans (next_congr ((instrEnd_quiet hReserved hQuiet).trans ?_))
  unfold goIdle
  rw [hNone]

end Words

section Sets

variable {s : State} {n : BitVec 4} {m : Mover} (h : tget s.movers n.toNat = some m) (hRun : m.state = .run) (hNone : m.job = none)
  (hSet : m.prog = false) (hFresh : m.setDone = false)

include h hRun hNone hSet hFresh

theorem setMovesStart (hPlain : m.active.ops &&& 0xE1 = 0) :
    (∀ u m' b, doMove s n.toNat m (setJob m) = .started u m' b → exec (.move n) s = .next
      (setMov u n.toNat { m' with job := some { b with store := none } })) ∧
    (∀ u m', doMove s n.toNat m (setJob m) = .denied u m' → exec (.move n) s = .next (setMov u n.toNat { m' with setDone := true })) ∧
    (∀ u m' c a, doMove s n.toNat m (setJob m) = .faulted u m' c a → exec (.move n) s = .next (movFault u n.toNat m' c a)) := by
  have hMove : setFlag m 0 = false := bit_of_masked hPlain rfl
  have hRow := (exec_move_set h hRun hNone hSet hFresh hMove).trans
    (next_congr (runSet_move s n.toNat hMove (bit_of_masked hPlain rfl) (bit_of_masked hPlain rfl)))
  exact ⟨fun u m' b hDone => hRow.trans (next_congr (congrArg (finishSet _) hDone)),
    fun u m' hDone => hRow.trans (next_congr (congrArg (finishSet _) hDone)),
    fun u m' c a hDone => hRow.trans (next_congr (congrArg (finishSet _) hDone))⟩

theorem setFillsStart (hOps : m.active.ops = 1) (u : State) (m' : Mover) (b : BurstJob)
    (hDone : doFill s n.toNat m m.active.dst (fld m.active.len 23 0) m.active.pat = .started u m' b) :
    exec (.fill n) s = .next (setMov u n.toNat { m' with job := some { b with store := none } }) := by
  have hFill : setFlag m 0 = true := by unfold setFlag; rw [hOps]; rfl
  have hRow := (exec_fill_set h hRun hNone hSet hFresh hFill).trans (next_congr (runSet_fill s n.toNat hFill
    (by rw [hOps]; rfl) (by unfold setFlag; rw [hOps]; rfl) (by unfold setFlag; rw [hOps]; rfl)))
  exact hRow.trans (next_congr (congrArg (finishSet _) hDone))

end Sets

/-- Settles O47: each instruction through its row, each row by the one branch its words leave. -/
theorem moverInstructions : Obligations.MoverInstructions := fun _ _ _ _ h hRun hNone =>
  ⟨fun hProg hFetch =>
    ⟨fun hOp hReserved => moveStarts h hRun hNone hProg hFetch hOp hReserved,
      fun hOp hReserved hLen hMost hBits hFlat => fillStarts h hRun hNone hProg hFetch hOp hReserved hLen hMost hBits hFlat,
      fun hOp hReserved => crcsRun h hRun hNone hProg hFetch hOp hReserved,
      fun hOp hGood => waitsTest h hRun hNone hProg hFetch hOp hGood,
      fun hOp hReserved hCount hAligned => (exec_loop h hRun hNone hProg hFetch hOp).trans
        (next_congr (instrLoop_eq hReserved hCount hAligned)),
      fun hOp hReserved hBare => signalsRing h hRun hNone hProg hFetch hOp hReserved hBare,
      fun hOp hReserved hAligned => linksGoOnOrPark h hRun hNone hProg hFetch hOp hReserved hAligned,
      fun hOp hReserved hQuiet => endsIdle h hRun hNone hProg hFetch hOp hReserved hQuiet,
      fun hOp => exec_move_unlisted h hRun hNone hProg hFetch hOp⟩,
    fun hSet hFresh hPlain => setMovesStart h hRun hNone hSet hFresh hPlain,
    fun hSet hFresh hOps u m' b hDone => setFillsStart h hRun hNone hSet hFresh hOps u m' b hDone⟩

end Sys2Proof.Machine
end

section
/-! The bursts of a job carry its bytes (R384, R392-R395, R405). -/

namespace Sys2Proof.Machine

/-! ### What a burst's bookkeeping leaves alone -/

/-- The bytes of buffer memory with what says how they read, the registers and the regions. -/
def bufferSide (s : State) : List Host.Cell × List Nat × Nat × List Nat × List (Nat × W64) × Tbl Region :=
  (s.mem, s.badMem, s.powers, s.retired, s.regs, s.regions)

/-- The bytes of buffer memory and their contents at power-up. -/
def bufferBytes (s : State) : List Host.Cell × Nat := (s.mem, s.powers)

section BufferSide

variable {s t : State} (h : bufferSide t = bufferSide s)

include h

theorem memGet_of_bufferSide (x : Nat) : memGet t x = memGet s x :=
  memGet_congr (congrArg (·.1) h :) (congrArg (·.2.2.1) h :) x

theorem parityBad_of_bufferSide (x : Nat) : parityBad t x = parityBad s x := by
  have hMem : t.mem = s.mem := (congrArg (·.1) h :)
  have hBad : t.badMem = s.badMem := (congrArg (·.2.1) h :)
  have hPowers : t.powers = s.powers := (congrArg (·.2.2.1) h :)
  unfold parityBad
  rw [hMem, hBad, hPowers]

theorem retired_of_bufferSide : t.retired = s.retired := (congrArg (·.2.2.2.1) h :)

theorem regs_of_bufferSide : t.regs = s.regs := (congrArg (·.2.2.2.2.1) h :)

theorem regions_of_bufferSide : t.regions = s.regions := (congrArg (·.2.2.2.2.2) h :)

end BufferSide

theorem isGone_congr {s t : State} (h : t.retired = s.retired) (x : Nat) : isGone t x = isGone s x := by
  unfold isGone
  rw [h]

theorem OnlyNoted.bufferSide {s t : State} (h : OnlyNoted s t) : bufferSide t = bufferSide s := by rw [h.eq_noteFields]; rfl

theorem bufferBytes_of_bufferSide {s t : State} (h : bufferSide t = bufferSide s) : bufferBytes t = bufferBytes s :=
  Prod.ext (congrArg (·.1) h :) (congrArg (·.2.2.1) h :)

theorem bufferSide_occur (s : State) (b : Nat) (c : BitVec 12) (p0 p1 : W32) : bufferSide (occur s b c p0 p1) = bufferSide s :=
  (occurAt_onlyNoted s _ _ b c p0 p1).bufferSide

theorem bufferBytes_occur (s : State) (b : Nat) (c : BitVec 12) (p0 p1 : W32) : bufferBytes (occur s b c p0 p1) = bufferBytes s :=
  bufferBytes_of_bufferSide (bufferSide_occur s b c p0 p1)

theorem bufferBytes_noteParity (s : State) (kind w m : Nat) : bufferBytes (noteParity s kind w m) = bufferBytes s :=
  bufferBytes_occur _ blkBUF 0x801 _ _

theorem bufferBytes_noteFailing (s : State) (kind : Nat) (l : List Nat) : bufferBytes (noteFailing s kind l) = bufferBytes s :=
  foldl_kept bufferBytes (fun u w => noteParity u kind w (failMask l w)) (fun _ _ => bufferBytes_noteParity _ _ _ _) _ s

theorem bufferBytes_movFault (s : State) (n : Nat) (m : Mover) (c a : Nat) : bufferBytes (movFault s n m c a) = bufferBytes s :=
  bufferBytes_occur _ _ _ _ _

theorem bufferBytes_laneFault (s : State) (n : Nat) (m : Mover) (bad : List Nat) : bufferBytes (laneFault s n m bad) = bufferBytes s := by
  unfold laneFault
  rw [bufferBytes_movFault]
  exact foldl_kept bufferBytes _ (fun u w => (bufferBytes_occur _ _ _ _ _).trans (bufferBytes_noteParity _ _ _ _)) _ s

theorem bufferBytes_noteGone (s : State) (n : Nat) (m : Mover) (j : BurstJob) (l : List Nat) :
    bufferBytes (noteGone s n m j l).1 = bufferBytes s := by
  unfold noteGone
  split
  · rfl
  · split
    · rfl
    · exact bufferBytes_occur _ _ _ _ _

/-- A burst that touches no retired page notes none. -/
theorem noteGone_of_present (s : State) (n : Nat) (m : Mover) (j : BurstJob) {l : List Nat} (h : ∀ a ∈ l, isGone s a = false) :
    noteGone s n m j l = (s, j) := by
  have hNone : l.filter (isGone s) = [] := List.filter_eq_nil_iff.2 fun a ha => by simp [h a ha]
  unfold noteGone
  rw [hNone]

/-! ### The end of a burst -/

/-- What a job becomes when told of a retired page keeps all it says of bytes. -/
theorem noteGone_job (s : State) (n : Nat) (m : Mover) (j : BurstJob) (l : List Nat) :
    (noteGone s n m j l).2 = { j with goneTold := (noteGone s n m j l).2.goneTold } := by
  unfold noteGone
  split
  · rfl
  · split <;> rfl

theorem bufferSide_endInstr (s : State) (n : Nat) (m : Mover) (eoc : Bool) (next : Nat) :
    bufferSide (endInstr s n m eoc next) = bufferSide s := by
  unfold endInstr
  cases eoc
  · rfl
  · exact bufferSide_occur _ _ _ _ _

theorem tget_endInstr (s : State) (n : Nat) (m : Mover) (eoc : Bool) (next : Nat) :
    tget (endInstr s n m eoc next).movers n = some { m with state := .run, pc := BitVec.ofNat 23 next, ended := m.ended + 1 } := by
  unfold endInstr
  cases eoc
  · exact tget_tset_self _ _ _
  · refine (congrArg (tget · n) (?_ : _ = (setMov s n { m with state := .run, pc := BitVec.ofNat 23 next, ended := m.ended + 1 }).movers)).trans
      (tget_tset_self _ _ _)
    exact (congrArg State.movers (occurAt_onlyNoted _ _ _ _ _ _ _).eq_noteFields :)

section Finish

variable (s : State) (n : Nat) (m : Mover) {j : BurstJob} (hCons : j.cons = none) (hStore : j.store = none)

include hCons hStore

/-- The end of a job that stores neither a consumer word nor a CRC. -/
theorem finishJob_bare : finishJob s n m j =
    if m.prog then stepOn s n { m with job := none } j.eoc else setMov s n { m with job := none, setDone := true } := by
  unfold finishJob
  rw [hCons, hStore]
  rfl

theorem bufferSide_finishJob : bufferSide (finishJob s n m j) = bufferSide s := by
  rw [finishJob_bare s n m hCons hStore]
  split
  · exact bufferSide_endInstr _ _ _ _ _
  · rfl

theorem tget_finishJob : ∃ m', tget (finishJob s n m j).movers n = some m' ∧ m'.job = none ∧ m'.bursts = m.bursts := by
  rw [finishJob_bare s n m hCons hStore]
  split
  · exact ⟨_, tget_endInstr _ _ _ _ _, rfl, rfl⟩
  · exact ⟨_, tget_tset_self _ _ _, rfl, rfl⟩

theorem bufferSide_afterBurst : bufferSide (afterBurst s n m j) = bufferSide s := by
  unfold afterBurst
  extract_lets ended
  split
  · rfl
  · split
    · exact bufferSide_finishJob s n m hCons hStore
    · rfl

/-- After a written burst the job goes on, or has ended with its last one. -/
theorem tget_afterBurst (hKind : j.kind ≠ .check) (hGoing : j.stopping = false) :
    ∃ m', tget (afterBurst s n m j).movers n = some m' ∧ m'.bursts = m.bursts ∧
      m'.job = if j.written < burstsOf j then some j else none := by
  have hBranch : afterBurst s n m j = if burstsOf j ≤ j.written then finishJob s n m j else setMov s n { m with job := some j } := by
    unfold afterBurst
    cases hK : j.kind with
    | check => exact absurd hK hKind
    | move => simp only [hGoing, Bool.false_and, Bool.false_eq_true, if_false, decide_eq_true_eq]
    | fill => simp only [hGoing, Bool.false_and, Bool.false_eq_true, if_false, decide_eq_true_eq]
  rw [hBranch]
  by_cases hEnd : burstsOf j ≤ j.written
  · obtain ⟨m', hMover, hJob, hBursts⟩ := tget_finishJob s n m hCons hStore
    rw [if_pos hEnd, if_neg (Nat.not_lt.2 hEnd)]
    exact ⟨m', hMover, hBursts, hJob⟩
  · rw [if_neg hEnd, if_pos (Nat.not_le.1 hEnd)]
    exact ⟨_, tget_tset_self _ _ _, rfl, rfl⟩

end Finish

/-! ### A burst's bytes in memory -/

/-- Bytes placed by position: each position's own byte, past an address. -/
def placeAt (s : State) (dst : Nat) (f : Nat → Byte) (l : List Nat) : State := placeBytes s dst (l.map fun i => (i, f i))

theorem memSet_eq (s : State) (a : Nat) (b : Byte) :
    memSet s a b = { s with mem := (memSet s a b).mem, badMem := (memSet s a b).badMem } := by
  unfold memSet
  split <;> rfl

/-- What places the bytes of a burst leaves alone. -/
def aroundBytes (s : State) : Nat × List Nat × List (Nat × W64) × Tbl Region := (s.powers, s.retired, s.regs, s.regions)

theorem aroundBytes_placeBytes (s : State) (dst : Nat) (l : List (Nat × Byte)) : aroundBytes (placeBytes s dst l) = aroundBytes s := by
  refine foldl_kept aroundBytes _ (fun u x => ?_) l s
  split
  · rfl
  · rw [memSet_eq]; rfl

theorem isGone_placeBytes (s : State) (dst : Nat) (l : List (Nat × Byte)) (x : Nat) : isGone (placeBytes s dst l) x = isGone s x :=
  isGone_congr (congrArg (·.2.1) (aroundBytes_placeBytes s dst l) :) x

theorem memGet_placeBytes_outside (s : State) (dst : Nat) {l : List (Nat × Byte)} {x : Nat} (h : ∀ y ∈ l, dst + y.1 ≠ x) :
    memGet (placeBytes s dst l) x = memGet s x := by
  unfold placeBytes
  induction l generalizing s with
  | nil => rfl
  | cons y l ih =>
    obtain ⟨hHead, hTail⟩ := List.forall_mem_cons.1 h
    rw [List.foldl_cons, ih _ hTail]
    split
    · rfl
    · exact memGet_memSet_ne s y.2 hHead.symm

theorem parityBad_memSet_ne (s : State) {a x : Nat} (b : Byte) (h : x ≠ a) : parityBad (memSet s a b) x = parityBad s x := by
  unfold memSet
  split
  · unfold parityBad
    simp only [tget_tset_ne _ _ h, List.contains_eq_mem, List.mem_erase_of_ne h]
  · rfl

theorem parityBad_placeBytes_outside (s : State) (dst : Nat) {l : List (Nat × Byte)} {x : Nat} (h : ∀ y ∈ l, dst + y.1 ≠ x) :
    parityBad (placeBytes s dst l) x = parityBad s x := by
  unfold placeBytes
  induction l generalizing s with
  | nil => rfl
  | cons y l ih =>
    obtain ⟨hHead, hTail⟩ := List.forall_mem_cons.1 h
    rw [List.foldl_cons, ih _ hTail]
    split
    · rfl
    · exact parityBad_memSet_ne s y.2 hHead.symm

/-- Each position placed holds its byte, where its page stands. -/
theorem memGet_placeAt (s : State) (dst : Nat) (f : Nat → Byte) {l : List Nat} (hFit : ∀ i ∈ l, dst + i < 2 ^ 23)
    (hStands : ∀ i ∈ l, isGone s (dst + i) = false) {x : Nat} (hx : x ∈ l) : memGet (placeAt s dst f l) (dst + x) = f x := by
  unfold placeAt placeBytes
  induction l generalizing s with
  | nil => cases hx
  | cons i l ih =>
    obtain ⟨hFitHead, hFitTail⟩ := List.forall_mem_cons.1 hFit
    obtain ⟨hHead, hTail⟩ := List.forall_mem_cons.1 hStands
    rw [List.map_cons, List.foldl_cons, if_neg (by rw [hHead]; exact Bool.false_ne_true)]
    by_cases hLater : x ∈ l
    · refine ih _ hFitTail (fun k hk => ?_) hLater
      exact (isGone_congr (congrArg State.retired (memSet_eq _ _ _) :) _).trans (hTail k hk)
    · have hHere : x = i := (List.mem_cons.1 hx).resolve_right hLater
      have hRest : memGet (placeBytes (memSet s (dst + i) (f i)) dst (l.map fun i => (i, f i))) (dst + x) =
          memGet (memSet s (dst + i) (f i)) (dst + x) := by
        refine memGet_placeBytes_outside _ _ fun y hy => ?_
        obtain ⟨k, hk, rfl⟩ := List.mem_map.1 hy
        exact fun hSame => hLater ((Nat.add_left_cancel hSame) ▸ hk)
      exact hRest.trans (hHere ▸ memGet_memSet_self s (f i) hFitHead)

/-! ### The places of a burst -/

theorem mem_burstBytes {j : BurstJob} {b i : Nat} : i ∈ burstBytes j b ↔ burstLo j b ≤ i ∧ i < burstHi j b := by
  unfold burstBytes
  simp only [List.mem_map, List.mem_range]
  constructor
  · rintro ⟨k, hk, rfl⟩
    omega
  · intro h
    exact ⟨i - burstLo j b, by omega, by omega⟩

theorem burstBytes_lt {j : BurstJob} {b i : Nat} (h : i ∈ burstBytes j b) : i < j.len :=
  Nat.lt_of_lt_of_le (mem_burstBytes.1 h).2 (Nat.min_le_left _ _)

/-- The bursts lie one behind the other. -/
theorem lt_burstLo_succ {j : BurstJob} {b x : Nat} (hx : x < j.len) :
    x < burstLo j (b + 1) ↔ x < burstLo j b ∨ x ∈ burstBytes j b := by
  rw [mem_burstBytes]
  unfold burstLo burstHi
  omega

theorem burstLo_zero (j : BurstJob) : burstLo j 0 = 0 := Nat.zero_sub _

theorem len_le_burstLo (j : BurstJob) : j.len ≤ burstLo j (burstsOf j) := by
  unfold burstLo burstsOf
  omega

theorem pairwise_lt_shifted (a k : Nat) : ((List.range k).map fun i => a + i).Pairwise (· < ·) :=
  List.pairwise_map.2 (List.pairwise_lt_range.imp fun h => Nat.add_lt_add_left h a)

/-- Two rising lists with the same members are the same list. -/
theorem eq_of_pairwise_lt {l k : List Nat} (hl : l.Pairwise (· < ·)) (hk : k.Pairwise (· < ·)) (h : ∀ x, x ∈ l ↔ x ∈ k) : l = k :=
  List.Perm.eq_of_pairwise (fun _ _ _ _ hLt hGt => absurd hLt (Nat.lt_asymm hGt)) hl hk
    ((List.perm_ext_iff_of_nodup (hl.imp Nat.ne_of_lt) (hk.imp Nat.ne_of_lt)).2 h)

/-- Without SWAP the places a burst writes are its own. -/
theorem swappedPlaces_plain {j : BurstJob} (h : j.swap = 0) (b : Nat) :
    (((List.range (burstHi j b - burstLo j b + 2 * swapUnit j.swap)).map fun i => burstLo j b - swapUnit j.swap + i).filter fun d =>
      decide (burstLo j b ≤ swapIndex j.swap d) && decide (swapIndex j.swap d < burstHi j b) && decide (d < j.len)) =
    burstBytes j b := by
  refine eq_of_pairwise_lt ((pairwise_lt_shifted _ _).filter _) (pairwise_lt_shifted _ _) fun x => ?_
  have hHi : burstHi j b ≤ j.len := Nat.min_le_left _ _
  have hUnit : swapUnit j.swap = 1 := by rw [h]; rfl
  have hIndex : swapIndex j.swap x = x := by rw [h]; rfl
  simp only [List.mem_filter, hIndex, hUnit, Bool.and_eq_true, decide_eq_true_eq]
  refine Iff.trans ?_ mem_burstBytes.symm
  simp only [List.mem_map, List.mem_range]
  constructor
  · rintro ⟨-, ⟨hLo, hLt⟩, -⟩
    exact ⟨hLo, hLt⟩
  · rintro ⟨hLo, hLt⟩
    exact ⟨⟨x - (burstLo j b - 1), by omega, by omega⟩, ⟨hLo, hLt⟩, by omega⟩

theorem swappedBytes_plain {j : BurstJob} (h : j.swap = 0) (b : Nat) (f : Nat → Byte) :
    swappedBytes j b ((burstBytes j b).map f) = (burstBytes j b).map fun i => (i, f i) := by
  unfold swappedBytes
  extract_lets u lo hi
  rw [swappedPlaces_plain h b]
  refine List.map_congr_left fun d hd => ?_
  obtain ⟨hLo, hHi⟩ := mem_burstBytes.1 hd
  have hIndex : swapIndex j.swap d = d := by rw [h]; rfl
  have hFit : d - burstLo j b < burstHi j b - burstLo j b := by omega
  rw [hIndex]
  refine congrArg (Prod.mk d) ?_
  simp only [burstBytes, List.map_map, List.getD_eq_getElem?_getD, List.getElem?_map, List.getElem?_range hFit, Option.map_some,
    Option.getD_some, Function.comp_apply, lo]
  rw [Nat.add_sub_cancel' hLo]

/-! ### Writing bursts in turn -/

/-- The first bytes of a destination hold what they are to hold; everything outside it stands as it was. -/
structure BytesWritten (s : State) (dst len : Nat) (f : Nat → Byte) (upTo : Nat) (t : State) : Prop where
  inside : ∀ x, x < len → x < upTo → memGet t (dst + x) = f x
  outside : ∀ x, (x < dst ∨ dst + len ≤ x) → memGet t x = memGet s x
  parity : ∀ x, (x < dst ∨ dst + len ≤ x) → parityBad t x = parityBad s x
  retired : t.retired = s.retired
  regs : t.regs = s.regs
  regions : t.regions = s.regions

theorem bytesWritten_refl (s : State) (dst len : Nat) (f : Nat → Byte) : BytesWritten s dst len f 0 s :=
  ⟨fun _ _ h => absurd h (Nat.not_lt_zero _), fun _ _ => rfl, fun _ _ => rfl, rfl, rfl, rfl⟩

section Written

variable {s t u : State} {dst len upTo : Nat} {f : Nat → Byte} (h : BytesWritten s dst len f upTo t)

include h

theorem BytesWritten.of_bufferSide (hu : bufferSide u = bufferSide t) : BytesWritten s dst len f upTo u where
  inside x hx hUp := (memGet_of_bufferSide hu _).trans (h.inside x hx hUp)
  outside x hx := (memGet_of_bufferSide hu _).trans (h.outside x hx)
  parity x hx := (parityBad_of_bufferSide hu _).trans (h.parity x hx)
  retired := (retired_of_bufferSide hu).trans h.retired
  regs := (regs_of_bufferSide hu).trans h.regs
  regions := (regions_of_bufferSide hu).trans h.regions

end Written

/-- Placing a burst takes the written bytes one burst further. -/
theorem BytesWritten.place {s t : State} {j : BurstJob} {b : Nat} {f : Nat → Byte}
    (h : BytesWritten s j.dst j.len f (burstLo j b) t) (hFit : j.dst + j.len ≤ 2 ^ 23)
    (hStands : ∀ x, x < j.len → isGone s (j.dst + x) = false) :
    BytesWritten s j.dst j.len f (burstLo j (b + 1)) (placeAt t j.dst f (burstBytes j b)) := by
  have hAround := aroundBytes_placeBytes t j.dst ((burstBytes j b).map fun i => (i, f i))
  have hApart : ∀ x, (x < j.dst ∨ j.dst + j.len ≤ x) → ∀ y ∈ (burstBytes j b).map fun i => (i, f i), j.dst + y.1 ≠ x := by
    intro x hx y hy
    obtain ⟨i, hi, rfl⟩ := List.mem_map.1 hy
    have hLt := burstBytes_lt hi
    dsimp only
    omega
  refine ⟨fun x hx hUp => ?_, fun x hx => ?_, fun x hx => ?_, ?_, ?_, ?_⟩
  · by_cases hNow : x ∈ burstBytes j b
    · refine memGet_placeAt t j.dst f (fun i hi => ?_) (fun i hi => ?_) hNow
      · have hLt := burstBytes_lt hi
        omega
      · exact (isGone_congr h.retired _).trans (hStands i (burstBytes_lt hi))
    · refine (memGet_placeBytes_outside t j.dst fun y hy => ?_).trans
        (h.inside x hx (((lt_burstLo_succ hx).1 hUp).resolve_right hNow))
      obtain ⟨i, hi, rfl⟩ := List.mem_map.1 hy
      exact fun hSame => hNow (Nat.add_left_cancel hSame ▸ hi)
  · exact (memGet_placeBytes_outside t j.dst (hApart x hx)).trans (h.outside x hx)
  · exact (parityBad_placeBytes_outside t j.dst (hApart x hx)).trans (h.parity x hx)
  · exact (congrArg (·.2.1) hAround :).trans h.retired
  · exact (congrArg (·.2.2.1) hAround :).trans h.regs
  · exact (congrArg (·.2.2.2) hAround :).trans h.regions

/-- A mover whose job has come to its k-th burst, or has ended. -/
def AtBurst (n : Nat) (job : Nat → BurstJob) (bursts : W32) (last k : Nat) (t : State) : Prop :=
  ∃ m, tget t.movers n = some m ∧ m.bursts = bursts + BitVec.ofNat 32 k ∧ m.job = if k < last then some (job k) else none

section Grant

variable {t : State} {n : Nat} {m : Mover} {j : BurstJob} (hN : n < 16) (hMover : tget t.movers n = some m) (hJob : m.job = some j)

include hN hMover hJob

theorem grantedBurst_write : grantedBurst t true n = writeBurst t n m j := by
  unfold grantedBurst
  rw [if_neg (by omega), hMover]
  dsimp only
  rw [hJob]
  rfl

theorem grantedBurst_read : grantedBurst t false n = readBurst t n m j := by
  unfold grantedBurst
  rw [if_neg (by omega), hMover]
  dsimp only
  rw [hJob]
  rfl

end Grant

/-- The job after one more written burst. -/
def burstDone (j : BurstJob) : BurstJob := { j with written := j.written + 1 }

section Put

variable (t : State) (n : Nat) (m : Mover) {j : BurstJob} (f : Nat → Byte) (hKind : j.kind ≠ .check) (hGoing : j.stopping = false)
  (hCons : j.cons = none) (hStore : j.store = none) (hStands : ∀ x, x < j.len → isGone t (j.dst + x) = false)

include hStands

theorem putBurst_eq : ∃ c, putBurst t n m j ((burstBytes j j.written).map fun i => (i, f i)) =
    afterBurst (placeAt t j.dst f (burstBytes j j.written)) n { m with crc := c, bursts := m.bursts + 1 } (burstDone j) := by
  have hNone : noteGone t n m j (((burstBytes j j.written).map fun i => (i, f i)).map fun x => j.dst + x.1) = (t, j) := by
    refine noteGone_of_present t n m j fun a ha => ?_
    obtain ⟨y, hy, rfl⟩ := List.mem_map.1 ha
    obtain ⟨i, hi, rfl⟩ := List.mem_map.1 hy
    exact hStands i (burstBytes_lt hi)
  unfold putBurst
  rw [hNone]
  exact ⟨_, rfl⟩

include hCons hStore

theorem bufferSide_putBurst : bufferSide (putBurst t n m j ((burstBytes j j.written).map fun i => (i, f i))) =
    bufferSide (placeAt t j.dst f (burstBytes j j.written)) := by
  obtain ⟨c, hPut⟩ := putBurst_eq t n m f hStands
  rw [hPut]
  exact bufferSide_afterBurst _ _ _ hCons hStore

include hKind hGoing

theorem tget_putBurst : ∃ m', tget (putBurst t n m j ((burstBytes j j.written).map fun i => (i, f i))).movers n = some m' ∧
    m'.bursts = m.bursts + 1 ∧ m'.job = if j.written + 1 < burstsOf j then some (burstDone j) else none := by
  obtain ⟨c, hPut⟩ := putBurst_eq t n m f hStands
  rw [hPut]
  exact tget_afterBurst _ _ _ (j := burstDone j) hCons hStore hKind hGoing

end Put

/-- What holds after no step and is carried over each holds after all. -/
theorem foldl_range_reaches {P : Nat → State → Prop} {g : State → State} {s : State} (last : Nat) (hStart : P 0 s)
    (hStep : ∀ k t, k < last → P k t → P (k + 1) (g t)) : P last ((List.range last).foldl (fun t _ => g t) s) := by
  induction last with
  | zero => exact hStart
  | succ last ih =>
    rw [List.range_succ, List.foldl_append]
    exact hStep last _ (Nat.lt_succ_self last) (ih fun k t hk => hStep k t (Nat.lt_succ_of_lt hk))

/-- The bursts of a job, each written where it belongs, one after the other. -/
structure BurstsWritten (s : State) (n : Nat) (job : Nat → BurstJob) (f : Nat → Byte) (bursts : W32) (k : Nat) (t : State) : Prop where
  bytes : BytesWritten s (job 0).dst (job 0).len f (burstLo (job 0) k) t
  at_burst : AtBurst n job bursts (burstsOf (job 0)) k t

theorem BurstsWritten.whole {s t : State} {n : Nat} {job : Nat → BurstJob} {f : Nat → Byte} {bursts : W32}
    (h : BurstsWritten s n job f bursts (burstsOf (job 0)) t) : ∀ x, x < (job 0).len → memGet t ((job 0).dst + x) = f x :=
  fun x hx => h.bytes.inside x hx (Nat.lt_of_lt_of_le hx (len_le_burstLo (job 0)))

theorem bursts_succ (bursts : W32) (k : Nat) : bursts + BitVec.ofNat 32 k + 1 = bursts + BitVec.ofNat 32 (k + 1) :=
  (BitVec.add_assoc _ _ _).trans (congrArg (bursts + ·) (BitVec.ofNat_add (n := 32) k 1).symm)

/-! ### FILL (R405) -/

/-- A fill after its first k bursts. -/
def fillAt (j : BurstJob) (k : Nat) : BurstJob := { j with written := k }

section Fill

variable {s : State} {n : Nat} {j : BurstJob} (hN : n < 16) (hKind : j.kind = .fill) (hGoing : j.stopping = false)
  (hCons : j.cons = none) (hStore : j.store = none) (hFit : j.dst + j.len ≤ 2 ^ 23)
  (hStands : ∀ x, x < j.len → isGone s (j.dst + x) = false)

include hN hKind hGoing hCons hStore hFit hStands

theorem fill_step {bursts : W32} {k : Nat} {t : State} (hMore : k < burstsOf j)
    (h : BurstsWritten s n (fillAt j) (fun x => patByte j.pat (j.dst + x)) bursts k t) :
    BurstsWritten s n (fillAt j) (fun x => patByte j.pat (j.dst + x)) bursts (k + 1) (grantedBurst t true n) := by
  obtain ⟨m, hMover, hBursts, hJob⟩ := h.at_burst
  replace hJob := hJob.trans (if_pos hMore)
  have hStandsNow : ∀ x, x < j.len → isGone t (j.dst + x) = false := fun x hx =>
    (isGone_congr h.bytes.retired _).trans (hStands x hx)
  have hWrite : grantedBurst t true n =
      putBurst t n m (fillAt j k) ((burstBytes (fillAt j k) k).map fun i => (i, patByte j.pat (j.dst + i))) :=
    (grantedBurst_write hN hMover hJob).trans (if_pos hKind)
  rw [hWrite]
  constructor
  · exact (h.bytes.place hFit hStands).of_bufferSide
      (bufferSide_putBurst t n m (j := fillAt j k) (fun x => patByte j.pat (j.dst + x)) hCons hStore hStandsNow)
  · obtain ⟨m', hMover', hBursts', hJob'⟩ := tget_putBurst t n m (j := fillAt j k) (fun x => patByte j.pat (j.dst + x))
      (by rw [fillAt, hKind]; decide) hGoing hCons hStore hStandsNow
    refine ⟨m', hMover', ?_, hJob'⟩
    rw [hBursts', hBursts]
    exact bursts_succ bursts k

end Fill

theorem fillsWriteTheirPattern {s : State} {n : Nat} {m : Mover} (hN : n < 16) {j : BurstJob} (hMover : tget s.movers n = some m)
    (hJob : m.job = some j) (hKind : j.kind = .fill) (hFirst : j.written = 0) (hGoing : j.stopping = false) (hCons : j.cons = none)
    (hStore : j.store = none) (hFit : j.dst + j.len ≤ 2 ^ 23) (hLen : 0 < j.len)
    (hStands : ∀ x, x < j.len → isGone s (j.dst + x) = false) :
    let u := (List.range (burstsOf j)).foldl (fun u _ => grantedBurst u true n) s
    (∀ x, x < j.len → memGet u (j.dst + x) = patByte j.pat (j.dst + x)) ∧
    (∀ x, (x < j.dst ∨ j.dst + j.len ≤ x) → memGet u x = memGet s x) := by
  have hSome : 0 < burstsOf j := by unfold burstsOf; omega
  have hStart : BurstsWritten s n (fillAt j) (fun x => patByte j.pat (j.dst + x)) m.bursts 0 s := by
    refine ⟨?_, m, hMover, (BitVec.add_zero _).symm, ?_⟩
    · rw [burstLo_zero]
      exact bytesWritten_refl _ _ _ _
    · refine (hJob.trans ?_).trans (if_pos hSome).symm
      rw [fillAt, ← hFirst]
  have hEnd := foldl_range_reaches (burstsOf j) hStart fun k t hMore h => fill_step hN hKind hGoing hCons hStore hFit hStands hMore h
  exact ⟨hEnd.whole, hEnd.bytes.outside⟩

/-! ### MOVE (R392-R395) -/

theorem mem_of_isGone {s : State} {a x n : Nat} (h : retiredIn s a n = none) (hx : x < n) : isGone s (a + x) = false := by
  unfold retiredIn at h
  rw [if_neg (by omega)] at h
  have hNone : (s.retired.find? fun p => decide (a / 4096 ≤ p) && decide (p ≤ (a + n - 1) / 4096)) = none := by
    cases hFind : s.retired.find? fun p => decide (a / 4096 ≤ p) && decide (p ≤ (a + n - 1) / 4096) with
    | none => rfl
    | some p => rw [hFind] at h; cases h
  unfold isGone
  rw [List.contains_eq_mem, decide_eq_false_iff_not]
  intro hPage
  have hOut := List.find?_eq_none.1 hNone _ hPage
  simp only [Bool.and_eq_true, decide_eq_true_eq, not_and] at hOut
  exact hOut (Nat.div_le_div_right (Nat.le_add_right a x)) (Nat.div_le_div_right (by omega))

/-- A place that passes the check lies in no retired page. -/
theorem stands_of_checkOperand {s : State} {m : Mover} {w : W64} {n a : Nat} {wr : Bool} (h : checkOperand s m w n wr = .ok a) :
    ∀ x, x < n → isGone s (a + x) = false := by
  unfold checkOperand checkMov at h
  split at h
  · cases h
  · next b hRegion =>
    cases h
    obtain ⟨r, -, -, hBytes⟩ := (checkRegion_eq_ok_iff s _ _ _ _ _ _).1 hRegion
    obtain ⟨-, hLive, rfl⟩ := (checkBytes_eq_ok_iff s _ _ _).1 hBytes
    exact fun x hx => mem_of_isGone hLive hx

theorem good_of_failing_nil {s : State} {a n : Nat} (h : failing s a n = []) : ∀ x, x < n → parityBad s (a + x) = false := by
  induction n generalizing a with
  | zero => exact fun x hx => absurd hx (Nat.not_lt_zero x)
  | succ n ih =>
    unfold failing at h
    split at h
    · cases h
    · next hGood =>
      intro x hx
      cases x with
      | zero => exact Bool.eq_false_iff.2 hGood
      | succ x =>
        have hNext := ih h x (by omega)
        rwa [Nat.add_right_comm, Nat.add_assoc] at hNext

section Read

variable (t : State) (n : Nat) (m : Mover) {j : BurstJob} {a : Nat} (hKind : j.kind = .move) (hSrc : j.src = [(a, j.len)])
  (hStands : ∀ x, x < j.len → isGone t (a + x) = false) (hGood : ∀ x, x < j.len → parityBad t (a + x) = false)

include hSrc

theorem sourceAddr {i : Nat} (h : i < j.len) : spanAddr j.src i = a + i := by
  rw [hSrc]
  exact if_pos h

/-- The lane with a burst in it. -/
def laneFilled (t : State) (n : Nat) (j : BurstJob) (vals : List Byte) : State :=
  { t with cwy := tset t.cwy (laneSlot n j.read) vals
           cwyBad := t.cwyBad.filter fun x => !(((burstBytes j j.read).map (laneAddr n j j.read)).contains x) }

include hKind hStands hGood

theorem readBurst_good : readBurst t n m j =
    setMov (laneFilled t n j ((burstBytes j j.read).map fun i => memGet t (a + i))) n { m with job := some { j with read := j.read + 1 } } := by
  have hAddrs : (burstBytes j j.read).map (spanAddr j.src) = (burstBytes j j.read).map fun i => a + i :=
    List.map_congr_left fun i hi => sourceAddr hSrc (burstBytes_lt hi)
  have hIn : ∀ x ∈ (burstBytes j j.read).map fun i => a + i, isGone t x = false ∧ parityBad t x = false := by
    intro x hx
    obtain ⟨i, hi, rfl⟩ := List.mem_map.1 hx
    exact ⟨hStands i (burstBytes_lt hi), hGood i (burstBytes_lt hi)⟩
  have hNone : noteGone t n m j ((burstBytes j j.read).map fun i => a + i) = (t, j) :=
    noteGone_of_present t n m j fun x hx => (hIn x hx).1
  have hBad : (((burstBytes j j.read).map fun i => a + i).filter fun x => parityBad t x && !(isGone t x)) = [] :=
    List.filter_eq_nil_iff.2 fun x hx => by rw [(hIn x hx).2]; exact Bool.false_ne_true
  have hVals : (((burstBytes j j.read).map fun i => a + i).map fun x => if isGone t x then 0 else memGet t x) =
      (burstBytes j j.read).map fun i => memGet t (a + i) := by
    rw [List.map_map]
    refine List.map_congr_left fun i hi => ?_
    exact if_neg (by rw [hStands i (burstBytes_lt hi)]; exact Bool.false_ne_true)
  unfold readBurst
  simp only [hAddrs, hNone, hBad, hVals, hKind, List.isEmpty_nil, Bool.not_true, Bool.false_eq_true, if_false, reduceCtorEq]
  rfl

end Read

/-- A burst read into the lane is written from it. -/
theorem writeBurst_fromLane (t : State) (n : Nat) (m : Mover) {j k : BurstJob} (f : Nat → Byte) (hKind : k.kind = .move)
    (hSwap : k.swap = 0) (hNext : j.read = k.written) (hStart : j.start = k.start) (hLen : j.len = k.len) :
    writeBurst (setMov (laneFilled t n j ((burstBytes k k.written).map f)) n m) n m k =
      putBurst (setMov (laneFilled t n j ((burstBytes k k.written).map f)) n m) n m k ((burstBytes k k.written).map fun i => (i, f i)) := by
  have hBytes : burstBytes j j.read = burstBytes k k.written := by
    unfold burstBytes burstLo burstHi
    rw [hNext, hStart, hLen]
  have hAddr : laneAddr n j j.read = laneAddr n k k.written := by
    funext i
    unfold laneAddr
    rw [hNext, hStart]
  have hBad : ((burstBytes k k.written).map (laneAddr n k k.written)).filter
      (setMov (laneFilled t n j ((burstBytes k k.written).map f)) n m).cwyBad.contains = [] := by
    refine List.filter_eq_nil_iff.2 fun x hx hBad => ?_
    have hKept := (List.mem_filter.1 (List.contains_iff_mem.1 hBad)).2
    rw [hBytes, hAddr, List.contains_iff_mem.2 hx] at hKept
    cases hKept
  have hLane : tgetD (setMov (laneFilled t n j ((burstBytes k k.written).map f)) n m).cwy (laneSlot n k.written) [] =
      (burstBytes k k.written).map f := by
    rw [← hNext]
    exact tgetD_tset_self _ _ _ _
  unfold writeBurst
  simp only [hKind, reduceCtorEq, if_false]
  rw [hBad, hLane, swappedBytes_plain hSwap]
  rfl

/-- A move after its first k bursts, each read and written. -/
def moveAt (j : BurstJob) (k : Nat) : BurstJob := { j with read := k, written := k }

theorem moveAt_start {j : BurstJob} (hRead : j.read = 0) (hFirst : j.written = 0) : moveAt j 0 = j := by
  cases j
  subst hRead hFirst
  rfl

/-- A move with its next burst in the lane. -/
def burstRead (j : BurstJob) (k : Nat) : BurstJob := { moveAt j k with read := k + 1 }

section Move

variable {s : State} {n : Nat} {j : BurstJob} {a : Nat} (hN : n < 16) (hKind : j.kind = .move) (hGoing : j.stopping = false)
  (hCons : j.cons = none) (hStore : j.store = none) (hSwap : j.swap = 0) (hSrc : j.src = [(a, j.len)]) (hFit : j.dst + j.len ≤ 2 ^ 23)
  (hApart : a + j.len ≤ j.dst ∨ j.dst + j.len ≤ a) (hStands : ∀ x, x < j.len → isGone s (j.dst + x) = false)
  (hSource : ∀ x, x < j.len → isGone s (a + x) = false) (hGood : ∀ x, x < j.len → parityBad s (a + x) = false)

include hN hKind hGoing hCons hStore hSwap hSrc hFit hApart hStands hSource hGood

theorem move_step {bursts : W32} {k : Nat} {t : State} (hMore : k < burstsOf j)
    (h : BurstsWritten s n (moveAt j) (fun x => memGet s (a + x)) bursts k t) :
    BurstsWritten s n (moveAt j) (fun x => memGet s (a + x)) bursts (k + 1) (grantedBurst (grantedBurst t false n) true n) := by
  obtain ⟨m, hMover, hBursts, hJob⟩ := h.at_burst
  replace hJob := hJob.trans (if_pos hMore)
  have hOut : ∀ x, x < j.len → a + x < j.dst ∨ j.dst + j.len ≤ a + x := by omega
  have hVals : ((burstBytes (moveAt j k) k).map fun i => memGet t (a + i)) = (burstBytes (moveAt j k) k).map fun i => memGet s (a + i) :=
    List.map_congr_left fun i hi => h.bytes.outside _ (hOut i (burstBytes_lt hi))
  have hRead := (grantedBurst_read hN hMover hJob).trans (readBurst_good t n m (j := moveAt j k) hKind hSrc
    (fun x hx => (isGone_congr h.bytes.retired _).trans (hSource x hx))
    (fun x hx => (h.bytes.parity _ (hOut x hx)).trans (hGood x hx)))
  rw [show (moveAt j k).read = k from rfl, hVals] at hRead
  have hStandsNow : ∀ x, x < j.len → isGone (grantedBurst t false n) (j.dst + x) = false := fun x hx => by
    rw [hRead]
    exact (isGone_congr h.bytes.retired _).trans (hStands x hx)
  have hSide : bufferSide (grantedBurst t false n) = bufferSide t := by rw [hRead]; rfl
  have hNow : tget (grantedBurst t false n).movers n = some { m with job := some (burstRead j k) } := by
    rw [hRead]
    exact tget_tset_self _ _ _
  have hWrite : grantedBurst (grantedBurst t false n) true n = putBurst (grantedBurst t false n) n
      { m with job := some (burstRead j k) } (burstRead j k)
      ((burstBytes (burstRead j k) k).map fun i => (i, memGet s (a + i))) := by
    refine (grantedBurst_write hN hNow rfl).trans ?_
    rw [hRead]
    exact writeBurst_fromLane t n _ (j := moveAt j k) (k := burstRead j k) (fun i => memGet s (a + i))
      hKind hSwap rfl rfl rfl
  rw [hWrite]
  constructor
  · exact ((h.bytes.of_bufferSide hSide).place hFit hStands).of_bufferSide
      (bufferSide_putBurst _ n _ (j := burstRead j k) (fun x => memGet s (a + x)) hCons hStore hStandsNow)
  · obtain ⟨m', hMover', hBursts', hJob'⟩ := tget_putBurst (grantedBurst t false n) n
      { m with job := some (burstRead j k) } (j := burstRead j k)
      (fun x => memGet s (a + x)) (by rw [burstRead, moveAt, hKind]; decide) hGoing hCons hStore hStandsNow
    refine ⟨m', hMover', ?_, hJob'⟩
    rw [hBursts', hBursts]
    exact bursts_succ bursts k

theorem movesCopy {m : Mover} (hMover : tget s.movers n = some m) (hJob : m.job = some j) (hRead : j.read = 0) (hFirst : j.written = 0)
    (hLen : 0 < j.len) : BurstsWritten s n (moveAt j) (fun x => memGet s (a + x)) m.bursts (burstsOf j)
      ((List.range (burstsOf j)).foldl (fun u _ => grantedBurst (grantedBurst u false n) true n) s) := by
  have hSome : 0 < burstsOf j := by unfold burstsOf; omega
  have hStart : BurstsWritten s n (moveAt j) (fun x => memGet s (a + x)) m.bursts 0 s := by
    refine ⟨?_, m, hMover, (BitVec.add_zero _).symm, ?_⟩
    · rw [burstLo_zero]
      exact bytesWritten_refl _ _ _ _
    · exact (hJob.trans (congrArg some (moveAt_start hRead hFirst).symm)).trans (if_pos hSome).symm
  exact foldl_range_reaches (burstsOf j) hStart fun k t hMore h =>
    move_step hN hKind hGoing hCons hStore hSwap hSrc hFit hApart hStands hSource hGood hMore h

end Move

/-! ### Bursts of any job -/

section Any

variable {s : State} {n : Nat} {m : Mover} {j : BurstJob} (hCons : j.cons = none) (hStore : j.store = none)

include hCons hStore

theorem bufferBytes_afterBurst (s : State) (n : Nat) (m : Mover) : bufferBytes (afterBurst s n m j) = bufferBytes s :=
  bufferBytes_of_bufferSide (bufferSide_afterBurst s n m hCons hStore)

theorem bufferBytes_checkBurst (addrs bad : List Nat) (vals : List Byte) :
    bufferBytes (checkBurst s n m j addrs bad vals) = bufferBytes s := by
  unfold checkBurst
  exact (bufferBytes_afterBurst (j := { j with read := j.read + 1 }) hCons hStore _ _ _).trans (bufferBytes_noteFailing s 5 bad)

/-- Reading a burst writes no byte of memory. -/
theorem bufferBytes_readBurst : bufferBytes (readBurst s n m j) = bufferBytes s := by
  have hNote := bufferBytes_noteGone s n m j ((burstBytes j j.read).map (spanAddr j.src))
  have hTold := noteGone_job s n m j ((burstBytes j j.read).map (spanAddr j.src))
  unfold readBurst
  dsimp only
  generalize noteGone s n m j ((burstBytes j j.read).map (spanAddr j.src)) = p at hNote hTold ⊢
  obtain ⟨u, k⟩ := p
  have hCons' : k.cons = none := (congrArg BurstJob.cons hTold).trans hCons
  have hStore' : k.store = none := (congrArg BurstJob.store hTold).trans hStore
  refine Eq.trans ?_ hNote
  dsimp only
  split
  · exact bufferBytes_checkBurst hCons' hStore' _ _ _
  · split
    · exact (bufferBytes_movFault _ _ _ _ _).trans (bufferBytes_noteFailing u 5 _)
    · rfl

theorem memGet_putBurst_outside {l : List (Nat × Byte)} {x : Nat} (h : ∀ y ∈ l, j.dst + y.1 ≠ x) :
    memGet (putBurst s n m j l) x = memGet s x := by
  have hNote := bufferBytes_noteGone s n m j (l.map fun y => j.dst + y.1)
  have hTold := noteGone_job s n m j (l.map fun y => j.dst + y.1)
  unfold putBurst
  generalize noteGone s n m j (l.map fun y => j.dst + y.1) = p at hNote hTold ⊢
  obtain ⟨u, k⟩ := p
  have hCons' : k.cons = none := (congrArg BurstJob.cons hTold).trans hCons
  have hStore' : k.store = none := (congrArg BurstJob.store hTold).trans hStore
  have hDst : k.dst = j.dst := (congrArg BurstJob.dst hTold :)
  dsimp only
  calc memGet (afterBurst (placeBytes u k.dst l) n _ (burstDone k)) x
      = memGet (placeBytes u k.dst l) x := memGet_of_bufferSide (bufferSide_afterBurst _ _ _ (j := burstDone k) hCons' hStore') x
    _ = memGet u x := memGet_placeBytes_outside u k.dst fun y hy => hDst ▸ h y hy
    _ = memGet s x := memGet_congr (congrArg (·.1) hNote :) (congrArg (·.2) hNote :) x

/-- Writing a burst leaves every byte outside the job's destination. -/
theorem memGet_writeBurst_outside {x : Nat} (hx : x < j.dst ∨ j.dst + j.len ≤ x) : memGet (writeBurst s n m j) x = memGet s x := by
  unfold writeBurst
  extract_lets is bad
  split
  · refine memGet_putBurst_outside hCons hStore fun y hy => ?_
    obtain ⟨i, hi, rfl⟩ := List.mem_map.1 hy
    have hLt := burstBytes_lt hi
    dsimp only
    omega
  · split
    · have hFault := bufferBytes_laneFault s n m bad
      exact memGet_congr (congrArg (·.1) hFault :) (congrArg (·.2) hFault :) x
    · refine memGet_putBurst_outside hCons hStore fun y hy => ?_
      unfold swappedBytes at hy
      obtain ⟨i, hi, rfl⟩ := List.mem_map.1 hy
      have hLt : i < j.len := by
        have hKept := (List.mem_filter.1 hi).2
        simp only [Bool.and_eq_true, decide_eq_true_eq] at hKept
        exact hKept.2
      dsimp only
      omega

end Any

/-! ### The start of a plain MOVE (R404) -/

theorem doMove_started {s : State} {n : Nat} {m : Mover} {src dst : W64} {len a b : Nat} (hLen : len ≠ 0) (hMost : len ≤ 8388608)
    (hSrcBits : xbitsOk src = true) (hDstBits : xbitsOk dst = true) (hSrcFlat : isRing src = false) (hDstFlat : isRing dst = false)
    (hSrc : checkOperand s m src len false = .ok a) (hDst : checkOperand s m dst len true = .ok b) :
    doMove s n m { src := src, dst := dst, len := len, swap := 0, crcacc := false, check := false } =
      .started s m (moveJob m { src := src, dst := dst, len := len, swap := 0, crcacc := false, check := false } [(a, len)] b none) := by
  have hGood : moveBad m { src := src, dst := dst, len := len, swap := 0, crcacc := false, check := false } = false := by
    have hUnit : len % swapUnit 0 = 0 := Nat.mod_one len
    simp only [moveBad, hLen, hUnit, hSrcBits, hDstBits, hSrcFlat, hDstFlat, Nat.not_lt.2 hMost, ne_eq, not_true_eq_false,
      decide_false, Bool.not_true, Bool.false_and, Bool.or_self]
  unfold doMove sourceSpans
  simp only [hGood, hSrcFlat, hSrc, hDst, Bool.false_eq_true, if_false]

/-- Settles O48: bursts lie one behind the other, so what has been written grows burst by burst to the whole. -/
theorem moveCopiesItsBytes : Obligations.MoveCopiesItsBytes := by
  intro s n m hN
  refine ⟨fun src dst len a b eoc hLen hMost hSrcBits hDstBits hSrcFlat hDstFlat hSrc hDst hFit hApart hReads => ?_,
    fun j hMover hJob hKind hFirst hGoing hCons hStore hFit hLen hStands =>
      fillsWriteTheirPattern hN hMover hJob hKind hFirst hGoing hCons hStore hFit hLen hStands,
    fun j hMover hJob hCons hStore => ⟨?_, fun x hx => ?_⟩⟩
  · refine ⟨doMove_started hLen hMost hSrcBits hDstBits hSrcFlat hDstFlat hSrc hDst, fun hMover => ?_⟩
    have hEnd := movesCopy (a := a) hN rfl rfl rfl rfl rfl rfl hFit hApart (stands_of_checkOperand hDst) (stands_of_checkOperand hSrc)
      (good_of_failing_nil hReads) hMover rfl rfl rfl (Nat.pos_of_ne_zero hLen)
    obtain ⟨m', hMover', hBursts, hJob⟩ := hEnd.at_burst
    exact ⟨hEnd.whole, hEnd.bytes.outside, hEnd.bytes.regs,
      hEnd.bytes.regions, m', hMover', hJob.trans (if_neg (Nat.lt_irrefl _)), hBursts⟩
  · rw [grantedBurst_read hN hMover hJob]
    exact (congrArg (·.1) (bufferBytes_readBurst hCons hStore) :)
  · rw [grantedBurst_write hN hMover hJob]
    exact memGet_writeBurst_outside hCons hStore hx

end Sys2Proof.Machine
end

section
/-! A sequencer runs a job; a cause or the watchdog stops it (R341-R343, R352, R355-R357). -/

namespace Sys2Proof.Machine

/-! ### A sequencer that runs no job is left alone -/

theorem foldl_stands {α : Type} {P : State → Prop} {g : State → α → State} (hStep : ∀ u a, P u → P (g u a)) (l : List α) {s : State}
    (h : P s) : P (l.foldl g s) := by
  induction l generalizing s with
  | nil => exact h
  | cons a l ih => exact ih (hStep s a h)

theorem seqOf_of_seqs {s t : State} (h : t.seqs = s.seqs) (n : Nat) : seqOf t n = seqOf s n := by
  unfold seqOf
  rw [h]

theorem seqOf_of_outsideQueues {s t : State} (h : outsideQueues t = outsideQueues s) (n : Nat) : seqOf t n = seqOf s n :=
  seqOf_of_seqs (congrArg State.seqs h :) n

/-- The sequencer of channel n stands as it is. -/
def SeqStands (n : Nat) (q : SeqSt) (s : State) : Prop := seqOf s n = q

section Stands

variable {n : Nat} {q : SeqSt} {s : State} (hRests : q.state ≠ 2) (h : SeqStands n q s)

include h

theorem seqStands_of_outsideQueues {t : State} (ht : outsideQueues t = outsideQueues s) : SeqStands n q t :=
  (seqOf_of_outsideQueues ht n).trans h

theorem seqStands_of_seqs {t : State} (ht : t.seqs = s.seqs) : SeqStands n q t := (seqOf_of_seqs ht n).trans h

theorem seqStands_harmlessEnter (cause sub : Nat) (r : W32) : SeqStands n q (harmlessEnter s cause sub r) := by
  refine seqStands_of_seqs h ?_
  unfold harmlessEnter
  dsimp only
  rw [occur_eq]
  rfl

theorem seqStands_dropSuspended : SeqStands n q (dropSuspended s) := by
  refine foldl_stands (fun u c hu => foldl_stands (fun v e hv => ?_) _ hu) _ h
  dsimp only
  split
  · exact hv
  · exact (seqStands_of_outsideQueues hv (outsideQueues_abortOp _ _ _) : SeqStands n q (abortOp v _ stABORTED))

include hRests

/-- A channel's stop ends a job; a sequencer that runs none stays. -/
theorem seqStands_stopChannel (c : Nat) : SeqStands n q (stopChannel s c) := by
  unfold stopChannel
  extract_lets f u v
  have hSeqs : v.seqs = s.seqs := by
    dsimp only [v, u]
    split <;> rfl
  have hv : SeqStands n q v := seqStands_of_seqs h hSeqs
  clear_value v
  split
  · next x hx =>
    split
    · next hJob =>
      have hOther : n ≠ c := by
        rintro rfl
        exact hRests (by rw [← hv, seqOf, tgetD, hx]; exact hJob)
      exact (tgetD_tset_ne _ _ _ hOther).trans hv
    · exact hv
  · exact hv

theorem seqStands_openFinish : SeqStands n q (openFinish s) := by
  have hStopped : SeqStands n q ((List.range 8).foldl (fun s c => if busyLuns s c = 0 then stopChannel s c else s) s) :=
    foldl_stands (fun u c hu => by split; exact seqStands_stopChannel hRests hu c; exact hu) _ h
  unfold openFinish
  generalize (List.range 8).foldl (fun s c => if busyLuns s c = 0 then stopChannel s c else s) s = u at hStopped ⊢
  exact hStopped

theorem seqStands_closeFinish : SeqStands n q (closeFinish s) := by
  have hStopped : SeqStands n q ((List.range 8).foldl stopChannel (abortAll s)) :=
    foldl_stands (P := SeqStands n q) (fun u c hu => seqStands_stopChannel hRests hu c) _ (seqStands_of_outsideQueues h (outsideQueues_abortAll s))
  unfold closeFinish
  dsimp only
  generalize (List.range 8).foldl stopChannel (abortAll s) = u at hStopped ⊢
  split
  · exact seqStands_of_seqs hStopped rfl
  · have hClosed : SeqStands n q { u with pmu := { u.pmu with finish := false } } := seqStands_of_seqs hStopped rfl
    exact seqStands_of_outsideQueues hClosed (outsideQueues_completeAll _)

theorem seqStands_stopFlash (l : List Nat) (w : Bool) : SeqStands n q (stopFlash s l w) := by
  have hAborted : SeqStands n q (dropSuspended (l.foldl (fun s c => stopChannel (abortChannel s c stABORTED) c) s)) :=
    seqStands_dropSuspended (foldl_stands (fun u c hu => seqStands_stopChannel hRests
      (seqStands_of_outsideQueues hu (outsideQueues_abortChannel u c stABORTED)) c) l h)
  unfold stopFlash
  dsimp only
  split
  · exact seqStands_openFinish hRests hAborted
  · exact seqStands_closeFinish hRests hAborted

theorem seqStands_machineCheck (blk : Nat) (p0 p1 : W32) (c : Nat) (parity : Bool) :
    SeqStands n q (machineCheck s blk p0 p1 (some c) parity) := by
  have hNoted : SeqStands n q (occur (if parity then occur s blk 0x601 p0 p1 else s) blk 0x602 p0 p1) := by
    refine seqStands_of_outsideQueues ?_ (outsideQueues_occur _ _ _ _ _)
    split
    · exact seqStands_of_outsideQueues h (outsideQueues_occur _ _ _ _ _)
    · exact h
  rw [machineCheck_some]
  exact seqStands_stopFlash hRests (seqStands_stopChannel hRests (seqStands_of_outsideQueues (seqStands_harmlessEnter hNoted _ _ _)
    (outsideQueues_abortChannel _ c stMCHECK)) c) [] true

end Stands

/-! ### Causes, the watchdog, the duplicated engine (R342, R355-R357) -/

/-- A sequencer after a machine check. -/
def seqChecked (s : State) (n cause addr : Nat) : SeqSt :=
  { seqOf s n with
    state := 3
    mck := put cause 4 0 ||| put (seqOf s n).job.toNat 4 4 ||| put addr 14 8 ||| put (32 * n + (seqOf s n).jobLun.toNat) 8 24 }

theorem seqCheck_eq (s : State) (n cause addr : Nat) : seqCheck s n cause addr =
    machineCheck (setSeq s n (seqChecked s n cause addr)) (blkSEQ + n) (put32 n 3 0 ||| put32 cause 4 4 ||| put32 addr 14 8)
      (put32 (seqOf s n).job.toNat 4 0 ||| put32 (32 * n + (seqOf s n).jobLun.toNat) 8 8) (some n) (decide (cause ≤ 2)) := rfl

theorem seqChecked_state (s : State) (n cause addr : Nat) : (seqChecked s n cause addr).state = 3 := rfl

theorem seqOf_seqCheck (s : State) (n cause addr : Nat) : seqOf (seqCheck s n cause addr) n = seqChecked s n cause addr := by
  have hRests : (seqChecked s n cause addr).state ≠ 2 := by rw [seqChecked_state]; decide
  have hStands : SeqStands n (seqChecked s n cause addr) (setSeq s n (seqChecked s n cause addr)) := seqOf_setSeq_self _ _ _
  rw [seqCheck_eq]
  exact seqStands_machineCheck hRests hStands _ _ _ _ _

theorem seqCheck_harmless (s : State) (n cause addr : Nat) : (seqCheck s n cause addr).pmu.harmless = true := by
  rw [seqCheck_eq]
  exact machineCheck_harmless _ _ _ _ _ _

theorem lockstepCheck_harmless (s : State) (n : Nat) : (lockstepCheck s n).pmu.harmless = true := by
  unfold lockstepCheck
  dsimp only
  exact machineCheck_harmless _ _ _ _ _ _

theorem exec_watchdog {s : State} {ch : BitVec 3} (hJob : (seqOf s ch.toNat).state = 2)
    (hOver : (seqOf s ch.toNat).since + 80000 ≤ latest s) :
    exec (.watchdog ch) s = .next (seqCheck s ch.toNat 5 (seqOf s ch.toNat).pc.toNat) :=
  next_congr (if_pos (by rw [decide_eq_true hJob, decide_eq_true hOver]; rfl))

/-! ### Jobs (R341-R343, R352) -/

/-- A sequencer with a job dispatched to it. -/
def seqDispatched (s : State) (n : Nat) (job : BitVec 4) (lun : BitVec 5) (given : List Byte) : SeqSt :=
  { seqOf s n with
    state := 2, job := job, jobLun := lun, pc := BitVec.ofNat 14 (entryPoint s job.toNat), stack := []
    k0 := 0, k1 := 0, jobs := (seqOf s n).jobs + 1, since := cycles s, held := 0
    latch := fillLatch s n job.toNat lun.toNat given }

/-- The run of a job from its dispatch. -/
def jobRun (s : State) (n : Nat) (job : BitVec 4) (lun : BitVec 5) (given : List Byte) (bus : List BusSample) : State × JobRun :=
  runJob (setSeq s n (seqDispatched s n job lun given))
    { n := n, lun := lun.toNat, latch := (seqDispatched s n job lun given).latch } { q := seqDispatched s n job lun given } bus

section Dispatch

variable (s : State) (n : Nat) (job : BitVec 4) (lun : BitVec 5) (given : List Byte) (bus : List BusSample)

theorem dispatchJob_runs (h : (jobRun s n job lun given bus).2.check = none) : dispatchJob s n job lun given bus =
    setSeq (jobRun s n job lun given bus).1 n (if (jobRun s n job lun given bus).2.done then
      { (jobRun s n job lun given bus).2.q with state := 1 }
      else { (jobRun s n job lun given bus).2.q with held := (jobRun s n job lun given bus).2.held }) := by
  unfold dispatchJob
  unfold jobRun seqDispatched at h ⊢
  dsimp only
  rw [h]

theorem dispatchJob_checked {cause a : Nat} (h : (jobRun s n job lun given bus).2.check = some (cause, a)) :
    dispatchJob s n job lun given bus =
      seqCheck (setSeq (jobRun s n job lun given bus).1 n (jobRun s n job lun given bus).2.q) n cause a := by
  unfold dispatchJob
  unfold jobRun seqDispatched at h ⊢
  dsimp only
  rw [h]

end Dispatch

theorem exec_jobDispatch {s : State} {ch : BitVec 3} {job : BitVec 4} {lun : BitVec 5} (given : List Byte) (bus : List BusSample)
    (hLive : live s = true) (hIdle : (seqOf s ch.toNat).state = 1)
    (hChannel : ((fchOf s ch.toNat).harmless && (fchOf s ch.toNat).ended) = false)
    (hAllowed : jobAllowed s ch.toNat job.toNat lun.toNat = true) :
    exec (.jobDispatch ch job lun given bus true) s = .next (dispatchJob s ch.toNat job lun given bus) ∧
    exec (.jobDispatch ch job lun given bus false) s = .next (lockstepCheck (dispatchJob s ch.toNat job lun given bus) ch.toNat) := by
  have hGoes : ¬ (!(live s) || decide ((seqOf s ch.toNat).state ≠ 1) || ((fchOf s ch.toNat).harmless && (fchOf s ch.toNat).ended) ||
      !(jobAllowed s ch.toNat job.toNat lun.toNat)) = true := by
    simp only [hLive, hIdle, hChannel, hAllowed, Bool.not_true, ne_eq, not_true_eq_false, decide_false, Bool.or_self,
      Bool.false_eq_true, not_false_eq_true]
  exact ⟨next_congr ((if_neg hGoes).trans (if_pos rfl)), next_congr ((if_neg hGoes).trans (if_neg Bool.false_ne_true))⟩

theorem jobsRun {s : State} {ch : BitVec 3} {job : BitVec 4} {lun : BitVec 5} {given : List Byte} {bus : List BusSample} {u : State}
    (hExec : exec (.jobDispatch ch job lun given bus true) s = .next u)
    (hDispatch : u = dispatchJob s ch.toNat job lun given bus) :
    ((jobRun s ch.toNat job lun given bus).2.check = none → exec (.jobDispatch ch job lun given bus true) s =
      .next (setSeq (jobRun s ch.toNat job lun given bus).1 ch.toNat (if (jobRun s ch.toNat job lun given bus).2.done then
        { (jobRun s ch.toNat job lun given bus).2.q with state := 1 }
        else { (jobRun s ch.toNat job lun given bus).2.q with held := (jobRun s ch.toNat job lun given bus).2.held }))) ∧
    (∀ cause a, (jobRun s ch.toNat job lun given bus).2.check = some (cause, a) →
      ∃ t, exec (.jobDispatch ch job lun given bus true) s = .next t ∧ (seqOf t ch.toNat).state = 3 ∧ t.pmu.harmless = true) := by
  subst hDispatch
  refine ⟨fun h => hExec.trans (next_congr (dispatchJob_runs s _ job lun given bus h)), fun cause a h => ⟨_, hExec, ?_, ?_⟩⟩ <;>
    rw [dispatchJob_checked s _ job lun given bus h]
  · rw [seqOf_seqCheck, seqChecked_state]
  · exact seqCheck_harmless _ _ _ _

theorem watchdogStops {s : State} {ch : BitVec 3} (hJob : (seqOf s ch.toNat).state = 2)
    (hOver : (seqOf s ch.toNat).since + 80000 ≤ latest s) :
    ∃ t, exec (.watchdog ch) s = .next t ∧ (seqOf t ch.toNat).state = 3 ∧ t.pmu.harmless = true ∧
      (seqOf t ch.toNat).mck = put 5 4 0 ||| put (seqOf s ch.toNat).job.toNat 4 4 ||| put (seqOf s ch.toNat).pc.toNat 14 8 |||
        put (32 * ch.toNat + (seqOf s ch.toNat).jobLun.toNat) 8 24 := by
  refine ⟨_, exec_watchdog hJob hOver, ?_, seqCheck_harmless _ _ _ _, ?_⟩ <;> rw [seqOf_seqCheck]
  · exact seqChecked_state _ _ _ _
  · rfl

/-- Settles O41: what stops the flash leaves a sequencer that runs no job as it is. -/
theorem sequencerRunsJobs : Obligations.SequencerRunsJobs := by
  refine ⟨fun s ch job lun given bus hLive hIdle hChannel hAllowed => ?_, fun s ch hJob hOver => watchdogStops hJob hOver⟩
  obtain ⟨hOk, hMismatch⟩ := exec_jobDispatch given bus hLive hIdle hChannel hAllowed
  obtain ⟨hRuns, hChecked⟩ := jobsRun hOk rfl
  exact ⟨hRuns, hChecked, _, hMismatch, lockstepCheck_harmless _ _⟩

end Sys2Proof.Machine
end

section
/-! Discovery of a channel (R267-R280, R365). -/

namespace Sys2Proof.Machine

/-! ### What the bus work of discovery leaves alone -/

/-- The channels, the images and what no discovery touches. -/
def discoverySide (s : State) : Tbl Fch × Boot × List Host.Cell × List (Nat × W64) × Tbl LinkSt :=
  (s.fchs, s.boot, s.mem, s.regs, s.links)

theorem discoverySide_occur (s : State) (b : Nat) (c : BitVec 12) (p0 p1 : W32) : discoverySide (occur s b c p0 p1) = discoverySide s := by
  rw [occur_eq]; rfl

theorem discoverySide_emit (s : State) (x : Output) : discoverySide (emit s x) = discoverySide s := rfl

theorem discoverySide_openBus (s : State) (c : Nat) : discoverySide (openBus s c) = discoverySide s :=
  (foldl_kept discoverySide _ (fun u _ => discoverySide_emit u _) _ _).trans (discoverySide_emit s _)

theorem discoverySide_identify (s : State) (c t : Nat) (r : TargetReport) : discoverySide (identify s c t r) = discoverySide s := by
  unfold identify
  dsimp only
  split <;> split <;> rfl

theorem foldl_fst_kept {α β : Type} {γ : Sort _} (p : State → γ) {g : State × β → α → State × β} (hg : ∀ x a, p (g x a).1 = p x.1)
    (l : List α) (x : State × β) : p (l.foldl g x).1 = p x.1 := by
  induction l generalizing x with
  | nil => rfl
  | cons a l ih => exact (ih _).trans (hg x a)

theorem discoverySide_writeFeatures (s : State) (c t : Nat) (jesd : Bool) : discoverySide (writeFeatures s c t jesd) = discoverySide s := by
  unfold writeFeatures
  dsimp only
  split
  · refine foldl_fst_kept discoverySide (fun x i => ?_) _ _
    split <;> rfl
  · rfl

theorem discoverySide_configure (s : State) (c t : Nat) (r : TargetReport) : discoverySide (configure s c t r) = discoverySide s := by
  unfold configure
  dsimp only
  split
  · exact (discoverySide_emit _ _).trans (discoverySide_writeFeatures s c t r.jesd)
  · exact discoverySide_writeFeatures s c t r.jesd

theorem discoverySide_capture (s : State) (c t : Nat) : discoverySide (capture s c t) = discoverySide s :=
  (foldl_kept discoverySide _ (fun u _ => discoverySide_emit u _) _ _).trans (discoverySide_emit s _)

/-! ### The judgement of targets rests on the images alone -/

section Boot

variable {s t : State} (h : t.boot = s.boot)

include h

theorem profileOf_of_boot (c : Nat) : profileOf t c = profileOf s c := by
  unfold profileOf
  rw [h]

theorem firstFailed_of_boot (c m : Nat) (t0 : Option TargetReport) (r : TargetReport) : firstFailed t c m t0 r = firstFailed s c m t0 r := by
  unfold firstFailed
  rw [profileOf_of_boot h]

theorem verdict_of_boot (c m : Nat) (t0 : Option TargetReport) (r : TargetReport) : verdict t c m t0 r = verdict s c m t0 r := by
  unfold verdict
  rw [firstFailed_of_boot h]

theorem wantRate_of_boot (c : Nat) (rs : List TargetReport) : wantRate t c rs = wantRate s c rs := by
  unfold wantRate
  rw [profileOf_of_boot h]

theorem wantJesd_of_boot (c : Nat) (t0 : Option TargetReport) : wantJesd t c t0 = wantJesd s c t0 := by
  unfold wantJesd
  rw [profileOf_of_boot h]

end Boot

/-! ### The steps of a probe (R277) -/

/-- Steps 1 to 6: the bus is open and every target has been identified. -/
def targetsIdentified (s : State) (c : Nat) (targets : List TargetReport) (statusRead : Bool) : State :=
  ((List.range 8).zip targets).foldl (fun s x => identify s c x.1 x.2)
    (if statusRead then (List.range 8).foldl (fun s t => emit s (.flashPoll (targetLun c t) 0x70)) (openBus s c) else openBus s c)

theorem discoverySide_targetsIdentified (s : State) (c : Nat) (targets : List TargetReport) (sr : Bool) :
    discoverySide (targetsIdentified s c targets sr) = discoverySide s := by
  refine (foldl_kept discoverySide _ (fun u (x : Nat × TargetReport) => discoverySide_identify u c x.1 x.2) _ _).trans ?_
  split
  · exact (foldl_kept discoverySide _ (fun u _ => discoverySide_emit u _) _ _).trans (discoverySide_openBus s c)
  · exact discoverySide_openBus s c

/-- Steps 7 and 8 on the targets that passed so far, and the records of those that did not. -/
def targetsJudged (s : State) (c m : Nat) (t0 : Option TargetReport) (ts : List (Nat × TargetReport)) : State :=
  let chosen := ts.filter fun x => decide (firstFailed s c m t0 x.2 = 0)
  ts.foldl (fun s x => if verdict s c m t0 x.2 = 0 then s else recordMismatch s c x.1 (verdict s c m t0 x.2))
    (chosen.foldl (fun s x => capture s c x.1) (chosen.foldl (fun s x => configure s c x.1 x.2) s))

theorem discoverySide_targetsJudged (s : State) (c m : Nat) (t0 : Option TargetReport) (ts : List (Nat × TargetReport)) :
    discoverySide (targetsJudged s c m t0 ts) = discoverySide s := by
  refine (foldl_kept discoverySide _ (fun u x => ?_) _ _).trans
    ((foldl_kept discoverySide _ (fun u (x : Nat × TargetReport) => discoverySide_capture u c x.1) _ _).trans
      (foldl_kept discoverySide _ (fun u (x : Nat × TargetReport) => discoverySide_configure u c x.1 x.2) _ _))
  split
  · rfl
  · exact discoverySide_occur _ _ _ _ _

/-- Target 0's report, where it is present. -/
def firstTarget (targets : List TargetReport) : Option TargetReport :=
  ((presentTargets targets).find? fun x => decide (x.1 = 0)).map (·.2)

/-- The state in which a probe gives its verdict. -/
def probed (s : State) (c : Nat) (v18 : Bool) (targets : List TargetReport) (sr : Bool) : State :=
  targetsJudged (targetsIdentified s c targets sr) c (wantMode s c v18 (firstTarget targets)) (firstTarget targets) (presentTargets targets)

theorem discoverySide_probed (s : State) (c : Nat) (v18 : Bool) (targets : List TargetReport) (sr : Bool) :
    discoverySide (probed s c v18 targets sr) = discoverySide s :=
  (discoverySide_targetsJudged _ _ _ _ _).trans (discoverySide_targetsIdentified s c targets sr)

/-- A target that passed step 6 asks for ZQ calibration. -/
def zqAsked (s : State) (c : Nat) (v18 : Bool) (targets : List TargetReport) (sr : Bool) : Bool :=
  ((presentTargets targets).filter fun x => decide (firstFailed (targetsIdentified s c targets sr) c
    (wantMode s c v18 (firstTarget targets)) (firstTarget targets) x.2 = 0)).any fun x => x.2.zq

/-- A channel left harmless by a probe that found no target. -/
def fchAbandoned (s u : State) (c mv : Nat) (v18 : Bool) (bad : List (Nat × TargetReport)) : Fch :=
  { leaveHarmless (fchOf s c) with
    vccqBad := false, vccq18 := v18, vccqMv := mv, mismatch := targetMask bad, baseline := baseline u }

/-- A channel comes up: its pins, its registers, its record. -/
def bringUp (u : State) (c m : Nat) (f : Fch) : State :=
  occur (setFch (emit u (.flashPins (BitVec.ofNat 3 c) 0xFF .high)) c f) (blkFCH + c) 0x401
    (put32 m 2 3 ||| put32 f.rate.toNat 8 8) ((tgtWord f).setWidth 32)

/-- A probe's end, by the targets that passed and those that failed. -/
def probeEnds (s u : State) (c mv : Nat) (v18 zq : Bool) (m : Nat) (t0 : Option TargetReport) (good bad : List (Nat × TargetReport)) :
    State :=
  if good.isEmpty then setFch u c (fchAbandoned s u c mv v18 bad) else bringUp u c m (channelUp u c (fchOf s c) mv v18 m t0 good bad zq)

theorem probe_eq (s : State) (c mv : Nat) (v18 : Bool) (targets : List TargetReport) (sr : Bool) : probe s c mv v18 targets sr =
    probeEnds s (probed s c v18 targets sr) c mv v18 (zqAsked s c v18 targets sr) (wantMode s c v18 (firstTarget targets))
      (firstTarget targets)
      ((presentTargets targets).filter fun x => decide (verdict (probed s c v18 targets sr) c
        (wantMode s c v18 (firstTarget targets)) (firstTarget targets) x.2 = 0))
      ((presentTargets targets).filter fun x => decide (verdict (probed s c v18 targets sr) c
        (wantMode s c v18 (firstTarget targets)) (firstTarget targets) x.2 ≠ 0)) := rfl

/-! ### What a discovery shows -/

/-- The channel is down: harmless, with no target. -/
def FchDown (f : Fch) : Prop := f.up = false ∧ f.harmless = true ∧ f.found = 0 ∧ f.luns = []

/-- Discovery of channel c touches neither another channel nor memory, registers or links. -/
def OtherChannelsStand (s : State) (c : Nat) (t : State) : Prop :=
  (∀ k, k ≠ c → fchOf t k = fchOf s k) ∧ t.mem = s.mem ∧ t.regs = s.regs ∧ t.links = s.links

theorem fchOf_leaveHarmless (f : Fch) : FchDown (leaveHarmless f) := ⟨rfl, rfl, rfl, rfl⟩

section Set

variable {s u t : State} {c : Nat} {f : Fch} (hu : discoverySide u = discoverySide s) (ht : discoverySide t = discoverySide (setFch u c f))

include ht

theorem fchOf_discovered : fchOf t c = f := (fchOf_of_fchs (congrArg (·.1) ht :) c).trans (fchOf_setFch_self u c f)

include hu

theorem otherChannelsStand : OtherChannelsStand s c t :=
  ⟨fun k hk => (fchOf_of_fchs (congrArg (·.1) ht :) k).trans ((fchOf_setFch_ne u f hk).trans (fchOf_of_fchs (congrArg (·.1) hu :) k)),
    (congrArg (·.2.2.1) ht :).trans (congrArg (·.2.2.1) hu :), (congrArg (·.2.2.2.1) ht :).trans (congrArg (·.2.2.2.1) hu :),
    (congrArg (·.2.2.2.2) ht :).trans (congrArg (·.2.2.2.2) hu :)⟩

end Set

theorem discoverySide_bringUp (u : State) (c m : Nat) (f : Fch) : discoverySide (bringUp u c m f) = discoverySide (setFch u c f) :=
  discoverySide_occur _ _ _ _ _

theorem tget_ne_none_of_mem {α : Type} {t : Tbl α} {k : Nat} {a : α} (h : (k, a) ∈ t) : tget t k ≠ none := by
  induction t with
  | nil => cases h
  | cons x t ih =>
    obtain ⟨j, b⟩ := x
    unfold tget
    split
    · exact Option.some_ne_none b
    · next hKey =>
      refine ih ((List.mem_cons.1 h).resolve_left fun hHead => hKey ?_)
      exact (Prod.mk.inj hHead).1.symm

/-- A LUN table in which every entry is idle. -/
theorem tgetD_of_allIdle {l : Tbl LunSt} (hIdle : ∀ x ∈ l, x.2.state = .idle) {k : Nat} (hSome : ∃ v, (k, v) ∈ l) (d : LunSt) :
    (tgetD l k d).state = .idle := by
  obtain ⟨v, hv⟩ := hSome
  unfold tgetD
  cases hFind : tget l k with
  | none => exact absurd hFind (tget_ne_none_of_mem hv)
  | some w => exact hIdle _ (mem_of_tget hFind)

theorem presentTargets_lt {ts : List TargetReport} {x : Nat × TargetReport} (h : x ∈ presentTargets ts) : x.1 < 8 :=
  List.mem_range.1 (List.of_mem_zip (List.mem_filter.1 h).1).1

section Up

variable {u : State} {c : Nat} {f0 : Fch} {mv : Nat} {v18 : Bool} {m : Nat} {t0 : Option TargetReport}
  {good bad : List (Nat × TargetReport)} {zq : Bool}

/-- Every LUN of a target that passed is idle on a channel that comes up. -/
theorem channelUp_luns {x : Nat × TargetReport} (hx : x ∈ good) {i : Nat} (hi : i < min 4 x.2.luns) :
    (tgetD (channelUp u c f0 mv v18 m t0 good bad zq).luns (4 * x.1 + i) {}).state = .idle := by
  refine tgetD_of_allIdle (fun y hy => ?_) ⟨{ state := .idle }, ?_⟩ _
  · obtain ⟨z, -, hz⟩ := List.mem_flatMap.1 hy
    obtain ⟨j, -, rfl⟩ := List.mem_map.1 hz
    rfl
  · exact List.mem_flatMap.2 ⟨x, hx, List.mem_map.2 ⟨i, List.mem_range.2 hi, rfl⟩⟩

end Up

/-! ### A probe, an unused channel, a bad supply -/

/-- What a channel shows after discovery, by its class of supply and the targets' verdicts. -/
def DiscoveryShows (s : State) (c reading : Nat) (ts : List TargetReport) (t : State) : Prop :=
  let f := fchOf t c
  let down := f.up = false ∧ f.harmless = true ∧ f.found = 0 ∧ f.luns = []
  f.ended = true ∧ (∀ k, k ≠ c → fchOf t k = fchOf s k) ∧ t.mem = s.mem ∧ t.regs = s.regs ∧ t.links = s.links ∧
  (channelUnused s c = true → down ∧ f.vccqBad = false) ∧
  (channelUnused s c = false → vccqClass reading = none → down ∧ f.vccqBad = true ∧ f.vccqMv = reading) ∧
  (channelUnused s c = false → ∀ v18, vccqClass reading = some v18 →
    let t0 := ((presentTargets ts).find? fun x => decide (x.1 = 0)).map (·.2)
    let m := wantMode s c v18 t0
    let good := (presentTargets ts).filter fun x => decide (verdict s c m t0 x.2 = 0)
    f.vccqBad = false ∧ f.vccq18 = v18 ∧ f.vccqMv = reading ∧
    f.mismatch = targetMask ((presentTargets ts).filter fun x => decide (verdict s c m t0 x.2 ≠ 0)) ∧
    (good = [] → down) ∧
    (good ≠ [] → f.up = true ∧ f.harmless = false ∧ f.found = targetMask good ∧
      f.rate = BitVec.ofNat 8 (wantRate s c (good.map (·.2))) ∧ f.jesd = wantJesd s c t0 ∧
      (∀ x ∈ good, ∀ i, i < min 4 x.2.luns → (lunOf t (32 * c + (4 * x.1 + i))).state = .idle)))

theorem discover_unused {s : State} {c : Nat} (mv : Nat) (ts : List TargetReport) (sr : Bool) (h : channelUnused s c = true) :
    discover s c mv ts sr = setFch s c { leaveHarmless (fchOf s c) with vccqBad := false, baseline := baseline s } := if_pos h

section Used

variable {s : State} {c : Nat} (mv : Nat) (ts : List TargetReport) (sr : Bool) (hUsed : channelUnused s c = false)

include hUsed

theorem discover_badSupply (hClass : vccqClass (pairReading s c mv) = none) : discoverySide (discover s c mv ts sr) =
    discoverySide (setFch s c { leaveHarmless (fchOf s c) with
      vccqBad := true, vccqMv := pairReading s c mv, baseline := baseline s }) := by
  unfold discover
  rw [if_neg (by rw [hUsed]; exact Bool.false_ne_true)]
  dsimp only
  rw [hClass]
  dsimp only
  split
  · rfl
  · exact discoverySide_occur _ _ _ _ _

theorem discover_probes {v18 : Bool} (hClass : vccqClass (pairReading s c mv) = some v18) :
    discover s c mv ts sr = probe s c (pairReading s c mv) v18 ts sr := by
  unfold discover
  rw [if_neg (by rw [hUsed]; exact Bool.false_ne_true)]
  dsimp only
  rw [hClass]

end Used

theorem discoveryShows_unused {s t : State} {c : Nat} (reading : Nat) (ts : List TargetReport) {f : Fch} (h : channelUnused s c = true)
    (ht : discoverySide t = discoverySide (setFch s c f)) (hDown : FchDown f) (hEnded : f.ended = true) (hSupply : f.vccqBad = false) :
    DiscoveryShows s c reading ts t := by
  have hOther := otherChannelsStand (s := s) rfl ht
  obtain ⟨hStand, hMem, hRegs, hLinks⟩ := hOther
  unfold DiscoveryShows
  rw [fchOf_discovered ht]
  exact ⟨hEnded, hStand, hMem, hRegs, hLinks, fun _ => ⟨hDown, hSupply⟩, fun hUsed => absurd (h.symm.trans hUsed) (by decide),
    fun hUsed => absurd (h.symm.trans hUsed) (by decide)⟩

theorem discoveryShows_badSupply {s t : State} {c reading : Nat} (ts : List TargetReport) {f : Fch} (h : channelUnused s c = false)
    (hClass : vccqClass reading = none) (ht : discoverySide t = discoverySide (setFch s c f)) (hDown : FchDown f)
    (hEnded : f.ended = true) (hSupply : f.vccqBad = true) (hReading : f.vccqMv = reading) : DiscoveryShows s c reading ts t := by
  obtain ⟨hStand, hMem, hRegs, hLinks⟩ := otherChannelsStand (s := s) rfl ht
  unfold DiscoveryShows
  rw [fchOf_discovered ht]
  refine ⟨hEnded, hStand, hMem, hRegs, hLinks, fun hUnused => absurd (h.symm.trans hUnused) (by decide),
    fun _ _ => ⟨hDown, hSupply, hReading⟩, fun _ v18 hSome => ?_⟩
  rw [hClass] at hSome
  cases hSome

/-- What a probe's end shows, its verdicts given. -/
structure ProbeShows (s : State) (c mv : Nat) (v18 : Bool) (t0 : Option TargetReport) (good bad : List (Nat × TargetReport)) (t : State) :
    Prop where
  others : OtherChannelsStand s c t
  ended : (fchOf t c).ended = true
  supply : (fchOf t c).vccqBad = false ∧ (fchOf t c).vccq18 = v18 ∧ (fchOf t c).vccqMv = mv
  mismatch : (fchOf t c).mismatch = targetMask bad
  down : good = [] → FchDown (fchOf t c)
  up : good ≠ [] → (fchOf t c).up = true ∧ (fchOf t c).harmless = false ∧ (fchOf t c).found = targetMask good ∧
    (fchOf t c).rate = BitVec.ofNat 8 (wantRate s c (good.map (·.2))) ∧ (fchOf t c).jesd = wantJesd s c t0 ∧
    ∀ x ∈ good, ∀ i, i < min 4 x.2.luns → (tgetD (fchOf t c).luns (4 * x.1 + i) {}).state = .idle

theorem probeEnds_shows {s u : State} (hu : discoverySide u = discoverySide s) (c mv : Nat) (v18 zq : Bool) (m : Nat)
    (t0 : Option TargetReport) (good bad : List (Nat × TargetReport)) :
    ProbeShows s c mv v18 t0 good bad (probeEnds s u c mv v18 zq m t0 good bad) := by
  have hBoot : u.boot = s.boot := (congrArg (·.2.1) hu :)
  unfold probeEnds
  cases good with
  | nil =>
    have ht : discoverySide (setFch u c (fchAbandoned s u c mv v18 bad)) = discoverySide (setFch u c (fchAbandoned s u c mv v18 bad)) := rfl
    have hf := fchOf_discovered ht
    rw [List.isEmpty_nil, if_pos rfl]
    refine ⟨otherChannelsStand hu ht, ?_, ?_, ?_, fun _ => ?_, fun h => absurd rfl h⟩ <;> rw [hf]
    · rfl
    · exact ⟨rfl, rfl, rfl⟩
    · rfl
    · exact ⟨rfl, rfl, rfl, rfl⟩
  | cons g l =>
    have ht := discoverySide_bringUp u c m (channelUp u c (fchOf s c) mv v18 m t0 (g :: l) bad zq)
    have hf := fchOf_discovered ht
    rw [List.isEmpty_cons, if_neg Bool.false_ne_true]
    refine ⟨otherChannelsStand hu ht, ?_, ?_, ?_, (fun h => nomatch h), fun _ => ?_⟩ <;> rw [hf]
    · rfl
    · exact ⟨rfl, rfl, rfl⟩
    · rfl
    · exact ⟨rfl, rfl, rfl, congrArg (BitVec.ofNat 8) (wantRate_of_boot hBoot c _), wantJesd_of_boot hBoot c t0,
        fun x hx i hi => channelUp_luns hx hi⟩

theorem discoveryShows_probed {s : State} {c : Nat} (mv : Nat) (ts : List TargetReport) (sr : Bool) {v18 : Bool}
    (hUsed : channelUnused s c = false) (hClass : vccqClass mv = some v18) : DiscoveryShows s c mv ts (probe s c mv v18 ts sr) := by
  have hSide := discoverySide_probed s c v18 ts sr
  have hBoot : (probed s c v18 ts sr).boot = s.boot := (congrArg (·.2.1) hSide :)
  have hShows := probeEnds_shows hSide c mv v18 (zqAsked s c v18 ts sr) (wantMode s c v18 (firstTarget ts)) (firstTarget ts)
    ((presentTargets ts).filter fun x => decide (verdict s c (wantMode s c v18 (firstTarget ts)) (firstTarget ts) x.2 = 0))
    ((presentTargets ts).filter fun x => decide (verdict s c (wantMode s c v18 (firstTarget ts)) (firstTarget ts) x.2 ≠ 0))
  have hProbe := probe_eq s c mv v18 ts sr
  simp only [verdict_of_boot hBoot] at hProbe
  rw [← hProbe] at hShows
  clear hProbe
  generalize probe s c mv v18 ts sr = t at hShows ⊢
  obtain ⟨⟨hStand, hMem, hRegs, hLinks⟩, hEnded, ⟨hSupply, h18, hMv⟩, hMismatch, hDown, hUp⟩ := hShows
  refine ⟨hEnded, hStand, hMem, hRegs, hLinks, fun h => absurd (hUsed.symm.trans h) (by decide), fun _ h => ?_, fun _ w hw => ?_⟩
  · rw [hClass] at h
    cases h
  · obtain rfl : v18 = w := Option.some.inj (hClass.symm.trans hw)
    refine ⟨hSupply, h18, hMv, hMismatch, hDown, fun h => ?_⟩
    obtain ⟨hIsUp, hHarmless, hFound, hRate, hJesd, hIdle⟩ := hUp h
    refine ⟨hIsUp, hHarmless, hFound, hRate, hJesd, fun x hx i hi => ?_⟩
    have hTarget := presentTargets_lt (List.mem_filter.1 hx).1
    have hFew : i < 4 := Nat.lt_of_lt_of_le hi (Nat.min_le_left _ _)
    have hChannel : (32 * c + (4 * x.1 + i)) / 32 = c := by omega
    have hPlace : (32 * c + (4 * x.1 + i)) % 32 = 4 * x.1 + i := by omega
    unfold lunOf
    rw [hChannel, hPlace]
    exact hIdle x hx i hi

theorem discoveryShows_discover {s : State} {c : Nat} (mv : Nat) (ts : List TargetReport) (sr : Bool) :
    DiscoveryShows s c (pairReading s c mv) ts (discover s c mv ts sr) := by
  cases hUnused : channelUnused s c with
  | true =>
    rw [discover_unused mv ts sr hUnused]
    exact discoveryShows_unused _ ts hUnused rfl ⟨rfl, rfl, rfl, rfl⟩ rfl rfl
  | false =>
    cases hClass : vccqClass (pairReading s c mv) with
    | none => exact discoveryShows_badSupply ts hUnused hClass (discover_badSupply mv ts sr hUnused hClass) ⟨rfl, rfl, rfl, rfl⟩ rfl rfl rfl
    | some v18 =>
      rw [discover_probes mv ts sr hUnused hClass]
      exact discoveryShows_probed _ ts sr hUnused hClass

/-- Settles O42: what discovery does on the bus leaves the channels and the images, on which its verdicts rest. -/
theorem channelsAreDiscovered : Obligations.ChannelsAreDiscovered := fun _ _ mv ts _ hMay =>
  ⟨⟨_, next_congr (if_pos hMay), discoveryShows_discover mv ts false⟩,
    ⟨_, next_congr (if_pos hMay), discoveryShows_discover mv _ true⟩⟩

end Sys2Proof.Machine
end

section
/-! Admin and abacus entries (R241-R245). -/

namespace Sys2Proof.Machine

/-! ### Active entries -/

theorem activeEntry_spec {s : State} {r : EntryRef} {op : Nat} {e : Entry} (h : activeEntry s r op = some e) :
    entryOf? s r = some e ∧ weOpcode e.words = op ∧ (e.phase = .fetched ∨ e.phase = .running) := by
  unfold activeEntry at h
  cases hFound : entryOf? s r with
  | none => rw [hFound] at h; cases h
  | some x =>
    rw [hFound] at h
    dsimp only at h
    split at h
    · next hIs =>
      cases h
      exact ⟨rfl, hIs⟩
    · cases h

theorem freshEntry_spec {s : State} {r : EntryRef} {op : Nat} {e : Entry} (h : freshEntry s r op = some e) :
    entryOf? s r = some e ∧ e.phase = .fetched ∧ weOpcode e.words = op := by
  unfold freshEntry at h
  cases hFound : entryOf? s r with
  | none => rw [hFound] at h; cases h
  | some x =>
    rw [hFound] at h
    dsimp only at h
    split at h
    · next hIs =>
      cases h
      exact ⟨rfl, hIs⟩
    · cases h

/-! ### Closing a cache sequence (R290, R291) -/

theorem closeSeq_eq (s : State) (e : Entry) (l : Nat) (page : Bool) : closeSeq s e l page =
    { s with fchs := (closeSeq s e l page).fchs, out := (closeSeq s e l page).out } := by
  unfold closeSeq
  split <;> rfl

/-- Closing a cache sequence leaves the read-retry step of its LUN. -/
theorem closeSeq_step (s : State) (e : Entry) (l : Nat) (page : Bool) :
    (lunOf (closeSeq s e l page) l).stepType = (lunOf s l).stepType ∧ (lunOf (closeSeq s e l page) l).step = (lunOf s l).step := by
  unfold closeSeq
  split
  · rw [lunOf_setLun_self]
    exact ⟨rfl, rfl⟩
  · exact ⟨rfl, rfl⟩

theorem regions_closeSeq (s : State) (e : Entry) (l : Nat) (page : Bool) : (closeSeq s e l page).regions = s.regions := by
  rw [closeSeq_eq]

theorem boot_closeSeq (s : State) (e : Entry) (l : Nat) (page : Bool) : (closeSeq s e l page).boot = s.boot := by
  rw [closeSeq_eq]

theorem policies_closeSeq (s : State) (e : Entry) (l : Nat) (page : Bool) : (closeSeq s e l page).policies = s.policies := by
  rw [closeSeq_eq]

/-- The value of GET_FEATURES rests on the images and the step of its LUN. -/
theorem featureValue_congr {s t : State} (e : Entry) (p : W32) (hBoot : t.boot = s.boot)
    (hType : (lunOf t (pfaLun (ew e.words 1))).stepType = (lunOf s (pfaLun (ew e.words 1))).stepType)
    (hStep : (lunOf t (pfaLun (ew e.words 1))).step = (lunOf s (pfaLun (ew e.words 1))).step) :
    featureValue t e p = featureValue s e p := by
  unfold featureValue retryFeature stepBytes
  dsimp only
  rw [profileOf_of_boot hBoot, hType, hStep]

/-! ### Admin entries (R241, R242, R244, R322) -/

section Admin

variable {s : State} {r : EntryRef} {op : Nat} {e : Entry} (h : activeEntry s r op = some e) (hGood : slotBad e = false)
  (hMay : mayAdmin s e (pfaLun (ew e.words 1)) = true)

include h hGood hMay

theorem adminRow_starts (go : State → Entry → State) :
    adminRow s r op go = go (closeSeq s e (pfaLun (ew e.words 1)) false) e := by
  obtain ⟨hFound, -, -⟩ := activeEntry_spec h
  unfold adminRow
  rw [withSlot_good hFound hGood, h]
  exact if_pos hMay

theorem exec_paramRead (hOp : op = opPARAM) (page : List Byte) (ok : Bool) : exec (.paramRead r page ok) s = .next (endEntry (setEntry
    (writeArea (emit (closeSeq s e (pfaLun (ew e.words 1)) false) (.flashParam (BitVec.ofNat 8 (pfaLun (ew e.words 1)))))
      (areaBase s (weKey e.words) (weOffset e.words)) (page.take (fld (ew e.words 3) 12 0))) { e with begun := true }) r 0
    (if ok then 1 else 0)) := by
  subst hOp
  obtain ⟨-, hWords, -⟩ := activeEntry_spec h
  have hLen : dataLen e.words = fld (ew e.words 3) 12 0 := if_pos hWords
  have hBase : areaBase (emit (closeSeq s e (pfaLun (ew e.words 1)) false) (.flashParam (BitVec.ofNat 8 (pfaLun (ew e.words 1)))))
      (weKey e.words) (weOffset e.words) = areaBase s (weKey e.words) (weOffset e.words) := by
    rw [closeSeq_eq]
    rfl
  refine next_congr ((adminRow_starts h hGood hMay _).trans ?_)
  dsimp only
  rw [hBase, hLen]
  cases ok <;> rfl

theorem exec_getFeatures (hOp : op = opGETF) (p : W32) : exec (.getFeatures r p) s = .next (endEntry (setEntry
    (emit (closeSeq s e (pfaLun (ew e.words 1)) false) (.flashGetFeature (BitVec.ofNat 8 (pfaLun (ew e.words 1))) (bit (ew e.words 3) 8)
      (BitVec.ofNat 8 (fld (ew e.words 3) 7 0)))) { e with begun := true }) r 0
    (if retryFeature s (pfaLun (ew e.words 1) / 32) = some (fld (ew e.words 3) 7 0)
      then stepBytes s (pfaLun (ew e.words 1) / 32) (lunOf s (pfaLun (ew e.words 1))).stepType (lunOf s (pfaLun (ew e.words 1))).step
      else p)) := by
  subst hOp
  obtain ⟨hType, hStep⟩ := closeSeq_step s e (pfaLun (ew e.words 1)) false
  exact next_congr ((adminRow_starts h hGood hMay _).trans (congrArg (endEntry _ r 0)
    (featureValue_congr e p (boot_closeSeq s e (pfaLun (ew e.words 1)) false) hType hStep)))

theorem exec_setFeatures (hOp : op = opSETF) : exec (.setFeatures r) s = .next (endEntry (setEntry
    (emit (closeSeq s e (pfaLun (ew e.words 1)) false) (.flashFeature (BitVec.ofNat 8 (pfaLun (ew e.words 1))) (bit (ew e.words 3) 8)
      (BitVec.ofNat 8 (fld (ew e.words 3) 7 0)) (BitVec.ofNat 32 (fld (ew e.words 3) 63 32)))) { e with begun := true }) r 0 0) := by
  subst hOp
  exact next_congr (adminRow_starts h hGood hMay _)

theorem exec_suspendPolicy (hOp : op = opSUSPOL) : exec (.suspendPolicy r) s = .next (endEntry (setEntry
    { closeSeq s e (pfaLun (ew e.words 1)) false with policies := tset s.policies (pfaLun (ew e.words 1))
                                                                   { eraseOk := bit (ew e.words 3) 0, progOk := bit (ew e.words 3) 1, maxSus := fld (ew e.words 3) 5 2 } }
    { e with begun := true }) r 0 0) := by
  subst hOp
  refine next_congr ((adminRow_starts h hGood hMay _).trans ?_)
  dsimp only
  rw [policies_closeSeq]
  rfl

end Admin

/-! ### Aborted operations keep every entry in flight -/

/-- The entries in flight by name. -/
def entryRefs (s : State) : List EntryRef := s.entries.map (·.ref)

section Refs

variable (s : State)

theorem entryRefs_occur (b : Nat) (c : BitVec 12) (p0 p1 : W32) : entryRefs (occur s b c p0 p1) = entryRefs s := by
  rw [occur_eq]; rfl

theorem entryRefs_setEntry (e : Entry) : entryRefs (setEntry s e) = entryRefs s := by
  unfold entryRefs setEntry
  rw [List.map_map]
  refine List.map_congr_left fun x _ => ?_
  dsimp only [Function.comp_apply]
  split
  · next hSame => exact hSame.symm
  · rfl

theorem entryRefs_endEntry (r : EntryRef) (st : Byte) (x : W32) : entryRefs (endEntry s r st x) = entryRefs s := by
  unfold endEntry
  split
  · rfl
  · split
    · rfl
    · exact entryRefs_setEntry s _

theorem entryRefs_conclude (r : EntryRef) : entryRefs (conclude s r) = entryRefs s := by
  unfold conclude
  split
  · rfl
  · split
    · rfl
    · split
      · rfl
      · rw [entryRefs_endEntry]
        split
        · exact entryRefs_occur s _ _ _ _
        · rfl

theorem entryRefs_abortEntry (e : Entry) (st : Byte) : entryRefs (abortEntry s e st) = entryRefs s := by
  unfold abortEntry
  split
  · rfl
  · split
    · dsimp only
      split
      · exact (entryRefs_endEntry _ _ _ _).trans (entryRefs_setEntry s _)
      · exact (entryRefs_conclude _ _).trans (entryRefs_setEntry s _)
    · exact entryRefs_endEntry _ _ _ _

theorem entryRefs_abortOp (o : ArrayOp) (st : Byte) : entryRefs (abortOp s o st) = entryRefs s := by
  unfold abortOp
  split
  · rfl
  · split
    · rfl
    · split
      · exact (entryRefs_conclude _ _).trans (entryRefs_setEntry s _)
      · exact entryRefs_abortEntry s _ _

theorem aroundEntries_abortOp (o : ArrayOp) (st : Byte) : aroundEntries (abortOp s o st) = aroundEntries s := by
  unfold abortOp
  split
  · rfl
  · split
    · rfl
    · split
      · exact aroundEntries_conclude _ _
      · exact aroundEntries_abortEntry s _ _

end Refs

/-- An entry in flight is in flight where the same entries are, as itself or as what it was set to. -/
theorem entryOf?_of_entryRefs {s t : State} (h : entryRefs t = entryRefs s) {r : EntryRef} {e : Entry} (hFound : entryOf? s r = some e) :
    ∃ x, entryOf? t r = some x := by
  have hRef : r ∈ entryRefs t := by
    rw [h, ← entryOf?_ref hFound]
    exact List.mem_map_of_mem (List.mem_of_find?_eq_some hFound)
  obtain ⟨x, hx, hSame⟩ := List.mem_map.1 hRef
  refine Option.isSome_iff_exists.1 (List.find?_isSome.2 ⟨x, hx, ?_⟩)
  exact decide_eq_true hSame

/-! ### TARGET_RESET (R243) -/

theorem lunOf_setLun_ne (s : State) {l k : Nat} (v : LunSt) (h : k ≠ l) : lunOf (setLun s l v) k = lunOf s k := by
  unfold lunOf setLun
  by_cases hChannel : k / 32 = l / 32
  · rw [hChannel, fchOf_setFch_self]
    exact tgetD_tset_ne _ _ _ (by omega)
  · rw [fchOf_setFch_ne s _ hChannel]

/-- A LUN that runs its reset. -/
def LunResetting (v : LunSt) : Prop := v.state = .resetting ∧ v.under = none ∧ v.cur.map (·.kind) = some .reset

theorem lunResetting_resetLun {s : State} {l k : Nat} (o : Option OpRef) (h : k = l ∨ LunResetting (lunOf s k)) :
    LunResetting (lunOf (resetLun s l o) k) := by
  unfold resetLun
  by_cases hHere : k = l
  · subst hHere
    rw [lunOf_setLun_self]
    exact ⟨rfl, rfl, rfl⟩
  · rw [lunOf_setLun_ne s _ hHere]
    exact h.resolve_left hHere

theorem lunResetting_resetAll (o : Nat → Option OpRef) (ls : List Nat) {s : State} {k : Nat} (h : k ∈ ls ∨ LunResetting (lunOf s k)) :
    LunResetting (lunOf (ls.foldl (fun s k => resetLun s k (o k)) s) k) := by
  induction ls generalizing s with
  | nil => exact h.resolve_left List.not_mem_nil
  | cons l ls ih =>
    refine ih ?_
    rcases h with hMem | hReset
    · rcases List.mem_cons.1 hMem with hHere | hTail
      · exact .inr (lunResetting_resetLun _ (.inl hHere))
      · exact .inl hTail
    · exact .inr (lunResetting_resetLun _ (.inr hReset))

/-- What a LUN's reset leaves alone. -/
def besideLuns (s : State) : List Entry × List Output × List Host.Cell := (s.entries, s.out, s.mem)

theorem besideLuns_resetAll (o : Nat → Option OpRef) (ls : List Nat) (s : State) :
    besideLuns (ls.foldl (fun s k => resetLun s k (o k)) s) = besideLuns s :=
  foldl_kept besideLuns (fun s k => resetLun s k (o k)) (fun _ _ => rfl) ls s

/-- The operations in progress on the LUNs have ended. -/
def opsAborted (s : State) (ls : List Nat) : State :=
  ls.foldl (fun s k => (opsOf (lunOf s k)).foldl (fun s o => abortOp s o stABORTED) s) s

theorem entryRefs_opsAborted (s : State) (ls : List Nat) : entryRefs (opsAborted s ls) = entryRefs s :=
  foldl_kept entryRefs _ (fun u _ => foldl_kept entryRefs _ (fun v o => entryRefs_abortOp v o stABORTED) _ u) ls s

theorem aroundEntries_opsAborted (s : State) (ls : List Nat) : aroundEntries (opsAborted s ls) = aroundEntries s :=
  foldl_kept aroundEntries _ (fun u _ => foldl_kept aroundEntries _ (fun v o => aroundEntries_abortOp v o stABORTED) _ u) ls s

/-- A reset's entry while its LUN resets. -/
def resetEntry (s : State) (e : Entry) : Entry :=
  { modLeg e 0 fun g => { g with started := true } with
    phase := .running, begun := true, result := BitVec.ofNat 32 (entriesOn s (resetLuns s e)).length }

/-- The reset has been sent and its entry runs. -/
def resetSent (s : State) (e : Entry) : State :=
  setEntry (emit (opsAborted s (resetLuns s e)) (.flashReset (BitVec.ofNat 3 (pfaLun (ew e.words 1) / 32))
    (pfaLun (ew e.words 1) % 32 / 4) (if bit (ew e.words 3) 0 then some (pfaLun (ew e.words 1)) else none))) (resetEntry s e)

theorem startReset_eq (s : State) (e : Entry) : startReset s e = (resetLuns s e).foldl
    (fun s k => resetLun s k (if k = pfaLun (ew e.words 1) then some { ref := e.ref } else none)) (resetSent s e) := rfl

theorem targetResets {s : State} {r : EntryRef} {e : Entry} (h : activeEntry s r opTRESET = some e) (hGood : slotBad e = false)
    (hMay : (serving s && (fchOf s (pfaLun (ew e.words 1) / 32)).up && eligible s e (pfaLun (ew e.words 1)) &&
      firstInLine s e (pfaLun (ew e.words 1)) && !(targetClaimed s e (pfaLun (ew e.words 1)))) = true) :
    ∃ t e', exec (.targetReset r) s = .next t ∧ entryOf? t r = some e' ∧ e'.phase = .running ∧
      e'.result = BitVec.ofNat 32 (entriesOn s (resetLuns s e)).length ∧
      (∀ k ∈ resetLuns s e, (lunOf t k).state = .resetting ∧ (lunOf t k).under = none ∧ ((lunOf t k).cur.map (·.kind)) = some .reset) ∧
      t.out = s.out ++ [.flashReset (BitVec.ofNat 3 (pfaLun (ew e.words 1) / 32)) (pfaLun (ew e.words 1) % 32 / 4)
        (if bit (ew e.words 3) 0 then some (pfaLun (ew e.words 1)) else none)] ∧
      t.mem = s.mem := by
  obtain ⟨hFound, -, -⟩ := activeEntry_spec h
  have hExec : exec (.targetReset r) s = .next (startReset s e) := by
    refine next_congr ((withSlot_good hFound hGood _).trans ?_)
    rw [h]
    exact if_pos hMay
  have hBeside := besideLuns_resetAll (fun k => if k = pfaLun (ew e.words 1) then some { ref := e.ref } else none) (resetLuns s e)
    (resetSent s e)
  rw [← startReset_eq] at hBeside
  have hAround := aroundEntries_opsAborted s (resetLuns s e)
  refine ⟨startReset s e, resetEntry s e, hExec, ?_, rfl, rfl, fun k hk => ?_, ?_, ?_⟩
  · obtain ⟨x, hx⟩ := entryOf?_of_entryRefs (entryRefs_opsAborted s (resetLuns s e)) hFound
    have hSent : entryOf? (resetSent s e) r = some (resetEntry s e) :=
      entryOf?_setEntry_self (x := x) hx (entryOf?_ref hFound : e.ref = r)
    unfold entryOf? at hSent ⊢
    rwa [show (startReset s e).entries = (resetSent s e).entries from congrArg (·.1) hBeside]
  · rw [startReset_eq]
    exact lunResetting_resetAll _ _ (.inl hk)
  · refine (congrArg (·.2.1) hBeside :).trans ?_
    exact congrArg (· ++ _) (congrArg State.out hAround :)
  · refine (congrArg (·.2.2) hBeside :).trans ?_
    exact (congrArg State.mem hAround :)

/-! ### Abacus transfers (R245, R337) -/

/-- A group's turn counts it once and keeps what a projection sees. -/
def CountsOne {β : Sort _} (p : State → β) (one : State × Nat × Nat → Nat × Nat × Nat → State × Nat × Nat) : Prop :=
  ∀ acc x, p (one acc x).1 = p acc.1 ∧ (one acc x).2.1 + (one acc x).2.2 = acc.2.1 + acc.2.2 + 1

theorem foldl_countsOne {β : Sort _} {p : State → β} {one : State × Nat × Nat → Nat × Nat × Nat → State × Nat × Nat}
    (h : CountsOne p one) (l : List (Nat × Nat × Nat)) (acc : State × Nat × Nat) :
    p (l.foldl one acc).1 = p acc.1 ∧ (l.foldl one acc).2.1 + (l.foldl one acc).2.2 = acc.2.1 + acc.2.2 + l.length := by
  induction l generalizing acc with
  | nil => exact ⟨rfl, rfl⟩
  | cons x l ih =>
    obtain ⟨hKept, hCount⟩ := ih (one acc x)
    obtain ⟨hOne, hStep⟩ := h acc x
    refine ⟨hKept.trans hOne, ?_⟩
    rw [List.foldl_cons, List.length_cons]
    omega

theorem length_transferGroups (ws : List W64) : (transferGroups ws).length = 64 * (fld (ew ws 1) 15 8 + 1) := by
  unfold transferGroups
  rw [List.length_flatMap]
  simp only [List.length_map, List.length_range, List.map_const', List.sum_replicate_nat]
  exact Nat.mul_comm _ _

theorem entries_memWrite (s : State) (a : Nat) (l : List Byte) : (memWrite s a l).entries = s.entries := by rw [memWrite_eq]

theorem entries_writeArea (s : State) (a : Option Nat) (l : List Byte) : (writeArea s a l).entries = s.entries := by
  cases a with
  | none => rfl
  | some a => exact entries_memWrite s a l

theorem entries_readBead (s : State) (a : Nat) : (readBead s a).1.entries = s.entries := by
  unfold readBead
  split
  · change (occur s _ _ _ _).entries = s.entries
    rw [occur_eq]
    rfl
  · rfl

theorem entries_readBeads (s : State) (a n : Nat) : (readBeads s a n).1.entries = s.entries := by
  induction n generalizing s a with
  | zero => rfl
  | succ n ih => exact (ih _ _).trans (entries_readBead s a)

theorem exportGroup_countsOne (e : Entry) : CountsOne State.entries (exportGroup e) := by
  rintro ⟨s, done, skipped⟩ ⟨l, g, off⟩
  unfold exportGroup
  dsimp only
  split
  · exact ⟨(entries_writeArea _ _ _).trans (entries_readBeads s _ _), by dsimp only; omega⟩
  · exact ⟨entries_writeArea _ _ _, by dsimp only; omega⟩

/-- The entries in flight and memory. -/
def entriesMem (s : State) : List Entry × List Host.Cell := (s.entries, s.mem)

theorem entriesMem_writeBeads (s : State) (a : Nat) (l : List Byte) : entriesMem (writeBeads s a l) = entriesMem s := by
  induction l generalizing s a with
  | nil => rfl
  | cons b l ih => exact ih _ _

theorem entriesMem_noteFailing (s : State) (kind : Nat) (l : List Nat) : entriesMem (noteFailing s kind l) = entriesMem s := by
  refine foldl_kept entriesMem (fun u w => noteParity u kind w (failMask l w)) (fun u w => ?_) _ s
  unfold noteParity
  dsimp only
  rw [occur_eq]
  rfl

theorem importGroup_countsOne (e : Entry) : CountsOne entriesMem (importGroup e) := by
  rintro ⟨s, done, skipped⟩ ⟨l, g, off⟩
  unfold importGroup
  dsimp only
  split
  · exact ⟨rfl, rfl⟩
  · split
    · exact ⟨rfl, rfl⟩
    · split
      · exact ⟨entriesMem_writeBeads s _ _, by dsimp only; omega⟩
      · exact ⟨entriesMem_noteFailing s _ _, rfl⟩

theorem transfer_eq {s : State} {r : EntryRef} {op : Nat} {e : Entry}
    {one : Entry → State × Nat × Nat → Nat × Nat × Nat → State × Nat × Nat} (h : freshEntry s r op = some e) (hGood : slotBad e = false)
    (hServing : serving s = true) : transfer s r op one = endEntry ((transferGroups e.words).foldl (one e) (s, 0, 0)).1 r stOK
      (put32 ((transferGroups e.words).foldl (one e) (s, 0, 0)).2.1 16 0 |||
        put32 ((transferGroups e.words).foldl (one e) (s, 0, 0)).2.2 16 16) := by
  obtain ⟨hFound, -, -⟩ := freshEntry_spec h
  unfold transfer
  rw [withSlot_good hFound hGood, h]
  exact if_neg (by rw [hServing]; exact Bool.false_ne_true)

/-- A transfer ends its entry with every group it names counted. -/
theorem transfer_ends {s : State} {r : EntryRef} {op : Nat} {e : Entry}
    {one : Entry → State × Nat × Nat → Nat × Nat × Nat → State × Nat × Nat} (h : freshEntry s r op = some e) (hGood : slotBad e = false)
    (hServing : serving s = true) (hOne : CountsOne State.entries (one e)) :
    ∃ e' n m, entryOf? (transfer s r op one) r = some e' ∧ e'.phase = .ended ∧ e'.status = 0 ∧
      e'.result = put32 n 16 0 ||| put32 m 16 16 ∧ n + m = 64 * (fld (ew e.words 1) 15 8 + 1) := by
  obtain ⟨hFound, hPhase, -⟩ := freshEntry_spec h
  obtain ⟨hEntries, hCount⟩ := foldl_countsOne hOne (transferGroups e.words) (s, 0, 0)
  rw [transfer_eq h hGood hServing]
  generalize (transferGroups e.words).foldl (one e) (s, 0, 0) = x at hEntries hCount ⊢
  have hStill : entryOf? x.1 r = some e := by
    unfold entryOf? at hFound ⊢
    rwa [show x.1.entries = s.entries from hEntries]
  rw [endEntry_eq hStill (.inl hPhase)]
  refine ⟨_, x.2.1, x.2.2, entryOf?_setEntry_self (e := { e with phase := .ended, status := stOK, result := _ }) hStill (entryOf?_ref hFound : e.ref = r),
    rfl, rfl, rfl, ?_⟩
  rw [hCount, length_transferGroups]
  exact Nat.zero_add _

theorem importGroup_countsEntries (e : Entry) : CountsOne State.entries (importGroup e) := fun acc x =>
  ⟨(congrArg Prod.fst (importGroup_countsOne e acc x).1 :), (importGroup_countsOne e acc x).2⟩

theorem mem_transfer_import {s : State} {r : EntryRef} {e : Entry} (h : freshEntry s r opIMPORT = some e) (hGood : slotBad e = false)
    (hServing : serving s = true) : (transfer s r opIMPORT importGroup).mem = s.mem := by
  obtain ⟨hFound, hPhase, -⟩ := freshEntry_spec h
  obtain ⟨hKept, -⟩ := foldl_countsOne (importGroup_countsOne e) (transferGroups e.words) (s, 0, 0)
  rw [transfer_eq h hGood hServing]
  generalize (transferGroups e.words).foldl (importGroup e) (s, 0, 0) = x at hKept ⊢
  have hMem : x.1.mem = s.mem := (congrArg Prod.snd hKept :)
  refine Eq.trans ?_ hMem
  exact (congrArg State.mem (aroundEntries_endEntry x.1 r stOK _) :)

/-- Settles O39: each admin entry through its row, a reset LUN by LUN, a transfer group by group. -/
theorem adminEntriesAct : Obligations.AdminEntriesAct := by
  refine ⟨fun s r op e h hGood hMay => ⟨fun hOp page ok => exec_paramRead h hGood hMay hOp page ok,
      fun hOp p => exec_getFeatures h hGood hMay hOp p, fun hOp => exec_setFeatures h hGood hMay hOp,
      fun hOp => exec_suspendPolicy h hGood hMay hOp⟩,
    fun s r e h hGood hMay => targetResets h hGood hMay, fun s r e hServing hGood => ⟨fun h => ?_, fun h => ?_⟩⟩
  · obtain ⟨e', n, m, hFound, hPhase, hStatus, hResult, hAll⟩ := transfer_ends h hGood hServing (exportGroup_countsOne e)
    exact ⟨_, e', n, m, rfl, hFound, hPhase, hStatus, hResult, hAll⟩
  · obtain ⟨e', n, m, hFound, hPhase, hStatus, hResult, hAll⟩ := transfer_ends h hGood hServing (importGroup_countsEntries e)
    exact ⟨_, e', n, m, rfl, hFound, hPhase, hStatus, hResult, hAll, mem_transfer_import h hGood hServing⟩

end Sys2Proof.Machine
end

section
/-! The abacus and the bus: what a start step, a poll and a boundary leave alone (R281-R283, R321, R331-R336). -/

namespace Sys2Proof.Machine

/-! ### The abacus (R331-R336) -/

/-- The state without the beads, bands and counts of the abacus, and what an occurrence touches. -/
def outsideAbacus (s : State) : State :=
  { s with
    beads := [], badBeads := [], bands := [], abaOwn := 0, abaHit := 0, abaBorrow := 0, abaNominal := 0
    recorder := {}, hdrs := [], conns := [], evDrop := 0 }

section Abacus

variable (s : State)

theorem outsideAbacus_occur (b : Nat) (c : BitVec 12) (p0 p1 : W32) : outsideAbacus (occur s b c p0 p1) = outsideAbacus s := by
  rw [occur_eq]; rfl

theorem outsideAbacus_updateBand (c : Nat) : outsideAbacus (updateBand s c) = outsideAbacus s := rfl

theorem outsideAbacus_readBead (a : Nat) : outsideAbacus (readBead s a).1 = outsideAbacus s := by
  unfold readBead
  split
  · exact outsideAbacus_occur s _ _ _ _
  · rfl

theorem outsideAbacus_beadIf (p : Prop) [Decidable p] (a : Nat) :
    outsideAbacus (if p then readBead s a else (s, 0)).1 = outsideAbacus s := by
  split
  · exact outsideAbacus_readBead s a
  · rfl

/-- The start step of a read is looked up in the abacus, which alone it changes. -/
theorem outsideAbacus_startStep (l b : Nat) (count : Bool) : outsideAbacus (startStep s l b count).1 = outsideAbacus s := by
  have hBand := outsideAbacus_updateBand s (l / 32)
  unfold startStep
  dsimp only
  generalize updateBand s (l / 32) = u at hBand ⊢
  have hOwn := (outsideAbacus_readBead u (beadAddr l (groupOfBlock u l b) (bandOf u (l / 32)))).trans hBand
  generalize readBead u (beadAddr l (groupOfBlock u l b) (bandOf u (l / 32))) = own at hOwn ⊢
  have hBelow := (outsideAbacus_beadIf own.1 (0 < bandOf u (l / 32))
    (beadAddr l (groupOfBlock u l b) (bandOf u (l / 32) - 1))).trans hOwn
  generalize (if 0 < bandOf u (l / 32) then readBead own.1 (beadAddr l (groupOfBlock u l b) (bandOf u (l / 32) - 1)) else (own.1, 0)) =
    below at hBelow ⊢
  have hAbove := (outsideAbacus_beadIf below.1 (bandOf u (l / 32) < 7)
    (beadAddr l (groupOfBlock u l b) (bandOf u (l / 32) + 1))).trans hBelow
  generalize (if bandOf u (l / 32) < 7 then readBead below.1 (beadAddr l (groupOfBlock u l b) (bandOf u (l / 32) + 1)) else (below.1, 0)) =
    above at hAbove ⊢
  split
  · exact hBand
  · split
    · exact hOwn
    · split
      · exact hBelow
      · split
        · exact hAbove
        · exact hAbove

/-- The reads of a verify have their start steps looked up. -/
theorem outsideAbacus_beginVerify (e : Entry) (i : Nat) : outsideAbacus (beginVerify s e i).1 = outsideAbacus s := by
  unfold beginVerify
  refine (foldl_fst_kept outsideAbacus (fun x pl => ?_) _ _)
  exact outsideAbacus_startStep x.1 _ _ _

end Abacus

/-! ### Operations in progress (R281-R283) -/

theorem lunOf_of_fchs {s t : State} (h : t.fchs = s.fchs) (l : Nat) : lunOf t l = lunOf s l := by
  unfold lunOf
  rw [fchOf_of_fchs h]

/-- A channel's registers apart from its LUNs do not change a LUN. -/
theorem lunOf_setFch (s : State) (c : Nat) {f : Fch} (h : f.luns = (fchOf s c).luns) (l : Nat) : lunOf (setFch s c f) l = lunOf s l := by
  unfold lunOf
  by_cases hChannel : l / 32 = c
  · subst hChannel
    rw [fchOf_setFch_self, h]
  · rw [fchOf_setFch_ne s f hChannel]

/-- The operation of every LUN, in progress and suspended, and memory. -/
def lunWork (s : State) : (Nat → Option ArrayOp × Option ArrayOp) × List Host.Cell :=
  (fun l => ((lunOf s l).cur, (lunOf s l).under), s.mem)

theorem lunWork_of_fchs {s t : State} (hFchs : t.fchs = s.fchs) (hMem : t.mem = s.mem) : lunWork t = lunWork s := by
  unfold lunWork
  rw [hMem]
  exact congrArg (Prod.mk · s.mem) (funext fun l => by rw [lunOf_of_fchs hFchs])

theorem lunWork_setFch (s : State) (c : Nat) {f : Fch} (h : f.luns = (fchOf s c).luns) : lunWork (setFch s c f) = lunWork s := by
  unfold lunWork
  exact congrArg (Prod.mk · s.mem) (funext fun l => by rw [lunOf_setFch s c h])

theorem lunWork_setLun (s : State) (l : Nat) {v : LunSt} (hCur : v.cur = (lunOf s l).cur) (hUnder : v.under = (lunOf s l).under) :
    lunWork (setLun s l v) = lunWork s := by
  unfold lunWork
  refine congrArg (Prod.mk · s.mem) (funext fun k => ?_)
  by_cases hHere : k = l
  · subst hHere
    rw [lunOf_setLun_self, hCur, hUnder]
  · rw [lunOf_setLun_ne s v hHere]

theorem cur_of_lunWork {s t : State} (h : lunWork t = lunWork s) (l : Nat) : (lunOf t l).cur = (lunOf s l).cur :=
  congrArg Prod.fst (congrFun (congrArg Prod.fst h) l)

theorem under_of_lunWork {s t : State} (h : lunWork t = lunWork s) (l : Nat) : (lunOf t l).under = (lunOf s l).under :=
  congrArg Prod.snd (congrFun (congrArg Prod.fst h) l)

section Bus

variable (s : State)

theorem lunWork_emit (x : Output) : lunWork (emit s x) = lunWork s := lunWork_of_fchs rfl rfl

theorem lunWork_sendPoll (l : Nat) : lunWork (sendPoll s l) = lunWork s := by
  unfold sendPoll
  extract_lets v u f
  have hu : lunWork u = lunWork s := by
    refine (lunWork_setLun (emit s _) l ?_ ?_).trans (lunWork_emit s _) <;> rfl
  refine (lunWork_setFch u (l / 32) ?_).trans hu
  rfl

theorem lunWork_putOnBus (c : Nat) (e : Entry) (x : Xfer) : lunWork (putOnBus s c e x) = lunWork s := by
  refine (lunWork_setFch (emit s _) c ?_).trans (lunWork_emit s _)
  rfl

theorem lunWork_sectorBoundary (c : Nat) : lunWork (sectorBoundary s c) = lunWork s := by
  unfold sectorBoundary
  extract_lets u
  have hu : lunWork u = lunWork s := by
    refine foldl_kept lunWork _ (fun t e => ?_) _ s
    split
    · exact lunWork_sendPoll t _
    · rfl
  refine Eq.trans ?_ hu
  split
  · refine lunWork_setFch u c ?_
    rfl
  · exact lunWork_putOnBus u c _ _

theorem lunWork_wakeBus (c : Nat) : lunWork (wakeBus s c) = lunWork s := by
  unfold wakeBus
  split
  · rfl
  · exact lunWork_sectorBoundary s c

theorem lunWork_setEntry (e : Entry) : lunWork (setEntry s e) = lunWork s := lunWork_of_fchs rfl rfl

theorem lunWork_conclude (r : EntryRef) : lunWork (conclude s r) = lunWork s :=
  lunWork_of_fchs (congrArg State.fchs (aroundEntries_conclude s r) :) (congrArg State.mem (aroundEntries_conclude s r) :)

theorem lunWork_beginVerify (e : Entry) (i : Nat) : lunWork (beginVerify s e i).1 = lunWork s :=
  lunWork_of_fchs (congrArg State.fchs (outsideAbacus_beginVerify s e i) :) (congrArg State.mem (outsideAbacus_beginVerify s e i) :)

/-- The end of an operation means something for its entry and the bus, not for a LUN's work. -/
theorem lunWork_opEnded (o : ArrayOp) (failed : Bool) : lunWork (opEnded s o failed) = lunWork s := by
  have hConclude : ∀ (t : State) (e : Entry) (r : EntryRef), lunWork (conclude (setEntry t e) r) = lunWork t := fun t e r =>
    (lunWork_conclude _ r).trans (lunWork_setEntry t e)
  unfold opEnded
  split
  · rfl
  · split
    · rfl
    · split
      · exact (lunWork_wakeBus _ _).trans (lunWork_setEntry s _)
      · split
        · exact hConclude _ _ _
        · split
          · exact (hConclude _ _ _).trans (lunWork_beginVerify s _ _)
          · exact hConclude _ _ _
      · exact hConclude _ _ _
      · exact hConclude _ _ _

end Bus

end Sys2Proof.Machine
end

section
/-! Polls, R/B, suspends, timeouts, rates, windows and reservations (R256, R257, R262, R271, R281-R286, R293). -/

namespace Sys2Proof.Machine

/-! ### POLL_DUE (R281, R282) -/

theorem fchOf_setLun_self (s : State) (l : Nat) (v : LunSt) :
    fchOf (setLun s l v) (l / 32) = { fchOf s (l / 32) with luns := tset (fchOf s (l / 32)).luns (l % 32) v } := fchOf_setFch_self _ _ _

theorem sendPoll_eq (s : State) (l : Nat) : sendPoll s l = { s with out := (sendPoll s l).out, fchs := (sendPoll s l).fchs } := rfl

theorem sendPoll_out (s : State) (l : Nat) : (sendPoll s l).out = s.out ++ [.flashPoll (BitVec.ofNat 8 l) (pollCommand s l)] := rfl

theorem sendPoll_polls (s : State) (l : Nat) : (fchOf (sendPoll s l) (l / 32)).polls = (fchOf s (l / 32)).polls + 1 := by
  unfold sendPoll
  extract_lets v u f
  have hu : (fchOf u (l / 32)).polls = (fchOf s (l / 32)).polls := by
    refine (congrArg Fch.polls (fchOf_setLun_self (emit s _) l _)).trans ?_
    rfl
  rw [fchOf_setFch_self, ← hu]

/-- A poll's LUN after it, and every other LUN. -/
theorem lunOf_sendPoll (s : State) (l k : Nat) : lunOf (sendPoll s l) k =
    if k = l then { lunOf s l with pollNow := false, pollAt := max (cycles s) (lunOf s l).pollAt + pollCycles s (l / 32) }
    else lunOf s k := by
  unfold sendPoll
  extract_lets v u f
  rw [lunOf_setFch u (l / 32) (by rfl)]
  split
  · next hHere =>
    subst hHere
    exact lunOf_setLun_self _ _ _
  · next hOther => exact lunOf_setLun_ne _ _ hOther

section Lun

variable (c : BitVec 3) (n : BitVec 5)

theorem lunIndex_channel : (32 * c.toNat + n.toNat) / 32 = c.toNat := by
  have hLt := n.isLt
  omega

theorem lunIndex_place : (32 * c.toNat + n.toNat) % 32 = n.toNat := by
  have hLt := n.isLt
  omega

end Lun

theorem pollsGoOut {s : State} {c : BitVec 3} {n : BitVec 5} (hUp : (fchOf s c.toNat).up = true)
    (hBusy : (lunOf s (32 * c.toNat + n.toNat)).cur.isSome = true) (hNow : (lunOf s (32 * c.toNat + n.toNat)).pollNow = false)
    (hDue : (lunOf s (32 * c.toNat + n.toNat)).pollAt ≤ latest s) (hPoll : rbCase s c.toNat (decide (16 ≤ n.toNat)) = false) :
    ((xferOn s c.toNat).isSome = true → exec (.pollDue c n) s =
      .next (setLun s (32 * c.toNat + n.toNat) { lunOf s (32 * c.toNat + n.toNat) with pollNow := true })) ∧
    (xferOn s c.toNat = none → ∃ t, exec (.pollDue c n) s = .next t ∧
      t.out = s.out ++ [.flashPoll (BitVec.ofNat 8 (32 * c.toNat + n.toNat))
        (if 1 < lunsOfTarget s c.toNat (n.toNat / 4) then 0x78 else 0x70)] ∧
      (fchOf t c.toNat).polls = (fchOf s c.toNat).polls + 1 ∧
      (lunOf t (32 * c.toNat + n.toNat)).pollAt =
        max (cycles s) (lunOf s (32 * c.toNat + n.toNat)).pollAt + pollCycles s c.toNat ∧
      (∀ l, l ≠ 32 * c.toNat + n.toNat → lunOf t l = lunOf s l) ∧ t = { s with out := t.out, fchs := t.fchs }) := by
  have hGoes : ((fchOf s c.toNat).up && (lunOf s (32 * c.toNat + n.toNat)).cur.isSome && !(lunOf s (32 * c.toNat + n.toNat)).pollNow &&
      decide ((lunOf s (32 * c.toNat + n.toNat)).pollAt ≤ latest s) && !(rbCase s c.toNat (decide (16 ≤ n.toNat)))) = true := by
    rw [hUp, hBusy, hNow, decide_eq_true hDue, hPoll]
    rfl
  have hChannel := lunIndex_channel c n
  have hPlace := lunIndex_place c n
  refine ⟨fun hXfer => next_congr ((if_pos hGoes).trans (if_pos hXfer)), fun hFree => ?_⟩
  have hNot : ¬ (xferOn s c.toNat).isSome = true := by rw [hFree]; exact Bool.false_ne_true
  have hPolls := sendPoll_polls s (32 * c.toNat + n.toNat)
  rw [hChannel] at hPolls
  refine ⟨_, next_congr ((if_pos hGoes).trans (if_neg hNot)), ?_, hPolls, ?_, fun l hl => ?_, sendPoll_eq s _⟩
  · rw [sendPoll_out, pollCommand, hChannel, hPlace]
  · rw [lunOf_sendPoll, if_pos rfl, hChannel]
  · rw [lunOf_sendPoll, if_neg hl]

/-! ### RB_RISE and RB_STUCK (R285, R286) -/

theorem mem_stopChannel (s : State) (c : Nat) : (stopChannel s c).mem = s.mem := by
  unfold stopChannel
  dsimp only
  split <;> split <;> (try split) <;> rfl

/-- A LUN that runs nothing runs nothing on a stopped channel. -/
theorem cur_stopChannel {s : State} (c : Nat) {l : Nat} (h : (lunOf s l).cur = none) : (lunOf (stopChannel s c) l).cur = none := by
  unfold lunOf at h ⊢
  rw [fchOf_stopChannel]
  split
  · unfold tgetD fchStopped
    dsimp only
    rw [tget_map]
    · cases tget (fchOf s c).luns (l % 32) <;> rfl
    · exact fun _ => rfl
  · exact h

section Ends

variable {s : State} {l : Nat} {o : ArrayOp} {sr : Byte}

/-- A LUN whose operation has been reported over. -/
def lunEnded (v : LunSt) : LunSt :=
  { v with
    state := if v.under.isSome then .suspended else .idle, cur := none, pollNow := false
    urgentRun := if v.under.isSome then v.urgentRun + 1 else 0
    step := if decide (v.state = .resetting) then 0 else v.step, seq := if decide (v.state = .resetting) then none else v.seq }

/-- An operation over no suspended one ends on a busy LUN. -/
theorem endLunOp_free (hState : (lunOf s l).state = .busy) (hUnder : (lunOf s l).under = none) :
    (lunOf (endLunOp s l o sr) l).cur = none ∧ (endLunOp s l o sr).mem = s.mem := by
  have hReset : decide ((lunOf s l).state = .resetting) = false := by rw [hState]; rfl
  have hPage : (decide ((lunOf s l).state = .cacheSeq)) = false := by rw [hState]; rfl
  unfold endLunOp
  extract_lets v reset s1 failed s2 s3 s4 s5
  have h1 : (lunOf s1 l).cur = none ∧ (lunOf s1 l).under = none ∧ s1.mem = s.mem := by
    have hSet := lunOf_setLun_self s l (lunEnded (lunOf s l))
    exact ⟨congrArg LunSt.cur hSet, (congrArg LunSt.under hSet).trans hUnder, rfl⟩
  have h2 : s2 = s1 := if_neg (by simp only [v, hPage, Bool.and_false, Bool.false_and, Bool.false_eq_true, not_false_eq_true])
  have h3 : lunWork s3 = lunWork s1 := (lunWork_opEnded s2 o failed).trans (congrArg lunWork h2)
  have h4 : s4 = s3 := if_neg (by simp only [reset, v, hReset, Bool.false_eq_true, not_false_eq_true])
  clear_value s1 s3 s4
  subst h4
  have hCur : (lunOf s4 l).cur = none := (cur_of_lunWork h3 l).trans h1.1
  have hNone : (lunOf s4 l).under = none := (under_of_lunWork h3 l).trans h1.2.1
  have hMem : s4.mem = s.mem := (congrArg Prod.snd h3 :).trans h1.2.2
  have h5 : s5 = s4 := by
    dsimp only [s5]
    unfold resumeLun resumeIfDue
    simp only [hNone, ite_self]
  rw [h5]
  split
  · exact ⟨cur_stopChannel _ hCur, (mem_stopChannel _ _).trans hMem⟩
  · exact ⟨hCur, hMem⟩

/-- A status byte that shows a busy LUN ready ends its operation. -/
theorem statusArrives_ready (hGood : sr &&& neverMask s (l / 32) = 0) (hReady : srReady sr = true) (hArray : srArray sr = true)
    (hState : (lunOf s l).state = .busy) (hCur : (lunOf s l).cur = some o) : statusArrives s l sr =
      endLunOp (setLun s l { lunOf s l with lastsr := sr, badRun := 0, pollNow := false }) l o sr := by
  unfold statusArrives
  simp only [hGood, hCur, hReady, hArray, hState, ne_eq, not_true_eq_false, Bool.not_true, Bool.false_eq_true, if_false, if_true,
    Bool.true_or, reduceCtorEq, false_and]

end Ends

theorem groupBusy_cur {s : State} {c : Nat} {g : Bool} {l : Nat} (h : groupBusy s c g = [l]) : ∃ o, (lunOf s l).cur = some o := by
  have hMem : l ∈ groupBusy s c g := by rw [h]; exact List.mem_singleton_self l
  exact Option.isSome_iff_exists.1 (List.mem_filter.1 hMem).2

/-- The channel's account of a status read after RB_N. -/
def rbCounted (s : State) (c : Nat) : State := setFch s c { fchOf s c with rbWaits := (fchOf s c).rbWaits + 1 }

theorem rbEndsTheOperation {s : State} {c : BitVec 3} {g : Bool} {sr : Byte} {l : Nat} (hUp : (fchOf s c.toNat).up = true)
    (hCase : rbCase s c.toNat g = true) (hOne : groupBusy s c.toNat g = [l]) (hGood : sr &&& neverMask s (l / 32) = 0)
    (hReady : srReady sr = true) (hArray : srArray sr = true) (hState : (lunOf s l).state = .busy) (hUnder : (lunOf s l).under = none) :
    ∃ t, exec (.rbRise c g sr) s = .next t ∧ (lunOf t l).cur = none ∧ t.mem = s.mem := by
  obtain ⟨o, hCur⟩ := groupBusy_cur hOne
  have hLun : lunOf (rbCounted s c.toNat) l = lunOf s l := by
    refine lunOf_setFch s c.toNat ?_ l
    rfl
  have hExec : exec (.rbRise c g sr) s = .next (statusArrives (rbCounted s c.toNat) l sr) := by
    refine next_congr ((if_pos (by rw [hUp, hCase]; rfl)).trans ?_)
    rw [hOne]
    rfl
  have hEnds := statusArrives_ready (s := rbCounted s c.toNat) (l := l) hGood hReady hArray ((congrArg LunSt.state hLun).trans hState)
    ((congrArg LunSt.cur hLun).trans hCur)
  have hRead := lunOf_setLun_self (rbCounted s c.toNat) l { lunOf (rbCounted s c.toNat) l with lastsr := sr, badRun := 0, pollNow := false }
  obtain ⟨hNone, hMem⟩ := endLunOp_free (o := o) (sr := sr) ((congrArg LunSt.state hRead).trans ((congrArg LunSt.state hLun).trans hState))
    ((congrArg LunSt.under hRead).trans ((congrArg LunSt.under hLun).trans hUnder))
  exact ⟨_, hExec.trans (next_congr hEnds), hNone, hMem⟩

theorem stuckLinesFallBack {s : State} {c : BitVec 3} {g : Bool} (hUp : (fchOf s c.toNat).up = true)
    (hFresh : (fchOf s c.toNat).rbFallback = false) (hNone : groupBusy s c.toNat g = []) :
    exec (.rbStuck c g) s = .next (occur (setFch s c.toNat { fchOf s c.toNat with rbFallback := true }) (blkFCH + c.toNat) 0x404
      (put32 (b2n g) 1 0) 0) :=
  next_congr (if_pos (by rw [hUp, hFresh, hNone]; rfl))

/-! ### SUSPEND_FAILED and LUN_TIMEOUT (R262, R293) -/

theorem failedSuspendsResume {s : State} {c : BitVec 3} {n : BitVec 5} {o : ArrayOp}
    (hCur : (lunOf s (32 * c.toNat + n.toNat)).cur = some o) (hState : (lunOf s (32 * c.toNat + n.toNat)).state = .suspending)
    (hOver : 2 * suspendUs s c.toNat o.kind ((o.owner.map (·.type)).getD 0) ≤
      (latest s - (lunOf s (32 * c.toNat + n.toNat)).susAt) / 400) :
    exec (.suspendFailed c n) s = .next (occur (setLun s (32 * c.toNat + n.toNat)
      { lunOf s (32 * c.toNat + n.toNat) with state := .busy, suspendFailed := true }) (blkFCH + c.toNat) 0x406
      (put32 (32 * c.toNat + n.toNat) 8 0) 0) := by
  refine next_congr ?_
  simp only [hCur]
  exact if_pos ⟨hState, hOver⟩

/-- The operations of a LUN have ended, the one in progress TIMEOUT. -/
def timedOut (s : State) (l : Nat) (o : ArrayOp) : State :=
  match (lunOf s l).under with
  | some u => abortOp (abortOp s o stTIMEOUT) u stABORTED
  | none => abortOp s o stTIMEOUT

theorem aroundEntries_timedOut (s : State) (l : Nat) (o : ArrayOp) : aroundEntries (timedOut s l o) = aroundEntries s := by
  unfold timedOut
  split
  · exact (aroundEntries_abortOp _ _ _).trans (aroundEntries_abortOp s o stTIMEOUT)
  · exact aroundEntries_abortOp s o stTIMEOUT

theorem lunTimeout_eq {s : State} {l : Nat} {o : ArrayOp} (h : (lunOf s l).cur = some o) : lunTimeout s l =
    (let u := resetLun (emit (timedOut s l o) (.flashReset (BitVec.ofNat 3 (l / 32)) (l % 32 / 4) (some l))) l none
     occur { u with timeoutCnt := u.timeoutCnt + 1 } blkSCH 0x309 (put32 l 8 0) 0) := by
  unfold lunTimeout timedOut
  cases hUnder : (lunOf s l).under <;> simp only [h, hUnder]

theorem overLimit_cur {s : State} {l : Nat} (h : overLimit s l = true) : ∃ o, (lunOf s l).cur = some o := by
  unfold overLimit at h
  dsimp only at h
  cases hCur : (lunOf s l).cur with
  | none => rw [hCur] at h; cases h
  | some o => exact ⟨o, rfl⟩

/-! Ending one entry leaves the others. -/

section Others

variable {s : State} {q r : EntryRef} (h : r ≠ q)

include h

theorem entryOf?_endEntry_ne (st : Byte) (x : W32) : entryOf? (endEntry s q st x) r = entryOf? s r := by
  unfold endEntry
  split
  · rfl
  · next e hFound =>
    have hOther : r ≠ e.ref := fun hSame => h (hSame.trans (entryOf?_ref hFound))
    split
    · rfl
    · exact entryOf?_setEntry_ne s hOther

theorem entryOf?_conclude_ne : entryOf? (conclude s q) r = entryOf? s r := by
  unfold conclude
  split
  · rfl
  · split
    · rfl
    · split
      · rfl
      · rw [entryOf?_endEntry_ne h]
        split
        · refine entryOf?_of_entries ?_ r
          unfold recordPartial
          dsimp only
          rw [occur_eq]
          rfl
        · rfl

theorem entryOf?_abortEntry_ne {e : Entry} (hRef : e.ref = q) (st : Byte) : entryOf? (abortEntry s e st) r = entryOf? s r := by
  subst hRef
  unfold abortEntry
  split
  · rfl
  · split
    · dsimp only
      split
      · exact (entryOf?_endEntry_ne h _ _).trans (entryOf?_setEntry_ne s h)
      · exact (entryOf?_conclude_ne h).trans (entryOf?_setEntry_ne s h)
    · exact entryOf?_endEntry_ne h _ _

end Others

/-- An entry that has ended, other than a mirror, is left alone by an operation's abort. -/
theorem entryOf?_abortOp_ended {s : State} {r : EntryRef} {e : Entry} (h : entryOf? s r = some e) (hEnded : e.phase = .ended)
    (hOp : weOpcode e.words ≠ opMIRROR) (o : ArrayOp) (st : Byte) : entryOf? (abortOp s o st) r = some e := by
  unfold abortOp
  split
  · exact h
  · next w _ =>
    split
    · exact h
    · next x hx =>
      by_cases hSame : r = x.ref
      · have hIs : x = e := by
          rw [← entryOf?_ref hx, ← hSame] at hx
          exact Option.some.inj (hx.symm.trans h)
        subst hIs
        rw [if_neg fun hMirror => hOp hMirror.1]
        unfold abortEntry
        rw [if_pos (.inl hEnded)]
        exact h
      · split
        · refine (entryOf?_conclude_ne hSame).trans (Eq.trans ?_ h)
          exact entryOf?_setEntry_ne s hSame
        · exact (entryOf?_abortEntry_ne hSame rfl st).trans h

/-- The entry whose operation times out ends TIMEOUT. -/
theorem entryOf?_timedOut {s : State} {l : Nat} {o : ArrayOp} {w : OpRef} {e : Entry} (hOwner : o.owner = some w)
    (h : entryOf? s w.ref = some e) (hOp : weOpcode e.words ≠ opMIRROR) (hPhase : e.phase = .fetched ∨ e.phase = .running) :
    ∃ e', entryOf? (timedOut s l o) w.ref = some e' ∧ e'.phase = .ended ∧ e'.status = 0x13 := by
  have hFlight : ¬ (e.phase = .ended ∨ e.phase = .held) := by rcases hPhase with hP | hP <;> rw [hP] <;> decide
  have hRef := entryOf?_ref h
  have hAbort : abortOp s o stTIMEOUT = setEntry s { e with phase := .ended, status := stTIMEOUT, result := endResult s e } := by
    unfold abortOp
    rw [hOwner]
    dsimp only
    rw [h]
    dsimp only
    rw [if_neg fun hMirror => hOp hMirror.1]
    unfold abortEntry
    rw [if_neg hFlight, if_neg hOp]
    exact (congrArg (endEntry s · stTIMEOUT (endResult s e)) hRef).trans (endEntry_eq h hPhase _ _)
  have hFirst : entryOf? (abortOp s o stTIMEOUT) w.ref =
      some { e with phase := .ended, status := stTIMEOUT, result := endResult s e } := by
    rw [hAbort]
    exact entryOf?_setEntry_self h (hRef : e.ref = w.ref)
  refine ⟨{ e with phase := .ended, status := stTIMEOUT, result := endResult s e }, ?_, rfl, rfl⟩
  unfold timedOut
  split
  · exact entryOf?_abortOp_ended hFirst rfl hOp _ _
  · exact hFirst

theorem timeoutsReset {s : State} {c : BitVec 3} {n : BitVec 5} (hUp : (fchOf s c.toNat).up = true)
    (hOver : overLimit s (32 * c.toNat + n.toNat) = true) :
    ∃ t, exec (.lunTimeout c n) s = .next t ∧ (lunOf t (32 * c.toNat + n.toNat)).state = .resetting ∧
      (lunOf t (32 * c.toNat + n.toNat)).under = none ∧ t.timeoutCnt = s.timeoutCnt + 1 ∧ t.mem = s.mem ∧
      (∀ o w e, (lunOf s (32 * c.toNat + n.toNat)).cur = some o → o.owner = some w → entryOf? s w.ref = some e →
        weOpcode e.words ≠ opMIRROR → (e.phase = .fetched ∨ e.phase = .running) →
        ∃ e', entryOf? t w.ref = some e' ∧ e'.phase = .ended ∧ e'.status = 0x13) := by
  obtain ⟨o, hCur⟩ := overLimit_cur hOver
  have hExec : exec (.lunTimeout c n) s = .next (lunTimeout s (32 * c.toNat + n.toNat)) :=
    next_congr (if_pos (by rw [hUp, hOver]; rfl))
  generalize 32 * c.toNat + n.toNat = l at hExec hCur ⊢
  have hAround := aroundEntries_timedOut s l o
  have hReset : LunResetting (lunOf (resetLun (emit (timedOut s l o) (.flashReset (BitVec.ofNat 3 (l / 32)) (l % 32 / 4) (some l))) l none)
      l) := lunResetting_resetLun none (.inl rfl)
  obtain ⟨hState, hUnder, -⟩ := hReset
  refine ⟨_, hExec.trans (next_congr (lunTimeout_eq hCur)), ?_, ?_, ?_, ?_, fun o' w e hCur' hOwner hFound hOp hPhase => ?_⟩
  · dsimp only
    rw [occur_eq]
    exact hState
  · dsimp only
    rw [occur_eq]
    exact hUnder
  · dsimp only
    rw [occur_eq]
    exact congrArg (· + 1) (congrArg State.timeoutCnt hAround :)
  · dsimp only
    rw [occur_eq]
    exact (congrArg State.mem hAround :)
  · obtain rfl : o = o' := Option.some.inj (hCur.symm.trans hCur')
    obtain ⟨e', hEnds, hPhase', hStatus⟩ := entryOf?_timedOut (l := l) hOwner hFound hOp hPhase
    refine ⟨e', ?_, hPhase', hStatus⟩
    dsimp only
    rw [occur_eq]
    exact hEnds

/-! ### RATE_CHANGE, SCHEDULING_WINDOW, RESERVATION_WRITE (R256, R257, R271) -/

/-- The ordered rate is in force. -/
def rateSet (s : State) (c : Nat) (x : Byte) : State := setFch s c { fchOf s c with rate := x, nextRate := none }

theorem dropSlowChannel_eq (s : State) (c : Nat) : dropSlowChannel s c =
    { s with entries := (dropSlowChannel s c).entries, sqs := (dropSlowChannel s c).sqs } := by
  unfold dropSlowChannel
  split <;> rfl

theorem ratesChange {s : State} {c : BitVec 3} {x : Byte} (h : (fchOf s c.toNat).nextRate = some x) :
    ∃ t, exec (.rateChange c) s = .next t ∧ (fchOf t c.toNat).rate = x ∧
      (fchOf t c.toNat).nextRate = none ∧ (∀ k, k ≠ c.toNat → fchOf t k = fchOf s k) ∧
      t = { s with fchs := t.fchs, entries := t.entries, sqs := t.sqs } ∧
      (100 ≤ x.toNat → t.entries = s.entries ∧ t.sqs = s.sqs) := by
  have hExec : exec (.rateChange c) s = .next (dropSlowChannel (rateSet s c.toNat x) c.toNat) := by
    refine next_congr ?_
    simp only [h]
    rfl
  have hDrop := dropSlowChannel_eq (rateSet s c.toNat x) c.toNat
  have hFchs : (dropSlowChannel (rateSet s c.toNat x) c.toNat).fchs = (rateSet s c.toNat x).fchs := (congrArg State.fchs hDrop :)
  have hSelf : fchOf (rateSet s c.toNat x) c.toNat = { fchOf s c.toNat with rate := x, nextRate := none } := fchOf_setFch_self _ _ _
  refine ⟨_, hExec, ?_, ?_, fun k hk => ?_, ?_, fun hFast => ?_⟩
  · rw [fchOf_of_fchs hFchs, hSelf]
  · rw [fchOf_of_fchs hFchs, hSelf]
  · rw [fchOf_of_fchs hFchs]
    exact fchOf_setFch_ne s _ hk
  · exact hDrop.trans (by rw [hFchs]; rfl)
  · have hKept : dropSlowChannel (rateSet s c.toNat x) c.toNat = rateSet s c.toNat x := by
      refine if_pos ?_
      unfold rateOf
      rw [hSelf]
      exact hFast
    rw [hKept]
    exact ⟨rfl, rfl⟩

theorem windowsBegin {s : State} (hBoundary : atBoundary s = true) (hFourth : s.now.frame.toNat % 4 = 0) :
    exec .schedulingWindow s = .next { s with
      charges := [], wstart := s.now.frame, shares := (List.range 16).map fun d => (d, regGet s blkSCH (0x100 + 8 * d)) } :=
  next_congr (if_pos ⟨hBoundary, hFourth⟩)

theorem reservationsAreJudged {s : State} {w d : Dom} {v : W64} (hMay : mayWrite s w blkSCH (0x100 + 8 * d.toNat) = true) :
    let q := put (fld (regGet s blkSCH (0x180 + 8 * d.toNat)) 63 48 + 1) 16 48
    (overChannel s d.toNat v = none → exec (.reservationWrite w d v) s =
      .next (regSet (regStore s blkSCH (0x100 + 8 * d.toNat) v) blkSCH (0x180 + 8 * d.toNat) q)) ∧
    (∀ k, overChannel s d.toNat v = some k → exec (.reservationWrite w d v) s =
      .next (occur (regSet s blkSCH (0x180 + 8 * d.toNat) (1 ||| put k 3 1 ||| q)) blkSCH 0x30A
        (put32 d.toNat 4 0 ||| put32 k 3 4) 0)) := by
  have hWrite := guardedWrite_of_mayWrite {} (fun s => writeReservation s d v) hMay
  refine ⟨fun hOver => next_congr (hWrite.trans ?_), fun k hOver => next_congr (hWrite.trans ?_)⟩ <;>
    unfold writeReservation <;> simp only [hOver]

/-- Settles O40: each event through its row; what ends an operation leaves the work of every other LUN. -/
theorem flashEventsAct : Obligations.FlashEventsAct := fun _ _ =>
  ⟨fun _ hUp hBusy hNow hDue hPoll => pollsGoOut hUp hBusy hNow hDue hPoll,
    fun _ _ _ hUp hCase hOne hGood hReady hArray hState hUnder => rbEndsTheOperation hUp hCase hOne hGood hReady hArray hState hUnder,
    fun _ hUp hFresh hNone => stuckLinesFallBack hUp hFresh hNone,
    fun _ _ hCur hState hOver => failedSuspendsResume hCur hState hOver,
    fun _ hUp hOver => timeoutsReset hUp hOver,
    fun _ h => ratesChange h,
    fun hBoundary hFourth => windowsBegin hBoundary hFourth,
    fun _ _ _ hMay => reservationsAreJudged hMay⟩

end Sys2Proof.Machine
end

section
/-! The starts of array operations (R233-R240, R253, R289-R291, R321). -/

namespace Sys2Proof.Machine

/-! ### A start leaves all but its channel, its charge and the bus (R255) -/

theorem chargeStream_eq (s : State) (e : Entry) (l t : Nat) (k : LunOp) (n : Nat) :
    chargeStream s e l t k n = { s with charges := (chargeStream s e l t k n).charges } := by
  unfold chargeStream
  split <;> rfl

/-- An array operation's start changes its channel and its domain's charge. -/
theorem startArray_eq (s : State) (e : Entry) (l : Nat) (k : LunOp) (o : OpRef) (n : Nat) (page : Bool) :
    startArray s e l k o n page =
      { s with fchs := (startArray s e l k o n page).fchs, charges := (startArray s e l k o n page).charges } := by
  unfold startArray
  extract_lets v joined more f s1 s2
  rw [chargeStream_eq]
  have h1 : s1 = { s with fchs := s1.fchs } := by
    dsimp only [s1]
    split <;> rfl
  have h2 : s2 = { s with fchs := s2.fchs } := by
    dsimp only [s2]
    rw [h1]
    rfl
  clear_value s2
  rw [h2]

/-- The operation that started is the one in progress on its LUN. -/
theorem cur_startArray (s : State) (e : Entry) (l : Nat) (k : LunOp) (o : OpRef) (n : Nat) (page : Bool) :
    (lunOf (startArray s e l k o n page) l).cur = some { kind := k, owner := some o } := by
  unfold startArray
  extract_lets v joined more f s1 s2
  have hFchs : (chargeStream s2 e l o.type k n).fchs = s2.fchs := by rw [chargeStream_eq]
  rw [lunOf_of_fchs hFchs]
  exact congrArg LunSt.cur (lunOf_setLun_self s1 l _)

theorem setStep_eq (s : State) (l t k : Nat) :
    setStep s l t k = { s with out := (setStep s l t k).out, fchs := (setStep s l t k).fchs } := by
  unfold setStep
  split
  · rfl
  · split <;> rfl

/-- The entry of a start is the one in flight under its name. -/
theorem entryOf?_startArray {s : State} {r : EntryRef} {x e : Entry} (h : entryOf? s r = some x) (hRef : e.ref = r) (l : Nat)
    (k : LunOp) (o : OpRef) (n : Nat) (page : Bool) : entryOf? (startArray (setEntry s e) e l k o n page) r = some e := by
  rw [entryOf?_of_entries (congrArg State.entries (startArray_eq (setEntry s e) e l k o n page) :) r]
  exact entryOf?_setEntry_self h hRef

/-! ### Senses (R321, R323) -/

theorem planesOf_ne_nil (ws : List W64) : planesOf ws ≠ [] := by
  unfold planesOf
  split
  · exact List.cons_ne_nil _ _
  · next hMask =>
    have hLt : wePlnmask ws < 16 := fld_lt _ 11 8
    have hAll : ∀ m < 16, m ≠ 0 → ((List.range 4).filter fun i => (m >>> i) % 2 == 1) ≠ [] := by decide
    exact hAll _ hLt hMask

section Begin

variable (s : State) (e : Entry)

theorem outsideAbacus_beginRead : outsideAbacus (beginRead s e).1 = outsideAbacus s := by
  unfold beginRead
  refine foldl_fst_kept outsideAbacus (fun x pl => ?_) _ _
  exact outsideAbacus_startStep x.1 _ _ _

theorem beginRead_entry : (beginRead s e).2 = { e with
    planes := (beginRead s e).2.planes, beadUsed := (beginRead s e).2.beadUsed, learning := (beginRead s e).2.learning } := rfl

/-- Every plane that a fold appends satisfies what each appended one does, and there is one for each element. -/
theorem foldl_append_all {α β γ : Type} {P : β → Prop} {g : γ × List β → α → γ × List β}
    (hg : ∀ x a, ∃ b, (g x a).2 = x.2 ++ [b] ∧ P b) (l : List α) (x : γ × List β) (hx : ∀ b ∈ x.2, P b) :
    (∀ b ∈ (l.foldl g x).2, P b) ∧ (l.foldl g x).2.length = x.2.length + l.length := by
  induction l generalizing x with
  | nil => exact ⟨hx, rfl⟩
  | cons a l ih =>
    obtain ⟨b, hAppend, hb⟩ := hg x a
    obtain ⟨hAll, hLength⟩ := ih (g x a) (by
      rw [hAppend]
      intro c hc
      rcases List.mem_append.1 hc with hOld | hNew
      · exact hx c hOld
      · exact List.mem_singleton.1 hNew ▸ hb)
    refine ⟨hAll, hLength.trans ?_⟩
    rw [hAppend]
    simp only [List.length_append, List.length_cons, List.length_nil]
    omega

/-- The planes that a read begins with each have a sense due, and there is one. -/
theorem beginRead_due : ∃ p ∈ (beginRead s e).2.planes, planeDue p = true := by
  unfold beginRead
  extract_lets p x
  have hAll : (∀ b ∈ x.2, planeDue b = true) ∧ x.2.length = 0 + (planesOf e.words).length :=
    foldl_append_all (P := fun b => planeDue b = true) (fun _ _ => ⟨_, rfl, rfl⟩) _ (s, []) (fun b hb => nomatch hb)
  obtain ⟨hDue, hLength⟩ := hAll
  have hSome : x.2 ≠ [] := by
    intro hNil
    rw [hNil] at hLength
    exact planesOf_ne_nil e.words (List.length_eq_zero_iff.1 (by simpa using hLength.symm))
  obtain ⟨b, hb⟩ := List.exists_mem_of_ne_nil _ hSome
  exact ⟨b, hb, hDue b hb⟩

end Begin

theorem find?_of_due {l : List PlaneRd} (h : ∃ p ∈ l, planeDue p = true) : ∃ p, l.find? planeDue = some p := by
  obtain ⟨p, hp, hDue⟩ := h
  exact Option.isSome_iff_exists.1 (List.find?_isSome.2 ⟨p, hp, hDue⟩)

/-- The LUN brought to the step of a sense, an open cache sequence closed. -/
def sensePrepared (s : State) (e : Entry) (verify : Bool) (pfa : W64) (p : PlaneRd) : State :=
  setStep (closeSeq s e (pfaLun pfa) (wholePage e verify)) (pfaLun pfa) (weType e.words) (p.todo.headD 0)

/-- The operation of a plane's sense. -/
def senseOp (e : Entry) (leg : Nat) (verify : Bool) (p : PlaneRd) : OpRef :=
  { ref := e.ref, leg := leg, plane := p.plane, type := weType e.words, verify := verify }

/-- An entry with one more sense under way. -/
def entrySensing (e : Entry) (leg : Nat) (verify : Bool) (p : PlaneRd) : Entry :=
  { modPlanes e (senseOp e leg verify p) (fun x => sensed x (p.todo.headD 0)) with
    phase := .running, begun := true
    senses := if verify then (modPlanes e (senseOp e leg verify p) (fun x => sensed x (p.todo.headD 0))).senses
      else (modPlanes e (senseOp e leg verify p) (fun x => sensed x (p.todo.headD 0))).senses + 1 }

/-- The sense has been sent. -/
def senseSent (s : State) (e : Entry) (verify : Bool) (pfa : W64) (p : PlaneRd) : State :=
  emit (sensePrepared s e verify pfa p) (.flashSense (BitVec.ofNat 8 (pfaLun pfa)) (BitVec.ofNat 2 p.plane) (pfaBlock pfa) (pfaPage pfa)
    (weType e.words) (p.todo.headD 0) (wholePage e verify && cacheMore (sensePrepared s e verify pfa p) e (pfaLun pfa)))

theorem startSense_eq {s : State} {e : Entry} {leg : Nat} {verify : Bool} {pfa : W64} {planes : List PlaneRd} {p : PlaneRd}
    (h : planes.find? planeDue = some p) : ∃ n, startSense s e leg verify pfa planes =
      startArray (setEntry (senseSent s e verify pfa p) (entrySensing e leg verify p)) (entrySensing e leg verify p) (pfaLun pfa) .read
        (senseOp e leg verify p) n (wholePage e verify) := by
  unfold startSense
  rw [h]
  exact ⟨_, rfl⟩

/-- Entries, memory, registers and links. -/
def besideFlash (s : State) : List Entry × List Host.Cell × List (Nat × W64) × Tbl LinkSt := (s.entries, s.mem, s.regs, s.links)

theorem besideFlash_sensePrepared (s : State) (e : Entry) (verify : Bool) (pfa : W64) (p : PlaneRd) :
    besideFlash (sensePrepared s e verify pfa p) = besideFlash s := by
  unfold sensePrepared
  rw [setStep_eq, closeSeq_eq]
  rfl

/-- A sense of an entry in flight starts. -/
theorem sensesStart {s : State} {r : EntryRef} {x e : Entry} (h : entryOf? s r = some x) (hRef : e.ref = r) {pfa : W64}
    {planes : List PlaneRd} (hDue : ∃ p ∈ planes, planeDue p = true) :
    ∃ e' p k o more, entryOf? (startSense s e 0 false pfa planes) r = some e' ∧ e'.phase = .running ∧ e'.begun = true ∧
      e'.senses = e.senses + 1 ∧ e'.words = e.words ∧
      (lunOf (startSense s e 0 false pfa planes) (pfaLun pfa)).cur = some { kind := .read, owner := some o } ∧ o.ref = r ∧
      o.verify = false ∧ (startSense s e 0 false pfa planes).out.getLast? =
        some (.flashSense (BitVec.ofNat 8 (pfaLun pfa)) p (pfaBlock pfa) (pfaPage pfa) (weType e.words) k more) ∧
      (startSense s e 0 false pfa planes).mem = s.mem ∧ (startSense s e 0 false pfa planes).regs = s.regs ∧
      (startSense s e 0 false pfa planes).links = s.links := by
  obtain ⟨p, hp⟩ := find?_of_due hDue
  obtain ⟨n, hSense⟩ := startSense_eq (s := s) (e := e) (leg := 0) (verify := false) (pfa := pfa) hp
  have hBeside := besideFlash_sensePrepared s e false pfa p
  have hWords : (entrySensing e 0 false p).words = e.words := rfl
  have hFlight : entryOf? (senseSent s e false pfa p) r = some x :=
    (entryOf?_of_entries (congrArg Prod.fst hBeside :) r).trans h
  have hArray := startArray_eq (setEntry (senseSent s e false pfa p) (entrySensing e 0 false p)) (entrySensing e 0 false p) (pfaLun pfa)
    .read (senseOp e 0 false p) n (wholePage e false)
  have hEntry := entryOf?_startArray hFlight (e := entrySensing e 0 false p) hRef (pfaLun pfa) .read (senseOp e 0 false p) n (wholePage e false)
  have hCur := cur_startArray (setEntry (senseSent s e false pfa p) (entrySensing e 0 false p)) (entrySensing e 0 false p) (pfaLun pfa)
    .read (senseOp e 0 false p) n (wholePage e false)
  rw [hSense]
  refine ⟨entrySensing e 0 false p, BitVec.ofNat 2 p.plane, p.todo.headD 0, senseOp e 0 false p,
    wholePage e false && cacheMore (sensePrepared s e false pfa p) e (pfaLun pfa),
    hEntry, rfl, rfl, rfl, hWords, hCur, hRef, rfl, ?_, ?_, ?_, ?_⟩
  · have hOut : (setEntry (senseSent s e false pfa p) (entrySensing e 0 false p)).out = (sensePrepared s e false pfa p).out ++
        [.flashSense (BitVec.ofNat 8 (pfaLun pfa)) (BitVec.ofNat 2 p.plane) (pfaBlock pfa) (pfaPage pfa) (weType e.words)
          (p.todo.headD 0) (wholePage e false && cacheMore (sensePrepared s e false pfa p) e (pfaLun pfa))] := rfl
    rw [(congrArg State.out hArray :), hOut, List.getLast?_concat]
  · exact (congrArg State.mem hArray :).trans (congrArg (·.2.1) hBeside :)
  · exact (congrArg State.regs hArray :).trans (congrArg (·.2.2.1) hBeside :)
  · exact (congrArg State.links hArray :).trans (congrArg (·.2.2.2) hBeside :)

/-! ### Reads (R233, R234, R239) -/

/-- An opcode whose entry senses its planes, the destination of a copy apart. -/
def ReadsPlanes (e : Entry) : Prop :=
  weOpcode e.words = opREAD ∨ weOpcode e.words = opCHECK ∨ (weOpcode e.words = opCOPY ∧ readDecided e = false)

/-- The planes of an entry that waits for a sense: none yet, or one has a sense due. -/
theorem due_of_eligible {s : State} {e : Entry} {l : Nat} (hReads : ReadsPlanes e) (h : eligible s e l = true) :
    e.planes.isEmpty = true ∨ ∃ p ∈ e.planes, planeDue p = true := by
  have hNeeds : l ∈ needs e := List.contains_iff_mem.1 ((Bool.and_eq_true _ _ ▸ h).1)
  have hRead : l ∈ readNeeds e := by
    unfold needs at hNeeds
    split at hNeeds
    · cases hNeeds
    · rcases hReads with hOp | hOp | ⟨hOp, hUndecided⟩
      · rwa [if_pos (.inl hOp)] at hNeeds
      · rwa [if_pos (.inr hOp)] at hNeeds
      · rw [if_neg (by rw [hOp]; decide), if_pos hOp, hUndecided] at hNeeds
        exact hNeeds
  unfold readNeeds at hRead
  split at hRead
  · next hEmpty => exact .inl hEmpty
  · split at hRead
    · cases hRead
    · split at hRead
      · next hAny => exact .inr (List.any_eq_true.1 hAny)
      · cases hRead

theorem mayStart_eligible {s : State} {e : Entry} {l : Nat} (h : mayStart s e l = true) : eligible s e l = true := by
  unfold mayStart at h
  simp only [Bool.and_eq_true] at h
  obtain ⟨⟨⟨⟨⟨⟨_, hEligible⟩, -⟩, -⟩, -⟩, -⟩, -⟩ := h
  exact hEligible

/-- A read's next sense starts. -/
theorem readsStart {s : State} {r : EntryRef} {e : Entry} (h : entryOf? s r = some e)
    (hDue : e.planes.isEmpty = true ∨ ∃ p ∈ e.planes, planeDue p = true) :
    ∃ e' p k o more, entryOf? (startRead s e) r = some e' ∧ e'.phase = .running ∧ e'.begun = true ∧
      e'.senses = e.senses + 1 ∧ e'.words = e.words ∧
      (lunOf (startRead s e) (pfaLun (ew e.words 1))).cur = some { kind := .read, owner := some o } ∧ o.ref = r ∧ o.verify = false ∧
      (startRead s e).out.getLast? = some (.flashSense (BitVec.ofNat 8 (pfaLun (ew e.words 1))) p (pfaBlock (ew e.words 1))
        (pfaPage (ew e.words 1)) (weType e.words) k more) ∧
      (startRead s e).mem = s.mem ∧ (startRead s e).regs = s.regs ∧ (startRead s e).links = s.links := by
  have hRef := entryOf?_ref h
  unfold startRead
  by_cases hEmpty : e.planes.isEmpty = true
  · have hSide := outsideAbacus_beginRead s e
    have hFlight : entryOf? (beginRead s e).1 r = some e := (entryOf?_of_entries (congrArg State.entries hSide :) r).trans h
    have hFound : entryOf? (setEntry (beginRead s e).1 (beginRead s e).2) r = some (beginRead s e).2 :=
      entryOf?_setEntry_self hFlight hRef
    obtain ⟨e', p, k, o, more, hEntry, hPhase, hBegun, hSenses, hWords, hCur, hOwn, hVerify, hOut, hMem, hRegs, hLinks⟩ :=
      sensesStart (e := (beginRead s e).2) (pfa := ew e.words 1) hFound hRef (beginRead_due s e)
    rw [if_pos hEmpty]
    exact ⟨e', p, k, o, more, hEntry, hPhase, hBegun, hSenses, hWords, hCur, hOwn, hVerify, hOut,
      hMem.trans (congrArg State.mem hSide :), hRegs.trans (congrArg State.regs hSide :), hLinks.trans (congrArg State.links hSide :)⟩
  · rw [if_neg hEmpty]
    exact sensesStart (pfa := ew e.words 1) (entryOf?_setEntry_self h hRef) hRef (hDue.resolve_left hEmpty)

theorem trySuspend_ordinary {s : State} {e : Entry} (h : e.cls ≠ 0) (l : Nat) : trySuspend s e l = s := by
  have hNot : isUrgent e = false := decide_eq_false h
  exact if_neg (by rw [hNot]; simp)

theorem entryLun_eq {s : State} {r : EntryRef} {e : Entry} (h : entryOf? s r = some e) (w : Nat) : entryLun s r w = pfaLun (ew e.words w) := by
  unfold entryLun
  rw [h]

/-- The row of a flash opcode runs its entry, or tries to. -/
theorem flashRow_eq {s : State} {r : EntryRef} {op : Nat} {e : Entry} (h : activeEntry s r op = some e) (hGood : slotBad e = false)
    (l : Nat) (go : State → Entry → State) : flashRow s r op l go = tryStart s e l fun s => go s e := by
  obtain ⟨hFound, -, -⟩ := activeEntry_spec h
  unfold flashRow
  rw [withSlot_good hFound hGood, h]

theorem exec_reads {s : State} {i : Instr} {r : EntryRef} {op : Nat} {e : Entry}
    (hRow : (i = .read r ∧ op = opREAD) ∨ (i = .checkRead r ∧ op = opCHECK) ∨ (i = .copy r ∧ op = opCOPY ∧ readDecided e = false))
    (h : activeEntry s r op = some e) (hGood : slotBad e = false) :
    exec i s = .next (tryStart s e (pfaLun (ew e.words 1)) fun s => startRead s e) ∧ ReadsPlanes e := by
  obtain ⟨hFound, hOp, -⟩ := activeEntry_spec h
  have hLun := entryLun_eq hFound 1
  rcases hRow with ⟨rfl, rfl⟩ | ⟨rfl, rfl⟩ | ⟨rfl, rfl, hUndecided⟩
  · exact ⟨next_congr ((flashRow_eq h hGood _ _).trans (by rw [hLun])), .inl hOp⟩
  · exact ⟨next_congr ((flashRow_eq h hGood _ _).trans (by rw [hLun])), .inr (.inl hOp)⟩
  · refine ⟨next_congr ((withSlot_good hFound hGood _).trans ?_), .inr (.inr ⟨hOp, hUndecided⟩)⟩
    rw [h]
    exact if_neg (by rw [hUndecided]; exact Bool.false_ne_true)

theorem readRowsStart {s : State} {i : Instr} {r : EntryRef} {op : Nat} {e : Entry}
    (hRow : (i = .read r ∧ op = opREAD) ∨ (i = .checkRead r ∧ op = opCHECK) ∨ (i = .copy r ∧ op = opCOPY ∧ readDecided e = false))
    (h : activeEntry s r op = some e) (hGood : slotBad e = false) :
    let pfa := ew e.words 1
    (mayStart s e (pfaLun pfa) = true → ∃ t e' p k o more, exec i s = .next t ∧ entryOf? t r = some e' ∧ e'.phase = .running ∧
      e'.begun = true ∧ e'.senses = e.senses + 1 ∧ e'.words = e.words ∧
      (lunOf t (pfaLun pfa)).cur = some { kind := .read, owner := some o } ∧ o.ref = r ∧ o.verify = false ∧
      t.out.getLast? = some (.flashSense (BitVec.ofNat 8 (pfaLun pfa)) p (pfaBlock pfa) (pfaPage pfa) (weType e.words) k more) ∧
      t.mem = s.mem ∧ t.regs = s.regs ∧ t.links = s.links) ∧
    (mayStart s e (pfaLun pfa) = false → e.cls ≠ 0 → exec i s = .next s) := by
  obtain ⟨hExec, hReads⟩ := exec_reads hRow h hGood
  obtain ⟨hFound, -, -⟩ := activeEntry_spec h
  refine ⟨fun hMay => ?_, fun hNot hOrdinary => hExec.trans (next_congr ?_)⟩
  · obtain ⟨e', p, k, o, more, hAll⟩ := readsStart hFound (due_of_eligible hReads (mayStart_eligible hMay))
    exact ⟨_, e', p, k, o, more, hExec.trans (next_congr (if_pos hMay)), hAll⟩
  · exact (if_neg (by rw [hNot]; exact Bool.false_ne_true)).trans (trySuspend_ordinary hOrdinary _)

/-! ### Legs -/

/-- An entry with one of its legs started. -/
def legStarted (e : Entry) (i : Nat) : Entry :=
  { modLeg e i fun g => { g with started := true } with phase := .running, begun := true }

theorem legs_modLeg {e : Entry} {k : Nat} {g : Leg} (h : e.legs[k]? = some g) (f : Leg → Leg) :
    (modLeg e k f).legs[k]? = some (f g) := by
  unfold modLeg
  rw [List.getElem?_mapIdx, h, Option.map_some, if_pos rfl]

theorem legs_legStarted {e : Entry} {k : Nat} {g : Leg} (h : e.legs[k]? = some g) :
    (legStarted e k).legs[k]? = some { g with started := true } := legs_modLeg h _

/-- A cache sequence goes by the entry's name, words and class. -/
theorem closeSeq_legStarted (s : State) (e : Entry) (i l : Nat) (page : Bool) :
    closeSeq s (legStarted e i) l page = closeSeq s e l page := rfl

theorem cacheMore_legStarted (s : State) (e : Entry) (i l : Nat) : cacheMore s (legStarted e i) l = cacheMore s e l := rfl

theorem sendSectors_legStarted (s : State) (e : Entry) (i : Nat) : sendSectors s (legStarted e i) i = sendSectors s e i := rfl

theorem besideFlash_sendSectors (s : State) (e : Entry) (i : Nat) : besideFlash (sendSectors s e i) = besideFlash s := by
  unfold sendSectors
  dsimp only
  refine foldl_kept besideFlash _ (fun u j => ?_) _ s
  rfl

theorem besideFlash_closeSeq (s : State) (e : Entry) (l : Nat) (page : Bool) : besideFlash (closeSeq s e l page) = besideFlash s := by
  rw [closeSeq_eq]
  rfl

/-! ### Programs (R235-R237, R239) -/

/-- The sectors of a leg and the confirm have been sent. -/
def programSent (s : State) (e : Entry) (i : Nat) : State :=
  emit (sendSectors (closeSeq s e (pfaLun (legPfa e i)) true) e i)
    (.flashConfirm (BitVec.ofNat 8 (pfaLun (legPfa e i))) (cacheMore (closeSeq s e (pfaLun (legPfa e i)) true) e (pfaLun (legPfa e i))))

theorem besideFlash_programSent (s : State) (e : Entry) (i : Nat) : besideFlash (programSent s e i) = besideFlash s :=
  (besideFlash_sendSectors _ e i).trans (besideFlash_closeSeq s e _ _)

theorem startProgram_sent {s : State} {e : Entry} {i : Nat} (h : areaFailing s e = []) : startProgram s e i =
    startArray (setEntry (programSent s e i) (legStarted e i)) (legStarted e i) (pfaLun (legPfa e i)) .program
      { ref := e.ref, leg := i, type := weType e.words } (areaSectors e.words) true := by
  unfold startProgram
  dsimp only
  rw [h]
  refine (if_neg (by decide)).trans ?_
  rfl

theorem startProgram_parity {s : State} {e : Entry} {i : Nat} (h : areaFailing s e ≠ []) : startProgram s e i =
    conclude (setEntry (noteFailing s 4 (areaFailing s e))
      (modLeg (legStarted e i) i fun g => { g with status := some stDATA_PARITY })) e.ref := by
  have hSome : (!(areaFailing s e).isEmpty) = true := by
    cases hBad : areaFailing s e with
    | nil => exact absurd hBad h
    | cons a t => rfl
  unfold startProgram
  exact if_pos hSome

theorem entryOf?_conclude_legs {s : State} {r : EntryRef} {e : Entry} (h : entryOf? s r = some e) :
    ∃ e', entryOf? (conclude s r) r = some e' ∧ e'.legs = e.legs := by
  have hRef := entryOf?_ref h
  unfold conclude
  rw [h]
  dsimp only
  split
  · exact ⟨e, h, rfl⟩
  · split
    · exact ⟨e, h, rfl⟩
    · next st _ =>
      have hSame : entryOf? (if st = stPARTIAL then recordPartial s e else s) r = some e := by
        split
        · refine (entryOf?_of_entries ?_ r).trans h
          unfold recordPartial
          dsimp only
          rw [occur_eq]
          rfl
        · exact h
      generalize (if st = stPARTIAL then recordPartial s e else s) = u at hSame ⊢
      unfold endEntry
      rw [hSame]
      dsimp only
      split
      · exact ⟨e, hSame, rfl⟩
      · exact ⟨{ e with phase := .ended, status := st, result := resultLow e },
          entryOf?_setEntry_self hSame hRef, rfl⟩

/-- A leg whose areas fail parity ends with its status and sends nothing (R236). -/
theorem programs_parity {s : State} {r : EntryRef} {k : Nat} {e : Entry} {g : Leg} (h : entryOf? s r = some e)
    (hLeg : e.legs[k]? = some g) (hAreas : areaFailing s e ≠ []) :
    ∃ e', entryOf? (startProgram s e k) r = some e' ∧ (e'.legs[k]?).map (·.status) = some (some 0x16) ∧
      (startProgram s e k).out = s.out ∧ (startProgram s e k).mem = s.mem ∧ (startProgram s e k).fchs = s.fchs := by
  have hRef := entryOf?_ref h
  have hQueues := outsideQueues_noteFailing s 4 (areaFailing s e)
  have hOut : (noteFailing s 4 (areaFailing s e)).out = s.out := (congrArg State.out hQueues :)
  have hFchs : (noteFailing s 4 (areaFailing s e)).fchs = s.fchs := (congrArg State.fchs hQueues :)
  have hMem : (noteFailing s 4 (areaFailing s e)).mem = s.mem := (congrArg Prod.snd (entriesMem_noteFailing s 4 (areaFailing s e)) :)
  have hFlight : entryOf? (noteFailing s 4 (areaFailing s e)) r = some e :=
    (entryOf?_of_entries (congrArg Prod.fst (entriesMem_noteFailing s 4 (areaFailing s e)) :) r).trans h
  have hStatus := legs_modLeg (legs_legStarted hLeg) fun g => { g with status := some stDATA_PARITY }
  have hSame : (modLeg (legStarted e k) k fun g => { g with status := some stDATA_PARITY }).ref = r := hRef
  rw [startProgram_parity hAreas, hRef]
  generalize modLeg (legStarted e k) k (fun g => { g with status := some stDATA_PARITY }) = e2 at hStatus hSame ⊢
  generalize noteFailing s 4 (areaFailing s e) = u at hOut hFchs hMem hFlight ⊢
  obtain ⟨e', hEntry, hLegs⟩ := entryOf?_conclude_legs (entryOf?_setEntry_self hFlight hSame)
  have hAround := aroundEntries_conclude (setEntry u e2) r
  refine ⟨e', hEntry, ?_, (congrArg State.out hAround :).trans hOut, (congrArg State.mem hAround :).trans hMem,
    (congrArg State.fchs hAround :).trans hFchs⟩
  rw [hLegs, hStatus]
  rfl

theorem exec_programs {s : State} {i : Instr} {r : EntryRef} {op k : Nat} {e : Entry}
    (hRow : (i = .program r ∧ op = opPROGRAM ∧ k = 0) ∨ (∃ b, i = .mirrorProgram r b ∧ op = opMIRROR ∧ k = b2n b) ∨
      (i = .copy r ∧ op = opCOPY ∧ k = 0 ∧ readDecided e = true))
    (h : activeEntry s r op = some e) (hGood : slotBad e = false) :
    exec i s = .next (tryStart s e (pfaLun (legPfa e k)) fun s => startLeg s e k) := by
  obtain ⟨hFound, hOp, -⟩ := activeEntry_spec h
  have hFirst : weOpcode e.words ≠ opCOPY → legPfa e 0 = ew e.words 1 := fun hNot => if_neg (by simp [hNot])
  rcases hRow with ⟨rfl, rfl, rfl⟩ | ⟨b, rfl, rfl, rfl⟩ | ⟨rfl, rfl, rfl, hDecided⟩
  · refine next_congr ((flashRow_eq h hGood _ _).trans ?_)
    rw [entryLun_eq hFound, hFirst (by rw [hOp]; decide)]
  · refine next_congr ((flashRow_eq h hGood _ _).trans ?_)
    rw [entryLun_eq hFound]
    cases b with
    | false => rw [show b2n false = 0 from rfl, hFirst (by rw [hOp]; decide)]; rfl
    | true => rfl
  · have hPfa : legPfa e 0 = ew e.words 5 := if_pos (.inr hOp)
    refine next_congr ((withSlot_good hFound hGood _).trans ?_)
    rw [h, hPfa]
    exact if_pos hDecided

theorem startLeg_eq {s : State} {e : Entry} {k : Nat} {g : Leg} (hLeg : e.legs[k]? = some g) (hFresh : g.started = false) :
    startLeg s e k = if busAllows s e (g.lun / 32) then startProgram s e k else s := by
  unfold startLeg
  rw [hLeg]
  exact if_neg (by rw [hFresh]; exact Bool.false_ne_true)

theorem programRowsStart {s : State} {i : Instr} {r : EntryRef} {op k : Nat} {e : Entry} {g : Leg}
    (hRow : (i = .program r ∧ op = opPROGRAM ∧ k = 0) ∨ (∃ b, i = .mirrorProgram r b ∧ op = opMIRROR ∧ k = b2n b) ∨
      (i = .copy r ∧ op = opCOPY ∧ k = 0 ∧ readDecided e = true))
    (h : activeEntry s r op = some e) (hGood : slotBad e = false) (hLeg : e.legs[k]? = some g) (hFresh : g.started = false) :
    let l := pfaLun (legPfa e k)
    mayStart s e l = true →
    (busAllows s e (g.lun / 32) = false → exec i s = .next s) ∧
    (busAllows s e (g.lun / 32) = true → areaFailing s e = [] → ∃ t e' o, exec i s = .next t ∧ entryOf? t r = some e' ∧
      e'.phase = .running ∧ e'.begun = true ∧ (e'.legs[k]?).map (·.started) = some true ∧
      (lunOf t l).cur = some { kind := .program, owner := some o } ∧ o.ref = r ∧ o.leg = k ∧
      t.out = (sendSectors (closeSeq s e l true) e k).out ++ [.flashConfirm (BitVec.ofNat 8 l) (cacheMore (closeSeq s e l true) e l)] ∧
      t.mem = s.mem ∧ t.regs = s.regs) ∧
    (busAllows s e (g.lun / 32) = true → areaFailing s e ≠ [] → ∃ t e', exec i s = .next t ∧ entryOf? t r = some e' ∧
      (e'.legs[k]?).map (·.status) = some (some 0x16) ∧ t.out = s.out ∧ t.mem = s.mem ∧ t.fchs = s.fchs) := by
  intro l hMay
  obtain ⟨hFound, -, -⟩ := activeEntry_spec h
  have hRef := entryOf?_ref hFound
  have hExec : exec i s = .next (if busAllows s e (g.lun / 32) then startProgram s e k else s) :=
    (exec_programs hRow h hGood).trans (next_congr ((if_pos hMay).trans (startLeg_eq hLeg hFresh)))
  refine ⟨fun hBus => hExec.trans (next_congr (if_neg (by rw [hBus]; exact Bool.false_ne_true))), fun hBus hAreas => ?_,
    fun hBus hAreas => ?_⟩
  · have hBeside := besideFlash_programSent s e k
    have hFlight : entryOf? (programSent s e k) r = some e := (entryOf?_of_entries (congrArg (·.1) hBeside :) r).trans hFound
    have hEntry := entryOf?_startArray hFlight (e := legStarted e k) hRef l .program { ref := e.ref, leg := k, type := weType e.words }
      (areaSectors e.words) true
    have hCur := cur_startArray (setEntry (programSent s e k) (legStarted e k)) (legStarted e k) l .program
      { ref := e.ref, leg := k, type := weType e.words } (areaSectors e.words) true
    have hArray := startArray_eq (setEntry (programSent s e k) (legStarted e k)) (legStarted e k) l .program
      { ref := e.ref, leg := k, type := weType e.words } (areaSectors e.words) true
    refine ⟨_, legStarted e k, _, hExec.trans (next_congr ((if_pos hBus).trans (startProgram_sent hAreas))), hEntry, rfl, rfl, ?_, hCur,
      hRef, rfl, (congrArg State.out hArray :), (congrArg State.mem hArray :).trans (congrArg (·.2.1) hBeside :),
      (congrArg State.regs hArray :).trans (congrArg (·.2.2.1) hBeside :)⟩
    rw [legs_legStarted hLeg]
    rfl
  · obtain ⟨e', hAll⟩ := programs_parity hFound hLeg hAreas
    exact ⟨_, e', hExec.trans (next_congr (if_pos hBus)), hAll⟩

/-! ### Erases (R240) -/

/-- The erase has been sent to every plane. -/
def eraseSent (s : State) (e : Entry) : State :=
  (planesOf e.words).foldl (fun s pl => emit s (.flashErase (BitVec.ofNat 8 (pfaLun (ew e.words 1))) (BitVec.ofNat 2 pl)
    (pfaBlock (ew e.words 1)) (weType e.words))) (closeSeq s e (pfaLun (ew e.words 1)) false)

theorem foldl_emit (f : Nat → Output) (l : List Nat) (s : State) : l.foldl (fun s a => emit s (f a)) s = { s with out := s.out ++ l.map f } := by
  induction l generalizing s with
  | nil => rw [List.map_nil, List.append_nil]; rfl
  | cons a l ih =>
    rw [List.foldl_cons, ih]
    unfold emit
    dsimp only
    rw [List.append_assoc]
    rfl

theorem eraseSent_eq (s : State) (e : Entry) : eraseSent s e = { closeSeq s e (pfaLun (ew e.words 1)) false with
    out := (closeSeq s e (pfaLun (ew e.words 1)) false).out ++ (planesOf e.words).map fun p => .flashErase
      (BitVec.ofNat 8 (pfaLun (ew e.words 1))) (BitVec.ofNat 2 p) (pfaBlock (ew e.words 1)) (weType e.words) } := foldl_emit _ _ _

theorem eraseSent_out (s : State) (e : Entry) : (eraseSent s e).out = (closeSeq s e (pfaLun (ew e.words 1)) false).out ++
    (planesOf e.words).map fun p => .flashErase (BitVec.ofNat 8 (pfaLun (ew e.words 1))) (BitVec.ofNat 2 p) (pfaBlock (ew e.words 1))
      (weType e.words) := by
  rw [eraseSent_eq]

theorem startErase_eq (s : State) (e : Entry) : startErase s e = startArray (setEntry (eraseSent s e) (legStarted e 0)) (legStarted e 0)
    (pfaLun (ew e.words 1)) .erase { ref := e.ref, type := weType e.words } 0 false := rfl

theorem erasesStart {s : State} {r : EntryRef} {e : Entry} (h : activeEntry s r opERASE = some e) (hGood : slotBad e = false) :
    let l := pfaLun (ew e.words 1)
    mayStart s e l = true →
    ∃ t e' o, exec (.erase r) s = .next t ∧ entryOf? t r = some e' ∧ e'.phase = .running ∧ e'.begun = true ∧
      (lunOf t l).cur = some { kind := .erase, owner := some o } ∧ o.ref = r ∧
      t.out = (closeSeq s e l false).out ++ (planesOf e.words).map (fun p => .flashErase (BitVec.ofNat 8 l) (BitVec.ofNat 2 p)
        (pfaBlock (ew e.words 1)) (weType e.words)) ∧ t.mem = s.mem ∧ t.regs = s.regs := by
  intro l hMay
  obtain ⟨hFound, -, -⟩ := activeEntry_spec h
  have hRef := entryOf?_ref hFound
  have hBeside : besideFlash (eraseSent s e) = besideFlash s := by
    rw [eraseSent_eq]
    exact besideFlash_closeSeq s e l false
  have hFlight : entryOf? (eraseSent s e) r = some e := (entryOf?_of_entries (congrArg (·.1) hBeside :) r).trans hFound
  have hEntry := entryOf?_startArray hFlight (e := legStarted e 0) hRef l .erase { ref := e.ref, type := weType e.words } 0 false
  have hCur := cur_startArray (setEntry (eraseSent s e) (legStarted e 0)) (legStarted e 0) l .erase
    { ref := e.ref, type := weType e.words } 0 false
  have hArray := startArray_eq (setEntry (eraseSent s e) (legStarted e 0)) (legStarted e 0) l .erase
    { ref := e.ref, type := weType e.words } 0 false
  have hOut : (startArray (setEntry (eraseSent s e) (legStarted e 0)) (legStarted e 0) l .erase { ref := e.ref, type := weType e.words } 0
      false).out = (eraseSent s e).out := (congrArg State.out hArray :)
  have hExec : exec (.erase r) s = .next (startErase s e) := by
    refine next_congr ((flashRow_eq h hGood _ _).trans ?_)
    rw [entryLun_eq hFound]
    exact if_pos hMay
  exact ⟨_, legStarted e 0, _, hExec.trans (next_congr (startErase_eq s e)), hEntry, rfl, rfl, hCur, hRef,
    hOut.trans (eraseSent_out s e), (congrArg State.mem hArray :).trans (congrArg (·.2.1) hBeside :),
    (congrArg State.regs hArray :).trans (congrArg (·.2.2.1) hBeside :)⟩

/-- Settles O37: a start's row, what is sent, and the operation that then runs on the LUN. -/
theorem flashOperationsStart : Obligations.FlashOperationsStart :=
  ⟨fun _ _ _ _ _ hRow h hGood => readRowsStart hRow h hGood,
    fun _ _ _ _ _ _ _ hRow h hGood hLeg hFresh => programRowsStart hRow h hGood hLeg hFresh,
    fun _ _ _ h hGood => erasesStart h hGood⟩

end Sys2Proof.Machine
end

section
/-! A sector decode and the bus of another channel (R253, R282, R304). -/

namespace Sys2Proof.Machine

/-! ### A table of LUNs that names one past its channel

At a sector boundary of channel c a poll that waited goes to LUN 32c + k for every key k of the channel's LUN table. The statement
puts no bound on the keys, and key 32 of channel 0 is LUN 0 of channel 1. -/

/-- A plane of two sectors, sensed once at step 0 and waiting for its decodes. -/
def sensedPlane : PlaneRd := { plane := 0, todo := [], ready := true, tried := [0], sectors := [{ sector := 0 }, { sector := 1 }] }

/-- A CHECK_READ of channel 0 that runs, its one plane sensed. -/
def checkRunning : Entry :=
  { ref := { sq := 0, count := 0 }, d := 0, cls := 2, words := [0x1100], receipt := 0, fetchedAt := 0, cid := 0, batch := 0,
    phase := .running, planes := [sensedPlane] }

/-- A LUN with an erase in progress whose poll waits for the sector boundary. -/
def pollWaits : LunSt := { state := .busy, cur := some { kind := .erase, owner := none }, pollNow := true }

/-- At reset but for the CHECK_READ in flight and a LUN table of channel 0 with key 32. -/
def lunPastChannel : State := { State.reset with entries := [checkRunning], fchs := [(0, { luns := [(32, pollWaits)] })] }

/-- A raw codeword without a zero bit: an erased sector (R305). -/
def erasedCodeword : DecodeResult := { ok := false, data := [], md := [], corrected := 0, unsat := 0, zeros := 0 }

/-- Polls that a channel has sent after an outcome. -/
def pollsAfter (c : Nat) : Host.Outcome State Fault Refusal → W16
  | .next t => (fchOf t c).polls
  | _ => 0

/-- The decode on channel 0 sends the poll of its key 32 to channel 1. -/
theorem pollsAfter_lunPastChannel :
    pollsAfter 1 (exec (.sectorDecoded checkRunning.ref false 0 0 false erasedCodeword) lunPastChannel) = 1 := by
  decide

/-- Refutes O38: a decode may change another channel. Where the LUN table of channel 0 has a waiting poll under key 32, the sector
boundary after a CHECK_READ's decode on channel 0 sends it to LUN 0 of channel 1 and counts it there. -/
theorem not_decodesEndSectors : ¬ Obligations.DecodesEndSectors := by
  unfold Obligations.DecodesEndSectors
  intro h
  obtain ⟨-, hTurn⟩ := h lunPastChannel checkRunning.ref false 0 0 false erasedCodeword checkRunning sensedPlane { sector := 0 }
    (by decide) rfl rfl (.inr (.inl (by decide))) rfl rfl rfl rfl rfl rfl
  obtain ⟨t, hNext, -, -, -, -, -, -, hOthers, -⟩ := hTurn (by decide) (by decide)
  have hPolls := pollsAfter_lunPastChannel
  rw [hNext] at hPolls
  have hSame : (fchOf t 1).polls = (fchOf lunPastChannel 1).polls := congrArg Fch.polls (hOthers 1 (by decide))
  exact absurd (hPolls.symm.trans hSame) (by decide)

end Sys2Proof.Machine
end
